-- ==== Sys2Proof/Word.lean ====
section
/-! DEFINITION. Words, byte strings and sparse tables: the plain data every other file uses.
Multi-byte fields are little-endian (R13); counters that the field maps call saturating stop at their
largest value. -/
namespace Sys2Proof

abbrev Byte := BitVec 8
abbrev Bytes := List (BitVec 8)
abbrev W64 := BitVec 64
abbrev W32 := BitVec 32

/-- A sparse table by number, kept in rising order of its keys. -/
abbrev Tab (α : Type) := List (Nat × α)

/-- The entry of key `k`, if the table holds one. -/
def Tab.find {α : Type} : Tab α → Nat → Option α
  | [], _ => none
  | (i, v) :: t, k => if i = k then some v else Tab.find t k

/-- The entry of key `k`, or `d` when the table holds none. -/
def Tab.getD {α : Type} (t : Tab α) (k : Nat) (d : α) : α :=
  match Tab.find t k with
  | some v => v
  | none => d

/-- Write entry `k`, keeping the keys in rising order. -/
def Tab.put {α : Type} : Tab α → Nat → α → Tab α
  | [], k, v => [(k, v)]
  | (i, w) :: t, k, v =>
    if k < i then (k, v) :: (i, w) :: t
    else if k = i then (k, v) :: t
    else (i, w) :: Tab.put t k v

/-- Remove entry `k`. -/
def Tab.del {α : Type} : Tab α → Nat → Tab α
  | [], _ => []
  | (i, w) :: t, k => if i = k then Tab.del t k else (i, w) :: Tab.del t k

/-- Apply `f` to every entry. -/
def Tab.mapVal {α β : Type} (t : Tab α) (f : Nat → α → β) : Tab β :=
  t.map (fun p => (p.1, f p.1 p.2))

/-- Addition that stops at the largest value of `w` bits. -/
def satAdd (w a b : Nat) : Nat := min (a + b) (2 ^ w - 1)

/-- Bits `hi` to `lo` inclusive of a number (R13: bit 0 is the least significant). -/
def bits (n hi lo : Nat) : Nat := (n >>> lo) % 2 ^ (hi + 1 - lo)

/-- Bit `i` of a number. -/
def bitAt (n i : Nat) : Bool := n.testBit i

/-- Set bit `i` of a mask to `b`. -/
def setBit (n i : Nat) (b : Bool) : Nat :=
  if n.testBit i = b then n else if b then n + 2 ^ i else n - 2 ^ i

/-- Number of ones among the lowest `k` bits. -/
def popCount (n : Nat) : Nat → Nat
  | 0 => 0
  | k + 1 => popCount n k + (if n.testBit k then 1 else 0)

/-- A field of `w` bits read as a signed number. -/
def signed (w n : Nat) : Int :=
  if n % 2 ^ w < 2 ^ (w - 1) then (n % 2 ^ w : Nat) else (n % 2 ^ w : Nat) - (2 ^ w : Nat)

/-- A signed number as a field of `w` bits (two's complement). -/
def unsigned (w : Nat) (i : Int) : Nat := (i % (2 ^ w : Nat)).toNat

/-- The little-endian number that the first `n` bytes hold (R13); a missing byte reads as zero. -/
def leNat : Nat → Bytes → Nat
  | 0, _ => 0
  | _ + 1, [] => 0
  | n + 1, b :: bs => b.toNat + 256 * leNat n bs

/-- The little-endian number in `n` bytes at offset `off`. -/
def leAt (bs : Bytes) (off n : Nat) : Nat := leNat n (bs.drop off)

/-- A number as `n` little-endian bytes (R13). -/
def leBytes : Nat → Nat → Bytes
  | 0, _ => []
  | n + 1, v => BitVec.ofNat 8 v :: leBytes n (v / 256)

/-- Bytes `off` to `off + n - 1`, padded with zeros. -/
def sliceAt (bs : Bytes) (off n : Nat) : Bytes :=
  let x := (bs.drop off).take n
  x ++ List.replicate (n - x.length) 0

/-- True when every byte is zero: the check on reserved bytes of R14. -/
def allZero : Bytes → Bool
  | [] => true
  | b :: bs => b == 0 && allZero bs

/-- The byte at offset `i` of a byte string, zero past its end. -/
def byteAt (bs : Bytes) (i : Nat) : Nat := leAt bs i 1

/-- Replace the element at place `i` of a list. -/
def setAt {α : Type} : List α → Nat → α → List α
  | [], _, _ => []
  | _ :: t, 0, v => v :: t
  | a :: t, i + 1, v => a :: setAt t i v

/-- Remove the first element that meets `p`. -/
def removeFirst {α : Type} (p : α → Bool) : List α → List α
  | [] => []
  | a :: t => if p a then t else a :: removeFirst p t

/-- Add a number to a set without repeats, kept in rising order. -/
def insertNat (k : Nat) : List Nat → List Nat
  | [] => [k]
  | i :: t => if k < i then k :: i :: t else if k = i then i :: t else i :: insertNat k t

end Sys2Proof
end

