-- ==== Sys2Proof/Proto.lean ====
section
/-! DEFINITION. What crosses the module's edge or its fabric: error codes, packets (R277 to R280), idle
frames (R240), Gwyntu messages (R406), notices (R429) and what the module sends out. -/
namespace Sys2Proof

/-! ### Error codes (R21, R22 and the error table of each chapter) -/
namespace Code
abbrev ok : Nat := 0x0000
-- group 0x01, R433
abbrev gwHeader : Nat := 0x0101
abbrev gwOpcode : Nat := 0x0102
abbrev gwHatch : Nat := 0x0103
abbrev gwPayload : Nat := 0x0104
abbrev gwSeqStale : Nat := 0x0105
abbrev gwSeqRange : Nat := 0x0106
abbrev gwSeqConflict : Nat := 0x0107
abbrev journalFull : Nat := 0x0108
abbrev hearthDegraded : Nat := 0x0109
abbrev noJobContext : Nat := 0x010A
abbrev jobContextOpen : Nat := 0x010B
abbrev interrupted : Nat := 0x010C
abbrev bulkRange : Nat := 0x010D
abbrev bulkAbandoned : Nat := 0x010E
abbrev hearthFailover : Nat := 0x010F
abbrev hearthPartnerLost : Nat := 0x0110
abbrev noticeOverflow : Nat := 0x0111
abbrev diePoweredOff : Nat := 0x0112
-- group 0x02, R211 and R228
abbrev glazeFault : Nat := 0x0201
abbrev ldlDecode : Nat := 0x0202
abbrev ldlAddr : Nat := 0x0203
abbrev ldlRegion : Nat := 0x0204
abbrev ldlFrozen : Nat := 0x0205
abbrev ldlOverlap : Nat := 0x0206
abbrev gatherFault : Nat := 0x0207
abbrev gatherIndex : Nat := 0x0208
abbrev panUncorrectable : Nat := 0x0209
abbrev regionConflict : Nat := 0x020A
abbrev regionTableFull : Nat := 0x020B
abbrev qplNoQueue : Nat := 0x020C
abbrev qplItemSize : Nat := 0x020D
abbrev qplPlanInvalid : Nat := 0x020E
abbrev qplWaitRange : Nat := 0x020F
abbrev qplIdle : Nat := 0x0210
-- group 0x03, R124
abbrev arrDecode : Nat := 0x0301
abbrev arrModeIllegal : Nat := 0x0302
abbrev arrFmtIllegal : Nat := 0x0303
abbrev arrTileRange : Nat := 0x0304
abbrev arrShape : Nat := 0x0305
abbrev arrOverlap : Nat := 0x0306
abbrev arrExactRequired : Nat := 0x0307
abbrev arrSkilletGroup : Nat := 0x0308
-- group 0x04, R88, R155, R170
abbrev courseDecode : Nat := 0x0401
abbrev courseWatchdog : Nat := 0x0402
abbrev seqThreadBusy : Nat := 0x0403
abbrev menuInvalid : Nat := 0x0404
abbrev menuTableFull : Nat := 0x0405
abbrev menuDieBusy : Nat := 0x0406
abbrev launchTooLate : Nat := 0x0407
abbrev turnHoldover : Nat := 0x0408
abbrev turnMisaligned : Nat := 0x0409
abbrev frozenTarget : Nat := 0x040A
abbrev vecDecode : Nat := 0x0420
abbrev vecFmtIllegal : Nat := 0x0421
abbrev vecTileRange : Nat := 0x0422
abbrev vecShape : Nat := 0x0423
abbrev vecOverlap : Nat := 0x0424
-- group 0x05, R301
abbrev fabRankInvalid : Nat := 0x0501
abbrev fabEpochOld : Nat := 0x0502
abbrev fabTableLate : Nat := 0x0503
abbrev fabTableInvalid : Nat := 0x0504
abbrev fabNeighbourChange : Nat := 0x0505
abbrev fabCableMismatch : Nat := 0x0506
abbrev fabCoordConflict : Nat := 0x0507
abbrev fabUnroutable : Nat := 0x0508
abbrev fabMeshSplit : Nat := 0x0509
abbrev fabThrottled : Nat := 0x050A
abbrev fabGatewayExcluded : Nat := 0x050B
-- group 0x06, R333
abbrev targetLost : Nat := 0x0601
abbrev replayExpired : Nat := 0x0602
abbrev rmtDecode : Nat := 0x0603
abbrev rmtAddr : Nat := 0x0604
abbrev rmtRegion : Nat := 0x0605
abbrev rmtFrozen : Nat := 0x0606
abbrev rmtAlign : Nat := 0x0607
abbrev targetReset : Nat := 0x0608
abbrev jobTornDown : Nat := 0x0609
-- group 0x07, R368
abbrev collTimeout : Nat := 0x0701
abbrev stepTainted : Nat := 0x0702
abbrev collResendFailed : Nat := 0x0703
abbrev collPlanInvalid : Nat := 0x0704
abbrev collPlanUnknown : Nat := 0x0705
abbrev collPlanMismatch : Nat := 0x0706
abbrev collPlanBusy : Nat := 0x0707
abbrev collBindingInvalid : Nat := 0x0708
abbrev collExactRequired : Nat := 0x0709
abbrev collDecode : Nat := 0x070A
abbrev collBucketState : Nat := 0x070B
abbrev collMemberStopped : Nat := 0x070C
abbrev collSaturated : Nat := 0x070D
abbrev collPlanTableFull : Nat := 0x070E
-- group 0x08, R398, R506
abbrev thermalSlowdownRequest : Nat := 0x0801
abbrev leavePlanInvalid : Nat := 0x0802
abbrev leaveDecode : Nat := 0x0803
abbrev thermalWarning : Nat := 0x0804
abbrev thermalThrottle : Nat := 0x0805
abbrev thermalSlope : Nat := 0x0806
abbrev thermalShutdown : Nat := 0x0807
abbrev thmSensorFlagged : Nat := 0x0808
abbrev thmSensorsLost : Nat := 0x0809
abbrev hbmThermal : Nat := 0x080A
abbrev powerLimitLow : Nat := 0x080B
abbrev coolantOutOfRange : Nat := 0x080C
abbrev busbarOutOfRange : Nat := 0x080D
-- group 0x09, R261, R506
abbrev lsmFadeWarn : Nat := 0x0901
abbrev lsmSwitchover : Nat := 0x0902
abbrev lsmNoSpare : Nat := 0x0903
abbrev lanesRetired : Nat := 0x0904
abbrev lsmFailed : Nat := 0x0905
abbrev linkLost : Nat := 0x0906
abbrev linkTrainFail : Nat := 0x0907
abbrev pauseFailed : Nat := 0x0908
abbrev linkReplayExhausted : Nat := 0x0909
abbrev lsmServiceRefused : Nat := 0x090A
-- group 0x0A, R55, R463, R506
abbrev fenced : Nat := 0x0A01
abbrev siteMapInvalid : Nat := 0x0A02
abbrev orientMismatch : Nat := 0x0A03
abbrev steppingExcluded : Nat := 0x0A04
abbrev featureLevelLow : Nat := 0x0A05
abbrev siteVacant : Nat := 0x0A06
abbrev dieReset : Nat := 0x0A07
abbrev resetInvalid : Nat := 0x0A08
abbrev katFailed : Nat := 0x0A09
abbrev dieHardFailed : Nat := 0x0A0A
abbrev bootFallback : Nat := 0x0A0B
abbrev bootNoFirmware : Nat := 0x0A0C
abbrev hearthVersionMismatch : Nat := 0x0A0D
abbrev menuSignature : Nat := 0x0A0E
abbrev keysInvalid : Nat := 0x0A0F
abbrev evictInvalid : Nat := 0x0A10
abbrev menuUnloaded : Nat := 0x0A11
abbrev fwSlotBusy : Nat := 0x0A12
abbrev fwSlotOrder : Nat := 0x0A13
abbrev fwImageInvalid : Nat := 0x0A14
abbrev clUnsupported : Nat := 0x0A15
-- group 0x0B, R487
abbrev resourceBusy : Nat := 0x0B01
abbrev sivFull : Nat := 0x0B02
abbrev srpInvalid : Nat := 0x0B03
abbrev cntReadDenied : Nat := 0x0B04
abbrev cntDecode : Nat := 0x0B05
abbrev sivNoRing : Nat := 0x0B06
end Code

/-! ### Packets -/

/-- Packet classes of R279. -/
abbrev clsReq : Nat := 0
abbrev clsRsp : Nat := 1
abbrev clsCol : Nat := 2
abbrev clsCtl : Nat := 3

/-- A fabric packet: the routing header of R279 field by field, the 12 TRANSPORT bytes of R277 and the
LEN payload bytes. `odd` is true when a reserved field of the routing header arrived non-zero. -/
structure Packet where
  dstRank : Nat := 0
  dstDie : Nat := 0
  dstCoord : Nat := 0
  srcRank : Nat := 0
  srcDie : Nat := 0
  cls : Nat := 0
  phase : Nat := 0
  mark : Bool := false
  epoch : Nat := 0
  job : Nat := 0
  via : Nat := 0x7F
  ttl : Nat := 63
  odd : Bool := false
  trans : Bytes := []
  payload : Bytes := []
  deriving DecidableEq, Repr

/-- The link word of R278. -/
structure LinkWord where
  creditQ : Nat := 0
  creditN : Nat := 0
  sharedN : Nat := 0
  usedShared : Bool := false
  isNull : Bool := false
  deriving DecidableEq, Repr

/-- An idle frame of R240 with its fields read out; `beacon` is BEACON_DATA and `fab` the FAB_AREA. -/
structure IdleFrame where
  txNext : Nat := 0
  ackSeq : Nat := 0
  nakSeq : Nat := 0
  nak : Bool := false
  replay : Bool := false
  hasBeacon : Bool := false
  pauseReq : Bool := false
  pauseAck : Bool := false
  laneReq : Bool := false
  laneSet : Bool := false
  beacon : Bytes := []
  pauseTurn : Nat := 0
  pauseLen : Nat := 0
  laneNext : Nat := 0
  laneNow : Nat := 0
  laneTurn : Nat := 0
  fab : Bytes := []
  deriving DecidableEq, Repr

/-! ### Gwyntu -/

/-- Header of a Gwyntu message (R406), read out of its 64 bytes. -/
structure GwHeader where
  magic : Nat := 0x47574E59
  version : Nat := 1
  typ : Nat := 1
  hatch : Nat := 0
  read : Bool := false
  single : Bool := false
  seq : Nat := 0
  opcode : Nat := 0
  arg : Nat := 0
  len : Nat := 0
  code : Nat := 0
  stage : Nat := 0
  serial : Nat := 0
  tag : Nat := 0
  /-- A field that R406 reserves arrived non-zero. -/
  odd : Bool := false
  deriving DecidableEq, Repr

/-- Stages of a reply (R406). -/
inductive Stage where
  | accept | result | finish | reject | busy
  deriving DecidableEq, Repr

/-- One notice record (R429). `subject` is the 64-bit SUBJECT word. -/
structure Notice where
  seq : Nat := 0
  code : Nat := 0
  turn : Nat := 0
  subject : Nat := 0xFFFFFFFFFF000000
  arg1 : Nat := 0
  arg2 : Nat := 0
  arg3 : Nat := 0
  time : Nat := 0
  deriving DecidableEq, Repr

/-- What left the module: datagrams to the host, flits and idle frames on a fibre pair, light emissions,
pulses on SB_GP0 and answers of the port bridge. -/
inductive Output where
  | reply (hatch seq opcode arg : Nat) (stage : Stage) (code : Nat) (single : Bool) (payload : Bytes)
  | notices (hatch first : Nat) (records : List Notice)
  | bulkData (hatch seq page : Nat) (data : Bytes)
  | bulkAck (hatch seq first : Nat) (held : List Nat)
  | flit (die pair seq : Nat) (link : LinkWord) (body : Option Packet)
  | idle (die pair : Nat) (frame : IdleFrame)
  | solicitation
  | pulse (ns : Nat)
  deriving DecidableEq, Repr

end Sys2Proof
end

