-- ==== Sys2Proof/Syntax.lean ====
section
/-! DEFINITION. The commands of the block: one constructor of `Instr` per row of spec/opcode_table.json, in its
order, with the row's operands. `d` is a die's SITE number (R24), `c` a core, `t` a thread, `a` a die array,
`ch` a ladle channel, `p` a fibre pair of the die (R259), `h` a hatch, `k` a hearth. A course word's command
carries the 64-bit word itself (R81). Measured quantities that the world supplies are operands (log 9). -/
namespace Sys2Proof

/-- The units that consume and verify blocks of HBM and larder data (R192). -/
inductive Consumer where
  | ladle (ch : Nat)
  | sequencer (c : Nat)
  | whisk
  | fabric
  | kiln
  | hearth
  deriving DecidableEq, Repr

/-- What the restart of a die finds (R28, R439, R443): the die's site, the straps that it samples, whether its domains came to
power-good, the receivers of links that did not lock, as site and direction (0 N, 1 E, 2 S, 3 W), and whether its memory trained. -/
structure Restarting where
  die : Nat
  strap : Nat
  power : Bool
  links : List (Nat × Nat)
  mem : Bool
  deriving DecidableEq, Repr

/-- The commands of the block. -/
inductive Instr where
  /-- COLD_RESET (R434): Application of the 54 V input resets the whole module and starts bring-up from step 1. -/
  | coldReset
  /-- BRING_UP_START (R438): One millisecond after a panel warm reset starts, the hearths are released and bring-up runs from step 2. -/
  | bringUpStart
  /-- BOTH_HEARTHS_FAILED (R434): When both hearths' FAIL lines have been high for 100 ms without a break, the panel power controller starts a panel warm reset. -/
  | bothHearthsFailed
  /-- DIE_RESET_RESTART (R439): One millisecond after a die reset starts, bring-up steps 5 to 8 and 10 run for the die, which is rewritten when step 10 passes. -/
  | dieResetRestart (d : Restarting)
  /-- PORT_RESET_END (R440): Ten milliseconds after a port reset starts, the port returns to RUN and its pairs proceed from DARK. -/
  | portResetEnd (port : Nat)
  /-- TURN_TICK (R56): Every 1,024 reference clocks, adjusted by alignment corrections, the turn number increments and per-turn work is set up. -/
  | turnTick (inlet outlet : Int) (flow : Nat) (light : List (Nat × Nat × Int))
  /-- BEACON_SEND (R242): In every turn each direction of a lit link sends an idle frame carrying a beacon at the first flit boundary after the tick. -/
  | beaconSend (d p phase : Nat)
  /-- TURN_LOCK (R64): After 16 consecutive turns with the offset within 2 ns, the discipline loop goes from ACQUIRING to LOCKED. -/
  | turnLock
  /-- TURN_HOLDOVER_ENTRY (R64): After 4 turns with no parent beacon the loop holds its frequency correction, reselects a parent and enters HOLDOVER. -/
  | turnHoldoverEntry
  /-- TURN_HOLDOVER (R64): After 64 turns in HOLDOVER the hearth raises TURN_HOLDOVER once as a hatch notice. -/
  | turnHoldover
  /-- TURN_MISALIGNED (R65): When the offset to the parent exceeds the bound for more than 64 consecutive turns, the hearth raises TURN_MISALIGNED once. -/
  | turnMisaligned
  /-- COURSE_FETCH_DONE (R76): A sequencer's fetch of the next course from HBM into the spare buffer completes, verified by glaze. -/
  | courseFetchDone (d c : Nat)
  /-- COURSE_START (R77): A course starts at the later of its tick and the finish of the previous course, with thread 0 at word 0, or raises GLAZE_FAULT for a failed fetch. -/
  | courseStart (d c lag : Nat)
  /-- MENU_ABORT (R83): On an error that stops a course the hearth stops every core of the menu at its next issue cycle and reports ABORTED with the first error. -/
  | menuAbort (menu : Nat)
  /-- COURSE_WATCHDOG (R85): A course still running at the tick of turn S + t + WATCHDOG aborts the menu. -/
  | courseWatchdog (d c : Nat)
  /-- NOP (R82): The sequencer issues a word that does nothing. -/
  | nop (d c t : Nat) (w : W64)
  /-- END (R82): The issuing thread ends. -/
  | endThread (d c t : Nat) (w : W64)
  /-- WAIT_TAG (R82): The thread waits until tag k reaches n, then subtracts n. -/
  | waitTag (d c t : Nat) (w : W64)
  /-- WAIT_TAG_SATISFIED (R79): A waiting WAIT_TAG completes in the cycle its tag reaches the count and its own TAG counts. -/
  | waitTagSatisfied (d c t : Nat)
  /-- WAIT_QUEUE (R82): The thread waits until the named queue's DEPTH of complete items reaches d. -/
  | waitQueue (d c t : Nat) (w : W64)
  /-- WAIT_QUEUE_SATISFIED (R79): A waiting WAIT_QUEUE completes in the cycle the queue's DEPTH reaches d. -/
  | waitQueueSatisfied (d c t : Nat)
  /-- SET_CTR (R82): A thread counter is set to a value. -/
  | setCtr (d c t : Nat) (w : W64)
  /-- ADD_CTR (R82): A signed addend is added to a thread counter, wrapping modulo 2^32. -/
  | addCtr (d c t : Nat) (w : W64)
  /-- LOOP (R82): A counter is decremented and the thread branches while it is not zero. -/
  | loop (d c t : Nat) (w : W64)
  /-- BRANCH (R82): The thread branches when the condition holds on a signed counter. -/
  | branch (d c t : Nat) (w : W64)
  /-- FORK (R82): Another thread is started at an offset with zero counters, or SEQ_THREAD_BUSY is raised if it is running. -/
  | fork (d c t : Nat) (w : W64)
  /-- TILE_ADDR (R100): Writes BASE and STRIDE of a tile register. -/
  | tileAddr (d c t : Nat) (w : W64)
  /-- TILE_SHAPE (R100): Writes ROWS, COLS and FMT of a tile register and resets its tensor, origin and scale plane. -/
  | tileShape (d c t : Nat) (w : W64)
  /-- TILE_SCALE (R100): Writes the scale plane of a tile register and marks it set. -/
  | tileScale (d c t : Nat) (w : W64)
  /-- TILE_TENSOR (R100): Writes TENSOR_ID of a tile register. -/
  | tileTensor (d c t : Nat) (w : W64)
  /-- TILE_ORIGIN (R100): Writes ROW_ORG and COL_ORG of a tile register. -/
  | tileOrigin (d c t : Nat) (w : W64)
  /-- MODE (R112): Requests a gang mode; the core issues no other array command until it takes effect. -/
  | mode (d c t : Nat) (w : W64)
  /-- MODE_TAKE_EFFECT (R112): A pending MODE takes effect once the arrays are idle and any die-wide rendezvous is met. -/
  | modeTakeEffect (d c : Nat)
  /-- LOAD_W (R106): Checks and queues a weight load into the shadow register, binding a Skillet group where applicable. -/
  | loadW (d c t : Nat) (w : W64)
  /-- LOAD_W_START (R108): A queued LOAD_W begins writing shadow rows as bands become free of vectors using that register. -/
  | loadWStart (d a : Nat)
  /-- LOAD_W_COMPLETE (R103): A LOAD_W completes when its last shadow row or column part is written and its tag counts. -/
  | loadWComplete (d a : Nat)
  /-- FLIP (R109): Queues a swap of active and shadow registers in the stream queue. -/
  | flip (d c t : Nat) (w : W64)
  /-- FLIP_TAKE_EFFECT (R109): A FLIP takes effect at its place in the stream once the preceding load or TEE load has completed. -/
  | flipTakeEffect (d a : Nat)
  /-- MATMUL (R100): Checks and queues a matrix product streaming X through the array into Y. -/
  | matmul (d c t : Nat) (w : W64)
  /-- MATMUL_STREAM_START (R117): A queued MATMUL starts streaming vectors once at the queue head and any flip, leave, TEE or hazard wait is satisfied. -/
  | matmulStreamStart (d a : Nat)
  /-- MATMUL_COMPLETE (R103): A MATMUL completes when its last output row is written and accepted by the sieve, and its tag counts. -/
  | matmulComplete (d a : Nat) (stalls : List (Nat × Nat))
  /-- SET_PARAM (R143): Writes an FP32 value into a vector parameter register at issue. -/
  | setParam (d c t : Nat) (w : W64)
  /-- ADD (R149): Vector elementwise addition of A and B into Y. -/
  | add (d c t : Nat) (w : W64)
  /-- MUL (R149): Vector elementwise multiplication of A and B into Y. -/
  | mul (d c t : Nat) (w : W64)
  /-- FMA (R149): Vector fused multiply-add of A, B and C into Y. -/
  | fma (d c t : Nat) (w : W64)
  /-- AXPBY (R149): Vector scaled sum p0 x plus p1 b into Y. -/
  | axpby (d c t : Nat) (w : W64)
  /-- MAX (R149): Vector elementwise maximum of A and B into Y. -/
  | max (d c t : Nat) (w : W64)
  /-- CONVERT (R149): Vector conversion of A into Y's format by a narrowing write. -/
  | convert (d c t : Nat) (w : W64)
  /-- RELU (R149): Vector ReLU of A into Y. -/
  | relu (d c t : Nat) (w : W64)
  /-- GELU (R149): Vector GELU of A into Y. -/
  | gelu (d c t : Nat) (w : W64)
  /-- SILU (R149): Vector SiLU of A into Y. -/
  | silu (d c t : Nat) (w : W64)
  /-- SWIGLU (R149): Vector SwiGLU of A and B into Y. -/
  | swiglu (d c t : Nat) (w : W64)
  /-- RELU_BWD (R149): Vector ReLU derivative applied to gradient B. -/
  | reluBwd (d c t : Nat) (w : W64)
  /-- GELU_BWD (R149): Vector GELU derivative applied to gradient B. -/
  | geluBwd (d c t : Nat) (w : W64)
  /-- SILU_BWD (R149): Vector SiLU derivative applied to gradient B. -/
  | siluBwd (d c t : Nat) (w : W64)
  /-- SWIGLU_BWD (R149): Vector SwiGLU derivatives written into Y and Z. -/
  | swigluBwd (d c t : Nat) (w : W64)
  /-- ROW_SUM (R149): Vector row sum of A by the fixed tree into Y. -/
  | rowSum (d c t : Nat) (w : W64)
  /-- ROW_MAX (R149): Vector row maximum of A into Y. -/
  | rowMax (d c t : Nat) (w : W64)
  /-- ROW_SUMSQ (R149): Vector row sum of squares of A into Y. -/
  | rowSumsq (d c t : Nat) (w : W64)
  /-- COL_SUM_ACC (R149): Vector column accumulation of A into Y in place, rows ascending. -/
  | colSumAcc (d c t : Nat) (w : W64)
  /-- ROW_ARGMAX (R149): Vector lowest column index of each row maximum, a V2 operation. -/
  | rowArgmax (d c t : Nat) (w : W64)
  /-- COL_DOT_ACC (R149): Vector column dot-product accumulation of A and B into Y in place. -/
  | colDotAcc (d c t : Nat) (w : W64)
  /-- LAYERNORM (R149): Vector layer normalisation into Y with statistics into Z. -/
  | layernorm (d c t : Nat) (w : W64)
  /-- RMSNORM (R149): Vector RMS normalisation into Y with statistics into Z. -/
  | rmsnorm (d c t : Nat) (w : W64)
  /-- LAYERNORM_BWD (R149): Vector layer-norm input gradient from x, dy, gain and statistics. -/
  | layernormBwd (d c t : Nat) (w : W64)
  /-- RMSNORM_BWD (R149): Vector RMS-norm input gradient from x, dy, gain and statistics. -/
  | rmsnormBwd (d c t : Nat) (w : W64)
  /-- SOFTMAX (R149): Vector scaled, optionally causal softmax into Y with statistics into Z. -/
  | softmax (d c t : Nat) (w : W64)
  /-- SOFTMAX_BWD (R149): Vector softmax logit gradient from x, dy and statistics. -/
  | softmaxBwd (d c t : Nat) (w : W64)
  /-- NORM_XHAT (R149): Vector normalised input from x and statistics. -/
  | normXhat (d c t : Nat) (w : W64)
  /-- SGD_MOM (R149): Vector SGD with momentum update of weights and momentum state. -/
  | sgdMom (d c t : Nat) (w : W64)
  /-- ADAMW (R149): Vector AdamW update of weights and both moment states. -/
  | adamw (d c t : Nat) (w : W64)
  /-- LION (R149): Vector Lion update of weights and momentum, a V2 operation. -/
  | lion (d c t : Nat) (w : W64)
  /-- ORTHO (R150): Vector modified Gram-Schmidt orthonormalisation of the vectors held in A. -/
  | ortho (d c t : Nat) (w : W64)
  /-- DIGEST_FEED (R149): Passes tile A to the sieve and writes nothing. -/
  | digestFeed (d c t : Nat) (w : W64)
  /-- VEC_COMMAND_START (R141): The vector unit starts its next queued command after the previous command's last write is accepted. -/
  | vecCommandStart (d c : Nat)
  /-- VEC_COMMAND_COMPLETE (R152): A vector command completes when its last write is accepted by the pantry and sieve, and its tag counts. -/
  | vecCommandComplete (d c : Nat)
  /-- LDL_RUN (R198): Queues a run of descriptors on a ladle channel, capturing a counter value as v. -/
  | ldlRun (d c t : Nat) (w : W64)
  /-- LDL_DESC_FETCH (R197): A ladle channel's fetch-ahead of a descriptor completes and is verified, or is held as failed. -/
  | ldlDescFetch (d ch : Nat)
  /-- COPY (R201): A COPY descriptor at the head of its channel is checked and then copies its strided walk of bytes. -/
  | copy (d ch : Nat)
  /-- FILL (R201): A FILL descriptor at the head of its channel is checked and then writes its pattern over its walk. -/
  | fill (d ch : Nat)
  /-- GATHER (R196): A GATHER descriptor at the head of its channel copies one larder table row per index into the pantry. -/
  | gather (d ch : Nat)
  /-- LDL_DESC_COMPLETE (R204): A descriptor completes when all its writes are accepted; the last of a run completes the LDL_RUN and counts its tag. -/
  | ldlDescComplete (d ch : Nat)
  /-- KILN_WRITE (R191): The kiln writes a block and its tag, merging partial writes after verifying the old block and waiting for busy blocks. -/
  | kilnWrite (d : Nat) (larder : Bool)
  /-- GLAZE_BLOCK_READ (R193): A consumer's read of a block and tag completes; a mismatch triggers a re-read and a third failure raises GLAZE_FAULT. -/
  | glazeBlockRead (d : Nat) (u : Consumer) (addr : Nat) (upset : Option (Nat × Byte))
  /-- GATHER_GRANULE_READ (R195): A granule read of a GATHER region completes and is checked by CRC-16, re-read on mismatch or raising GATHER_FAULT. -/
  | gatherGranuleRead (d : Nat) (u : Consumer) (addr : Nat) (upset : Option (Nat × Byte))
  /-- PANTRY_READ (R180): A granted pantry read returns data, correcting single-bit errors and raising PAN_UNCORRECTABLE on an uncorrectable word. -/
  | pantryRead (d c addr flips : Nat)
  /-- QPL_ITEM_COMPLETE (R213): A partial item's last cell is written and it counts in the queue's DEPTH from the next cycle. -/
  | qplItemComplete (d q : Nat)
  /-- IDLE_TIMER_FIRE (R222): A queue's idle timer reaches IDLE_TO and wakes the consumer, raises QPL_IDLE or only counts. -/
  | idleTimerFire (d q : Nat)
  /-- FLUSH (R224): Writing 1 to FLUSH splices the queue's whole chain onto the free list, discarding complete and partial items. -/
  | flush (d q : Nat)
  /-- PAIR_GO_DARK (R244): A port not RUN, open presence contact, inactive site, unfed port or LASER_OFF closes the pair's gate and puts it DARK. -/
  | pairGoDark (d p : Nat)
  /-- PAIR_ENTER_SAFE (R244): When every darkening condition clears, the pair sets its CALL phase and enters SAFE. -/
  | pairEnterSafe (d p callPhase : Nat)
  /-- CALL (R248): At its CALL time a SAFE pair emits steady light at SAFE for 2 ms, once per second. -/
  | call (d p : Nat)
  /-- LIGHT_PRESENT (R244): The tap reads light for 100 µs and a SAFE pair emits ANSWER keying. -/
  | lightPresent (d p : Nat)
  /-- ANSWER_HEARD (R244): ANSWER heard while emitting, or FULL heard after its own ANSWER, opens the gate and starts training. -/
  | answerHeard (d p : Nat) (full : Bool)
  /-- TRAINING_COMPLETE (R245): Link training finishes with accepted lane maps and the pair enters RUN with fresh sequence numbers. -/
  | trainingComplete (d p txMap rxMap : Nat)
  /-- TRAINING_TIMEOUT (R244): After 50 ms in LIGHT without training complete the gate closes, TRAIN_FAILS counts and the pair returns to SAFE. -/
  | trainingTimeout (d p : Nat)
  /-- LOSS_OF_LIGHT (R244): The tap reads below −20 dBm for 50 µs; the gate closes and the pair returns to SAFE, raising LINK_LOST from RUN. -/
  | lossOfLight (d p : Nat)
  /-- LINK_REPLAY_EXHAUSTED (R244): Eight replays without ack progress discard the replay buffer and return the pair to LIGHT. -/
  | linkReplayExhausted (d p : Nat)
  /-- PAUSE_START (R244): At the tick of an agreed PAUSE_TURN the pair stops data flits and enters PAUSED. -/
  | pauseStart (d p : Nat)
  /-- PAUSE_END (R244): At the tick of PAUSE_TURN + PAUSE_LEN the pair resumes data flits with its sequence numbers kept. -/
  | pauseEnd (d p : Nat)
  /-- PRESENCE_CHANGE (R232): A port's presence contact opens or closes, holding every gate of the port CLOSED while open. -/
  | presenceChange (port : Nat) (closed : Bool)
  /-- FLIT_SEND (R241): The sender sends a flit with the next sequence number and keeps it for replay, or idles when the buffer is full. -/
  | flitSend (d p : Nat)
  /-- FLIT_RECEIVE (R241): The receiver checks a flit's CRC and codewords, delivers it in order or sends a NAK, and takes returned credits. -/
  | flitReceive (d p : Nat) (flit : Bytes) (corrected uncorrectable : Nat)
  /-- IDLE_FRAME_RECEIVE (R240): A received idle frame frees acknowledged flits, starts replays on NAK, and carries beacons, pauses, lane changes and hellos. -/
  | idleFrameReceive (d p : Nat) (frame : Bytes) (stamp : Nat)
  /-- REPLAY_TIMEOUT (R241): After 16 µs without ack progress the sender replays its kept flits from the oldest. -/
  | replayTimeout (d p : Nat)
  /-- NAK_RESEND (R241): A receiver discarding for 16 µs without a replay frame sends its NAK again. -/
  | nakResend (d p : Nat)
  /-- LANE_MAP_CHANGE (R247): At the first codeword-group boundary after the tick of LANE_TURN both ends apply the announced lane map. -/
  | laneMapChange (d p : Nat) (rx : Bool)
  /-- LANE_DROP (R247): A lane whose error ratio stays above threshold for 1,000 turns is dropped at the receiver's request. -/
  | laneDrop (d p lane : Nat)
  /-- SWITCHOVER_WINDOW_CHECK (R252): At the tick of T − 2 the hearth confirms the quiet window if every pair answered, or cancels and proposes T + 16. -/
  | switchoverWindowCheck (port : Nat)
  /-- SOURCE_SWITCH (R252): The switch controller changes a port's laser source at its programmed time. -/
  | sourceSwitch (port : Nat)
  /-- SOURCE_SWITCH_DONE (R253): A source change completes, the old source goes FAILED and the hearth restores the port's full lane map. -/
  | sourceSwitchDone (port : Nat)
  /-- LSM_INSERT (R253): A laser source module is inserted into a bay and enters QUALIFY. -/
  | lsmInsert (bay : Nat) (l1h : Bool)
  /-- LSM_QUALIFIED (R253): After 1 s with matching type and every wavelength within 0.5 dB, a QUALIFY bay becomes STANDBY and may take a port back. -/
  | lsmQualified (bay : Nat)
  /-- LSM_FAILED (R254): Bay presence loss or an internal fault makes the source Failed and the port switches to a free spare at once. -/
  | lsmFailed (bay : Nat) (pulled : Bool)
  /-- SERVICE_BUTTON_PRESS (R492): A debounced bay service button press moves a fed port to a spare and turns the bay OFF, or is refused. -/
  | serviceButtonPress (bay : Nat)
  /-- PACKET_INJECT (R275): The fabric interface stamps a unit's packet from the rank table and epoch and injects it, or raises FAB_RANK_INVALID. -/
  | packetInject (d cls : Nat)
  /-- PACKET_FORWARD (R282): A module routes an arriving packet by dimension order, gateways and mesh legs, or drops it as unroutable or aged. -/
  | packetForward (d : Nat)
  /-- PACKET_EJECT (R276): At its destination module a packet is checked for job, epoch and source rank and delivered or dropped. -/
  | packetEject (d : Nat)
  /-- BOUNCE (R285): A received BOUNCE makes the source die exclude the gateway entry or intermediate group. -/
  | bounce (d : Nat)
  /-- GATEWAY_EXCLUSION_EXPIRY (R285): An EXCLUDED gateway or intermediate group returns to use after 65,536 turns. -/
  | gatewayExclusionExpiry (d g : Nat)
  /-- RANK_TABLE_SWITCH (R274): At the tick of turn T an accepted rank table replaces the previous one in every ACTIVE die. -/
  | rankTableSwitch
  /-- RATE_STEP (R297): Every 1 µs the injection limit RATE halves while the REQ queue is above T2_HI or doubles after it falls below T2_LO. -/
  | rateStep (d : Nat)
  /-- RA_LO (R302): Sets bits 31:0 of an address register. -/
  | raLo (d c t : Nat) (w : W64)
  /-- RA_HI (R302): Sets bits 63:32 of an address register. -/
  | raHi (d c t : Nat) (w : W64)
  /-- RA_ADD (R302): Adds a signed addend to bits 39:0 of an address register. -/
  | raAdd (d c t : Nat) (w : W64)
  /-- LOAD (R305): Sends a remote load request and holds the thread until all bytes are in the pantry. -/
  | load (d c t : Nat) (w : W64)
  /-- STORE (R306): Sends a remote store, or a flag store, as sequenced packets. -/
  | store (d c t : Nat) (w : W64)
  /-- ATOMIC (R322): Sends a remote atomic with a fresh OPID and holds the thread until the old value is written. -/
  | atomic (d c t : Nat) (w : W64)
  /-- SEND (R324): Sends bytes from the pantry as one item to a remote or local queue. -/
  | send (d c t : Nat) (w : W64)
  /-- TAKE (R325): Takes the head item of an own queue into the pantry, waiting while the queue is empty. -/
  | take (d c t : Nat) (w : W64)
  /-- FENCE (R321): Holds the thread until no STORE, SEND or ATOMIC of the core is outstanding to the target or to any target. -/
  | fence (d c t : Nat) (w : W64)
  /-- FENCE_COMPLETE (R321): A waiting fence completes when the last covered acknowledgement arrives. -/
  | fenceComplete (d c t : Nat)
  /-- LOAD_PACKET (R312): A target receives a LOAD request, checks it and serves DATA from memory. -/
  | loadPacket (d : Nat)
  /-- STORE_PACKET (R312): A target applies a STORE once, holds a flag store until its count is reached, and acknowledges. -/
  | storePacket (d : Nat)
  /-- ATOMIC_PACKET (R323): A target applies an atomic once, keeps its result in the replay window, and answers RESULT. -/
  | atomicPacket (d : Nat)
  /-- SEND_PACKET (R324): A target admits or continues a message item and writes a SEND part into its cells. -/
  | sendPacket (d : Nat)
  /-- BLOCK_READ (R316): A target returns a whole block with its tag and stamp unverified for the requesting ladle. -/
  | blockRead (d : Nat)
  /-- ACK (R313): A source receives an ACK and records the outcome of the outstanding request. -/
  | ack (d : Nat)
  /-- DATA (R314): A source receives loaded bytes and writes them to the pantry once. -/
  | data (d : Nat)
  /-- RESULT (R313): A source receives an atomic's old value and writes it to the operand block. -/
  | result (d : Nat)
  /-- BUSY (R313): A source receives BUSY and resets the request's timers so it retransmits 20 µs later. -/
  | busy (d : Nat)
  /-- RETRANSMIT_TIMEOUT (R313): A request without response for 20 µs is injected again with a fresh timestamp and epoch. -/
  | retransmitTimeout (d req : Nat)
  /-- TARGET_LOST (R313): A request without response for 64 µs stops retransmitting, stays outstanding and raises TARGET_LOST. -/
  | targetLost (d req : Nat)
  /-- SOURCE_SESSION_RELEASE (R309): A source session idle for 140 turns with nothing outstanding is released. -/
  | sourceSessionRelease (d key : Nat)
  /-- TARGET_SESSION_EXPIRY (R310): A target session entry with no request from its source for 128 turns expires. -/
  | targetSessionExpiry (d key : Nat)
  /-- SESSION_QUIET_END (R328): 140 turns after a die or panel warm reset the die resumes sending and answering remote requests. -/
  | sessionQuietEnd (d : Nat)
  /-- WSK_OPEN (R343): Opens the next instance of a bucket, zeroing counter and monitor and copying optimizer parameters. -/
  | wskOpen (d c t : Nat) (w : W64)
  /-- WSK_FIRE (R343): Fires the open FILLING instance of a bucket at once. -/
  | wskFire (d c t : Nat) (w : W64)
  /-- WSK_JOIN (R362): Waits for the last instance opened to be released, or in eager mode for its first output chunks. -/
  | wskJoin (d c t : Nat) (w : W64)
  /-- BUCKET_FIRE (R344): A COUNT bucket's byte counter reaches SIZE and the instance fires, sending PRELUDE_UP. -/
  | bucketFire (d b : Nat)
  /-- PRELUDE_UP (R348): A member receives a child's digest and exponent bytes, checks the digest and passes the maximum up the member tree. -/
  | preludeUp (d : Nat)
  /-- PRELUDE_DOWN (R348): A member receives the agreed bytes and named slot, records them and becomes READY. -/
  | preludeDown (d : Nat)
  /-- SLOT_CHECK (R351): At the tick of a candidate slot the root checks the up-sweep and moves a missed instance per R86. -/
  | slotCheck (d b : Nat)
  /-- DATA_PHASE_START (R352): A READY member with the slot, the prelude, leave and a free context reserves buffers and sends CREDIT. -/
  | dataPhaseStart (d b : Nat)
  /-- CREDIT (R358): A member receives chunk buffer credits from the member it sends to. -/
  | credit (d : Nat)
  /-- CHUNK_SEND (R358): A member with enough credits sends a chunk as packets and holds it until acknowledged. -/
  | chunkSend (d b : Nat)
  /-- CHUNK_DATA (R358): A member receives chunk packets, verifies the tag on the last, consumes the chunk and acknowledges, or asks for a re-send. -/
  | chunkData (d : Nat)
  /-- CHUNK_ACK (R357): A sender receives CHUNK_ACK and frees the chunk's hold buffer. -/
  | chunkAck (d : Nat)
  /-- RESEND (R358): A sender receives RESEND and sends the chunk again from its hold buffer under the requested attempt. -/
  | resend (d : Nat)
  /-- CHUNK_TIMEOUT (R358): A chunk still incomplete 20 µs after its first packet makes the receiver send RESEND or abort after attempt 2. -/
  | chunkTimeout (d b key : Nat)
  /-- AGREE_UP (R361): A member receives a child's AGREE_UP and passes it up once its own work and every child are done. -/
  | agreeUp (d : Nat)
  /-- RELEASE (R361): A member receives RELEASE for point A and runs the optimizer and gather, or for point B completes the instance and WSK_JOIN. -/
  | release (d : Nat)
  /-- ABORT (R363): A member receives ABORT, stops sending and granting credit, and forwards each distinct code once. -/
  | abort (d : Nat)
  /-- CACK (R357): A sender receives CACK and stops repeating the acknowledged control packet. -/
  | cack (d : Nat)
  /-- CTL_REPEAT_TIMEOUT (R357): A reliable whisk control packet without CACK for 20 µs is sent again. -/
  | ctlRepeatTimeout (d b key : Nat)
  /-- COLL_TIMEOUT (R363): A member's collective timer reaches TIMEOUT turns and the member aborts the instance. -/
  | collTimeout (d b : Nat)
  /-- ABORT_RAISE (R363): Twenty-four turns after its first abort cause a member raises the lowest code it has seen and stops its course. -/
  | abortRaise (d b : Nat)
  /-- LEAVE_REQUEST (R373): A heavy command reaching the head of its queue presents a leave request of its cost on its ticket. -/
  | leaveRequest (d unit : Nat)
  /-- LEAVE_GRANT (R376): A waiting heavy request is granted from its ticket or headroom and its command starts. -/
  | leaveGrant (d : Nat)
  /-- RAMP_FALL (R380): After held leave stays below the ramp level for 1,024 cycles the ramp level falls to it. -/
  | rampFall (d : Nat)
  /-- LVE_BOOK (R381): Books a ticket of the next turn at a level in place of the plan's level. -/
  | lveBook (d c t : Nat) (w : W64)
  /-- LVE_RELEASE (R381): Returns a ticket's undrawn level in the current turn to headroom. -/
  | lveRelease (d c t : Nat) (w : W64)
  /-- BUDGET_RECOMPUTE (R382): Every 10 turns the hearth recomputes each die's budget from the power limit and busbar power. -/
  | budgetRecompute (busbar leave : Nat)
  /-- SENSOR_READING (R384): At the end of each 1 µs window every sensor produces a reading, checked for breakage and fed to the thermal loops. -/
  | sensorReading (d : Nat) (counts : List Nat)
  /-- SLOPE_HOLD_END (R394): Two milliseconds after the last reading meeting the slope condition, the slope hold ends. -/
  | slopeHoldEnd (d : Nat)
  /-- THERMAL_THROTTLE_STEP (R390): Every 10 turns in THROTTLE the duty steps down, up or holds according to Tmax. -/
  | thermalThrottleStep (d : Nat)
  /-- GRACE_TIMER_EXPIRY (R390): The 50 ms grace timer of a managed die ends and the die enters THROTTLE. -/
  | graceTimerExpiry (d : Nat)
  /-- HBM_TEMP_READ (R392): Once per millisecond the HBM controller reads each stack's temperature and the HBM loop sets D_HBM. -/
  | hbmTempRead (d : Nat) (t0 t1 : Int)
  /-- DIE_PWR_ON (R371): A hearth write to DIE_PWR_ON switches power domains of a die on or off. -/
  | diePwrOn (d v : Nat)
  /-- POWER_GOOD (R371): A switched-on domain reaches power-good and its registers take reset values. -/
  | powerGood (d dom : Nat)
  /-- THM_CFG (R390): A hearth write to THM_CFG changes MANAGED or the stack thresholds, ending a grace period when MANAGED clears. -/
  | thmCfg (d v : Nat)
  /-- FAB_FENCE (R460): A write to FAB_FENCE blocks or, when no job is valid, unblocks the egress of the die's own packets. -/
  | fabFence (d v : Nat)
  /-- REGISTER_WRITE (R15): A management-link write to a register with no behaviour of its own sets its fields per their access codes. -/
  | registerWrite (d off : Nat) (v : W64)
  /-- STATUS_GET (R423): Read command returning hearth registers by ID. -/
  | statusGet (h : Nat) (pl : Bytes)
  /-- SITE_MAP_GET (R42): Read command returning the live and pending site maps, PNL_SITE_SUMMARY and PNL_FEATURES. -/
  | siteMapGet (h : Nat) (pl : Bytes)
  /-- FABRIC_GET (R270): Read command returning the fabric registers and neighbour table. -/
  | fabricGet (h : Nat) (pl : Bytes)
  /-- HATCH_STATUS (R510): Read command returning a hatch's NEXT_SEQ, last notice and journal entry counts. -/
  | hatchStatus (h : Nat) (pl : Bytes)
  /-- ATTEST_GET (R452): Read command returning a saggar-signed attestation record, optionally with certificates. -/
  | attestGet (h : Nat) (pl : Bytes)
  /-- DIE_READ (R510): Read command returning words from a die's control window. -/
  | dieRead (h : Nat) (pl : Bytes)
  /-- JOB_OPEN (R425): Opens a job context, installing the job seed, menu key and hatch 1 to 14 keys. -/
  | jobOpen (h : Nat)
  /-- JOB_CLOSE (R425): Ends the job context after any teardown, deleting job state and keys and retiring the job hatches' journals. -/
  | jobClose (h : Nat)
  /-- TEARDOWN (R327): Aborts the job's menus, clears FAB_SELF.VALID, discards sessions and flushes the job's queues. -/
  | teardown (h : Nat)
  /-- EVICT (R459): Verifies a signed eviction notice and puts the module in FENCED. -/
  | evict (h : Nat)
  /-- FABRIC_PUT (R270): Writes FAB_MODULE, HRT_TURN_CFG, the gateway table and FAB_VIA_MASK as its mask selects. -/
  | fabricPut (h : Nat)
  /-- RANK_TABLE_PUT (R274): Receives a rank table in bulk pages, checks it and commits it for the effective turn. -/
  | rankTablePut (h : Nat)
  /-- SITE_MAP_PUT (R43): Checks and writes the whole pending site map. -/
  | siteMapPut (h : Nat)
  /-- POWER_LIMIT_SET (R382): Sets the panel power limit PNL_POWER.LIMIT. -/
  | powerLimitSet (h : Nat)
  /-- NOTICE_ROUTE (R430): Sets the hatch that receives notices of each group byte. -/
  | noticeRoute (h : Nat)
  /-- KAT_RUN (R458): Runs known-answer tests on the named dies REPEATS times and returns their records. -/
  | katRun (h : Nat)
  /-- RESET (R435): Checks and starts a die, port or panel warm reset. -/
  | reset (h : Nat)
  /-- FIRMWARE_PUT (R503): Writes a piece of a firmware image into a slot not booted. -/
  | firmwarePut (h : Nat)
  /-- FIRMWARE_ACTIVATE (R504): Verifies a slot, sets BOOT_SLOT and the compatibility level, and starts a panel warm reset. -/
  | firmwareActivate (h : Nat)
  /-- KEYS_PUT (R450): Verifies and installs a new key set, resetting NEXT_SEQ of hatches 0 and 15. -/
  | keysPut (h : Nat)
  /-- BULK_PUT (R419): Starts a bulk transfer of host pages into a die's memory through the kilns. -/
  | bulkPut (h : Nat)
  /-- BULK_GET (R419): Starts a bulk transfer of verified pages from a die's memory to the host. -/
  | bulkGet (h : Nat)
  /-- REGION_PUT (R186): Checks and installs region table entries on dies. -/
  | regionPut (h : Nat)
  /-- REGION_DELETE (R186): Removes named region entries one user at a time. -/
  | regionDelete (h : Nat)
  /-- MENU_LOAD (R507): Checks a staged menu package in order, installs its regions and copies its course words and descriptors. -/
  | menuLoad (h : Nat)
  /-- MENU_UNLOAD (R74): Unloads a LOADED menu and removes its region entries. -/
  | menuUnload (h : Nat)
  /-- LAUNCH (R508): Checks and launches a loaded menu for a start turn and round count, configuring its queues and resources. -/
  | launch (h : Nat)
  /-- COLL_PLAN_PUT (R335): Checks and registers a collective plan. -/
  | collPlanPut (h : Nat)
  /-- COLL_PLAN_DELETE (R335): Removes an unbound collective plan. -/
  | collPlanDelete (h : Nat)
  /-- QUEUE_FLUSH (R416): Flushes a named queue of a die, recording the accept index in LAST_FLUSH. -/
  | queueFlush (h : Nat)
  /-- COMMAND_ACCEPT (R410): The primary checks a sequenced command's SEQ, journals it in both hearths and replies ACCEPT, or rejects, holds or answers busy. -/
  | commandAccept (dg : Bytes)
  /-- COMMAND_EXECUTE_START (R415): A hatch's next accepted command starts once the previous has reached RUNNING or FINISHED and is marked EXECUTING. -/
  | commandExecuteStart (h : Nat)
  /-- BULK_DATA (R419): A received bulk page is written through the kiln or payload store and recorded for acknowledgement. -/
  | bulkData (dg : Bytes)
  /-- BULK_ACK (R419): A received bitmap of held pages makes the sender retransmit only missing pages. -/
  | bulkAck (dg : Bytes)
  /-- BULK_ACK_TIMER (R419): Every 1 ms while pages are missing the receiver sends a BULK_ACK. -/
  | bulkAckTimer (h : Nat)
  /-- BULK_ABANDONED (R419): A bulk transfer receiving no message for 1 s finishes with BULK_ABANDONED. -/
  | bulkAbandoned (h : Nat)
  /-- FINISH_REPEAT (R414): Every 64 ms the primary repeats FINISH replies of entries not yet retired by ACKED_SEQ. -/
  | finishRepeat
  /-- NOTICE_ACK (R430): A cumulative NOTICE_ACK frees the notices of its hatch up to its NOTICE_SEQ. -/
  | noticeAck (dg : Bytes)
  /-- NOTICE_RESEND (R430): Every 100 ms the primary resends unacknowledged notices. -/
  | noticeResend
  /-- LIFELINE_STATUS (R428): Lifeline read returning hearth state, power, coolant and per-site power and thermal states. -/
  | lifelineStatus (pl : Bytes)
  /-- JOURNAL_READ (R427): Lifeline read returning journal entries of a hatch. -/
  | journalRead (pl : Bytes)
  /-- LOG_DUMP (R427): Lifeline read returning 4 KiB of the event log. -/
  | logDump (pl : Bytes)
  /-- LASER_OFF (R427): Lifeline command that drops every laser output and closes every gate until the next cold reset. -/
  | laserOff (pl : Bytes)
  /-- PORT_OFF (R427): Lifeline command that sets a fabric port OFF and holds it there. -/
  | portOff (pl : Bytes)
  /-- DIE_POWER_OFF (R427): Lifeline command that powers a site's die down to always-on and stops its menus. -/
  | diePowerOff (pl : Bytes)
  /-- PANEL_RESET (R427): Lifeline command that sends its FINISH and then starts a panel warm reset. -/
  | panelReset (pl : Bytes)
  /-- POWER_DOWN (R427): Lifeline command that stops every menu and takes every die to always-on and every port OFF. -/
  | powerDown (pl : Bytes)
  /-- HEARTBEAT (R401): A hearth receives its partner's 1 ms heartbeat over the dedicated link. -/
  | heartbeat (k : Nat)
  /-- HEARTBEAT_LOSS (R402): Five consecutive missed heartbeats make the partner claim the bridge or the primary become SOLE. -/
  | heartbeatLoss (k : Nat)
  /-- FAIL_LINE (R402): A hearth's FAIL line rises, holding it DOWN and starting takeover or SOLE operation in its partner. -/
  | failLine (k : Nat)
  /-- FIRMWARE_WATCHDOG (R401): A hearth's firmware watchdog expires after 4 ms without service and its FAIL line rises. -/
  | firmwareWatchdog (k : Nat)
  /-- BRIDGE_CLAIM (R403): The port bridge grants a claim when the owner's FAIL is high or it has not refreshed for 3 ms. -/
  | bridgeClaim (k : Nat) (stale : Bool)
  /-- NEIGHBOUR_SOLICITATION (R404): The port bridge answers an IPv6 neighbour solicitation for the panel's address itself. -/
  | neighbourSolicitation
  /-- PTP_MESSAGE (R405): A PTP message on the HOST port updates the wall-clock time used for notices and logs. -/
  | ptpMessage (time : Nat)
  /-- KAT_CHECKPOINT (R456): After both cores finish a CKPT course and the die's units are idle, the known-answer test runs. -/
  | katCheckpoint (d : Nat)
  /-- KAT_DONE (R457): A known-answer test ends, its record is logged, and a repeated failure key declares the die hard-failed. -/
  | katDone (d failed : Nat) (tmax : Int) (duty leave : Nat)
  /-- ACCUMULATOR_CLOSE (R472): When a course has finished and its DIGEST commands completed, its sieve accumulators write records and free. -/
  | accumulatorClose (d c off : Nat)
  /-- CNT_READ (R477): Writes sampled counter values or port snapshots to the pantry, or raises CNT_READ_DENIED. -/
  | cntRead (d c t : Nat) (w : W64)
  /-- CNT_CTL (R477): Enables, disables or zeroes the counters in its mask. -/
  | cntCtl (d c t : Nat) (w : W64)
  /-- PORT_WINDOW_END (R480): At a tick whose turn is a multiple of W0 the port counts move to the snapshot registers and restart. -/
  | portWindowEnd (d : Nat)
  /-- SAMPLE_WINDOW_END (R481): At the end of each WT1 window the SAMPLE trace half records the core counters. -/
  | sampleWindowEnd (d : Nat)
  /-- SLOT_TIMER_FIRE (R482): A turn-slot timer fires at its turn and reference count and starts or stops a trace half. -/
  | slotTimerFire (d k : Nat)
  /-- SB_GP0_EDGE (R481): A rising edge on SB_GP0 claimed as trigger in starts a trace half. -/
  | sbGp0Edge
  /-- BUSBAR_DIP (R496): The busbar dips below 48 V for at most 5 ms; work continues and BUSBAR_OUT_OF_RANGE is raised. -/
  | busbarDip (mv : Nat)
  /-- BUSBAR_HIGH (R496): The busbar rises above 58 V within the high range; work continues and BUSBAR_OUT_OF_RANGE is raised. -/
  | busbarHigh (mv : Nat)
  /-- BUSBAR_LOSS (R496): The busbar falls below 40 V or below 48 V for over 5 ms, and every domain goes off as on removal. -/
  | busbarLoss (mv : Nat)
  /-- BUSBAR_OVERVOLTAGE (R496): The busbar stays above 59 V for 100 µs and the input is disconnected as a loss. -/
  | busbarOvervoltage (mv : Nat)
  /-- REFERENCE_CLOCK_RELEASE (R442): When the busbar is within range, the coolant flow is at least 15 L/min and the inlet at most 40 °C, the panel power controller releases the reference clock, starts every turn counter at 0 and releases both hearths. -/
  | referenceClockRelease (mv : Nat) (inlet outlet : Int) (flow : Nat)
  /-- BRING_UP_STEP_DONE (R441): The work of a bring-up step completes or fails: boot self-test, firmware verification, live-map read, die-to-die or memory PHY training, or journal replay, and the next step starts. -/
  | bringUpStepDone (ok0 ok1 : Bool) (failed : List (Nat × Nat))
  /-- TAKEOVER_COMPLETE (R402): A taking-over hearth finishes its journal scan, link takeover, lifeline records and replay, becomes SOLE, resumes Gwyntu service and raises HEARTH_FAILOVER. -/
  | takeoverComplete (k : Nat)
  /-- RELOCK_COMPLETE (R246): After light returns from a quiet window or a source switch, a receiver relocks its rings, clock recovery and codewords, and idle frames resume. -/
  | relockComplete (d p : Nat) (inWindow : Bool)
  /-- CALL_END (R248): The 2 ms of steady light at SAFE that a CALL emits ends, and the pair stops emitting until its next CALL or an ANSWER. -/
  | callEnd (d p : Nat)
  /-- HOST_LINK_CHANGE (R258): The 800GBASE-DR8 link of the HOST port comes up or fails, which sets or clears bit 0 of OPT_PORT8.LIT and leaves the module reachable only through the sideband when the link is down. -/
  | hostLinkChange (up : Bool)
  deriving DecidableEq, Repr

end Sys2Proof
end

