-- ==== Sys2Proof/Decode.lean ====
section
/-! DEFINITION. Words of spec/opcode_table.json. No row of the table gives a command any bits, so no word spells a
command: every word is refused. -/
namespace Sys2Proof

/-- The command that the low `nbits` bits of `w` spell by the table: none, since the table gives no row bits. -/
def decodeTableWord (_nbits _w : Nat) : Option Instr := none

end Sys2Proof
end

