-- ==== Sys2Proof/Config.lean ====
section
/-! DEFINITION. What an implementation fixes and what the spec leaves open: constants without a body, so that no
proof can rest on a value (log 5, log 13, log 14). -/
namespace Sys2Proof

/-- The core clock within a turn at which something happened (R481): the model keeps no clock inside a turn
(log 3), so the value is free. -/
opaque Config.freeCycle : Nat → Nat
/-- The reference clocks elapsed in the turn (REF_COUNT, R58): free for the same reason. -/
opaque Config.freeRefCount : Nat → Nat
/-- What a level or edge event of R475 that the model's steps do not time adds to a counter in a turn. -/
opaque Config.freeCount : Nat → Nat
/-- Which of its free cells a hearth's pool takes (R212, R227): by queue and item, and place in the item. -/
opaque Config.hearthCell : Nat → Nat → Nat
/-- Whether two errors of one turn came in one cycle (R462): the model keeps no clock inside a turn. -/
opaque Config.sameCycle : Nat → Bool
/-- Which of the free cells the pool takes (R212): by free number and place in the item. -/
opaque Config.freeCell : Nat → Nat → Nat
/-- How far the ramp level has come toward the granted costs when it is read within a turn (R380). -/
opaque Config.freeRamp : Nat → Nat
/-- Which of the costs that a heavy command of a known-answer test can have in its unit one has (R456). -/
opaque Config.freeKatCost : Nat → Nat
/-- Which contexts of the whisk the instances of these buckets (as a mask) hold (WSK_STATUS.CTX_BUSY, R367). -/
opaque Config.freeContexts : Nat → Nat
/-- When the far end stamped the arrival of this end's last beacon (t2 of R60), in 1/64 reference clock of the far end's own
count, relative to the start of the turn in which its answer arrived: no beacon carries it, so it is free (log 63). -/
opaque Config.farStamp : Nat → Int
/-- Whether the unit had handed a later block of the same write to the kiln when a merge failed (R191, log 19). -/
opaque Config.freeHanded : Nat → Bool
/-- How many of a copy's later pieces had been handed over when one of its blocks failed all its reads (R206, log 19). -/
opaque Config.freeLate : Nat → Nat
/-- Bits of a pantry word that an uncorrectable error changed (R180). -/
opaque Config.freeFlips : Nat → Nat
/-- Symbols corrected (0) and codewords not corrected (1) in the codewords that carried an idle frame (R259). -/
opaque Config.freeFec : Nat → Nat → Nat
/-- The phase that a pair's counter gives its next CALL as it falls back to SAFE (R248). -/
opaque Config.freePhase : Nat → Nat
/-- The lanes that a receiver accepts in a training, as a map (R245). -/
opaque Config.freeLanes : Nat → Nat
/-- Corrected (0) and uncorrected (1) events that an HBM stack reports with a read (R182). -/
opaque Config.freeEcc : Nat → Nat → Nat
/-- Whether a sensor reading that lies halfway between two sixteenths of a degree rounds up (R384 says only "to nearest"). -/
opaque Config.tieUp : Int → Bool
/-- A byte of the KAT area after a test, which holds no defined contents (R455): by free number and place in the bank. -/
opaque Config.freeByte : Nat → Nat → Byte
/-- Milliseconds that bring-up took (R461): the model keeps no clock (log 3). -/
opaque Config.freeMs : Nat → Nat
/-- The payload store page that a command's payload is put into (R413). -/
opaque Config.freePage : Nat → Nat
/-- exp of an FP32 argument where the model's bounded brackets do not decide the rounding (R147). -/
opaque Config.expFallback : Nat → Nat
/-- erf of an FP32 argument where the model's bounded brackets do not decide the rounding (R147). -/
opaque Config.erfFallback : Nat → Nat
/-- SM2 verification (GB/T 32918): public key, SM3 digest of the signed bytes, signature. -/
opaque Config.sm2Verify : Bytes → Bytes → Bytes → Bool
/-- SM2 signature of hearth k's saggar over an SM3 digest (R452): its private key leaves no chip. -/
opaque Config.sm2Sign : Nat → Bytes → Bytes
/-- SM2 decryption with the private key of hearth k's saggar (R449, R450); none when it fails. -/
opaque Config.sm2Decrypt : Nat → Bytes → Option Bytes
/-- X.509 certificate of hearth k's saggar key (R449). -/
opaque Config.certificate : Nat → Bytes
/-- Bytes 0 to 7 of the FABRIC_PUT image that FABRIC_GET returns: R422 gives the write mask no meaning in a reply. -/
opaque Config.maskImage : Nat
/-- The firmware image that manufacture put into slot A of both hearths (log 16). -/
opaque Config.factoryImage : Bytes

end Sys2Proof
end

