-- ==== Sys2Proof/Machine/MemTypes.lean ====
section
/-! DEFINITION. Plain data of the memories, the ladle (chapter 06) and the queue-cell pool (chapter 07) of one
die, and the origin of an issued command. -/
namespace Sys2Proof.Machine

/-- Where an issued command word came from: its core, thread, word index and course offset (for reports, R83,
R424), and its TAG and TICKET (R81). -/
structure Origin where
  core : Nat := 0
  thread : Nat := 0
  word : Nat := 0
  off : Nat := 0
  tag : Nat := 0
  ticket : Nat := 0
  deriving DecidableEq, Repr

/-- The origin of a command that still runs when a later LAUNCH comes: it names no core of the new run (its own core is `core` - 2),
so no tag counts, no digest is taken and no error is raised against that run (DESIGN CHOICE, log 70). -/
def Origin.orphan (o : Origin) : Origin := { o with core := o.core % 2 + 2, tag := 0 }

/-- Memory contents: bytes by die-local address, addresses rising, no byte 0x00 listed (log 4). -/
abbrev Mem := List Host.Cell

/-- One entry of the region table (R185) with its count of users (R186). -/
structure Region where
  base : Nat := 0
  blocksM1 : Nat := 0
  valid : Bool := false
  frozen : Bool := false
  gather : Bool := false
  crcBase : Nat := 0
  tensor : Nat := 0
  users : Nat := 0
  deriving DecidableEq, Repr

/-- Who handed a write to a kiln (R191): a descriptor of a ladle channel, a whisk bucket, a remote request of a session, or
the sieve. The hearth's own writes are made at once by the command that makes them. -/
inductive KilnOwner where
  | ladle (ch key : Nat)
  | whisk (bucket chunk : Nat)
  | remote (session seq : Nat)
  | sieve
  deriving DecidableEq, Repr

/-- One write at a kiln: the pieces (offset, bytes) that go into one block (R191, R201). -/
structure KilnReq where
  owner : KilnOwner
  block : Nat
  pieces : List (Nat × Bytes)
  deriving DecidableEq, Repr

/-- A consumer's failed reads of a block or granule so far (R193, R195). -/
structure FailedRead where
  who : Consumer
  addr : Nat
  count : Nat
  deriving DecidableEq, Repr

/-- A run of descriptors in a channel's command queue (R197, R198): `fetched` descriptors have been fetched
and `doneN` have completed. -/
structure LdlRun where
  key : Nat := 0
  org : Origin := {}
  first : Nat := 0
  count : Nat := 1
  v : Int := 0
  fetched : Nat := 0
  doneN : Nat := 0
  deriving DecidableEq, Repr

/-- A fetched descriptor that waits in the channel's descriptor queue; one cell of queue `ch` holds its bytes. -/
structure LdlFetched where
  run : Nat := 0
  index : Nat := 0
  /-- The code that the fetch failed with, or 0 (R197). -/
  failCode : Nat := 0
  deriving DecidableEq, Repr

/-- The descriptor that a channel has taken as its head (R214): its entry and its 64 bytes. -/
structure LdlHead where
  entry : LdlFetched := {}
  desc : Bytes := []
  deriving DecidableEq, Repr

/-- A descriptor in progress: kiln writes and remote requests still outstanding. -/
structure LdlActive where
  key : Nat := 0
  run : Nat := 0
  index : Nat := 0
  org : Origin := {}
  desc : Bytes := []
  v : Int := 0
  kilnWrites : Nat := 0
  requests : Nat := 0
  /-- Remote blocks that have arrived and been verified, by their offset in the target's memory (R192). -/
  blocks : Tab Bytes := []
  /-- Runs of a copy from another die that have been handed over, by their place in the walk (R201, R206). -/
  handed : List Nat := []
  /-- Failed reads of remote blocks, by offset (R193). -/
  tries : Tab Nat := []
  /-- The walk has handed over every read and write. -/
  walked : Bool := false
  /-- The descriptor was stopped (R206): it completes without counting. -/
  stopped : Bool := false
  deriving DecidableEq, Repr

/-- One ladle channel (R197, R210). -/
structure Chan where
  cq : List LdlRun := []
  dq : List LdlFetched := []
  head : Option LdlHead := none
  active : List LdlActive := []
  curDesc : Nat := 0
  nextKey : Nat := 0
  deriving DecidableEq, Repr

/-- A partial item of a queue (R213): its producer stream, the numbers of its cells, and the bytes written so far. -/
structure QPart where
  key : Nat × Nat := (0, 0)
  cells : List Nat := []
  data : Bytes := []
  deriving DecidableEq, Repr

/-- An item whose last cell has been written (R212): the numbers of its cells, the last with END set, and its bytes. -/
structure QItem where
  cells : List Nat := []
  data : Bytes := []
  deriving DecidableEq, Repr

/-- One queue of a pool (R215, R216, R226). `items` are the complete items; `written` are those whose last cell has been
written and that count from the next cycle on (R213), in that order; `chain` is what the link store holds of the queue: the
numbers of its cells in the order of their links (R212). -/
structure Queue where
  enable : Bool := false
  consumer : Nat := 1
  maxItemM1 : Nat := 0
  max : Nat := 0
  minRes : Nat := 0
  idleTo : Nat := 0
  batch : Nat := 1
  idleAct : Nat := 0
  lastFlush : Nat := 0
  items : List QItem := []
  written : List QItem := []
  parts : List QPart := []
  chain : List Nat := []
  refused : Nat := 0
  flushedItems : Nat := 0
  flushedPartial : Nat := 0
  idleEvents : Nat := 0
  /-- The consumer has been signalled (R222). -/
  signalled : Bool := false
  /-- The idle timer has fired since the last take or since the queue last filled from empty (R222). -/
  fired : Bool := false
  deriving DecidableEq, Repr

/-- A ladle descriptor queue as every reset leaves it (R215, R226). -/
def Queue.ladleReset : Queue := { enable := true, max := 32, minRes := 32 }

/-- The queue-cell pool of a die (R212, R226). -/
structure Pool where
  queues : Tab Queue := [(0, Queue.ladleReset), (1, Queue.ladleReset), (2, Queue.ladleReset), (3, Queue.ladleReset)]
  exhausted : Nat := 0
  deriving DecidableEq, Repr

/-- The memories of a die and their registers (R173 to R195, R210). -/
structure MemUnit where
  cells : Mem := []
  /-- 64-bit pantry words that hold a single-bit error, by word number (R180). -/
  panSingle : List Nat := []
  /-- 64-bit pantry words that are uncorrectable, by word number (R180). -/
  panBad : List Nat := []
  regions : Tab Region := []
  fails : List FailedRead := []
  hbmKiln : List KilnReq := []
  larKiln : List KilnReq := []
  panCorrected : Nat := 0
  panUncorrectable : Nat := 0
  panLastBank : Nat := 0
  hbmCorrected : Tab Nat := []
  hbmUncorrected : Tab Nat := []
  /-- HBM PHYs that are trained: bit s for logical stack s. -/
  hbmTrained : Nat := 0
  larTrained : Bool := false
  selfRefresh : Bool := false
  gatherRows : Nat := 0
  deriving DecidableEq, Repr

/-- The ladle of a die (R197, R210). -/
structure Ladle where
  chans : Tab Chan := []
  /-- LDL_DESC_BASE.BASE: bits 39:12 of the descriptor table's first byte. -/
  descBase : Nat := 0
  descCount : Nat := 0
  rereads : Nat := 0
  faults : Nat := 0
  faultAddr : Nat := 0
  deriving DecidableEq, Repr

end Sys2Proof.Machine
end

