-- ==== Sys2Proof/Machine/SeqTypes.lean ====
section
/-! DEFINITION. Plain data of a core's sequencer (chapter 02, R76 to R87; address registers, R303). -/
namespace Sys2Proof.Machine

/-- What keeps a thread from being ready (R78, R305). -/
inductive Wait where
  | ready
  /-- WAIT_TAG: tag `k` must reach `n`. -/
  | tag (k n own : Nat)
  /-- WAIT_QUEUE: the queue's DEPTH must reach `depth`. -/
  | queue (q depth own : Nat)
  /-- An outstanding LOAD, ATOMIC or local atomic. -/
  | reply
  /-- TAKE on a queue: waits for an item, to be written at pantry address `pan`. -/
  | take (q pan cells own word : Nat)
  /-- FENCE toward one destination, or toward all. -/
  | fence (rank die : Nat) (all : Bool) (own : Nat)
  deriving DecidableEq, Repr

/-- One hardware thread (R76, R77, R79). -/
structure Thread where
  started : Bool := false
  pc : Nat := 0
  wait : Wait := .ready
  ctr : Tab Nat := []
  tags : Tab Nat := []
  deriving DecidableEq, Repr

/-- A course in the spare buffer (R76): its offset, its words, and, when its fetch failed, the address of the block that failed
all its reads (R193) and the code. -/
structure Fetched where
  off : Nat := 0
  words : List W64 := []
  failed : Option (Nat × Nat) := none
  deriving DecidableEq, Repr

/-- The sequencer of a core. `menu` is the MENU_ID of the menu that the core runs. -/
structure Seq where
  menu : Option Nat := none
  /-- Start turn S of that menu's run. -/
  start : Nat := 0
  /-- Turn offset of the course that runs, or of the next one to start. -/
  off : Nat := 0
  /-- Offsets whose checkpoint test has ended (R456): the course of offset `tested` may start. -/
  tested : Nat := 0
  running : Bool := false
  stopped : Bool := false
  words : List W64 := []
  next : Option Fetched := none
  threads : Tab Thread := []
  last : Nat := 15
  late : Bool := false
  lateTurns : Nat := 0
  maxLag : Nat := 0
  slotMoves : Nat := 0
  raddr : Tab Nat := []
  /-- The block of the last course fetch that raised GLAZE_FAULT or GATHER_FAULT (R193). -/
  faultBlock : Option Nat := none
  deriving DecidableEq, Repr

end Sys2Proof.Machine
end

