-- ==== Sys2Proof/Machine/FabTypes.lean ====
section
/-! DEFINITION. Plain data of a die's fabric interface (chapter 09) and remote access unit (chapter 10). -/
namespace Sys2Proof.Machine

/-- How a held packet came to its die: from a unit of the die, over a fibre pair (its queue and the kind of
its credit, R291, R292), or over the mesh. -/
inductive Arrival where
  | inject
  | pair (p v : Nat) (shared : Bool)
  | mesh (dir q : Nat) (shared : Bool)
  deriving DecidableEq, Repr

/-- Where a held packet leaves its module: the exit port (8 for ejection), the die it leaves at, the phase of
the next fibre link, and the site the mesh walk turns at while it is on LEG 0 of two legs (R288 to R290). -/
structure Route where
  exit : Nat := 8
  site : Nat := 0
  phase : Nat := 0
  via : Option Nat := none
  leg : Nat := 0
  deriving DecidableEq, Repr

/-- A packet in a buffer of a die. `port` is the port it arrived on, or 8 when it was injected in the module. -/
structure Held where
  pkt : Packet := {}
  from_ : Arrival := .inject
  port : Nat := 8
  route : Option Route := none
  deriving DecidableEq, Repr

/-- The injection window of one destination (R296); `used` numbers its last use. -/
structure Win where
  w : Nat := 0
  acked : Nat := 0
  recover : Nat := 0
  used : Nat := 0
  deriving DecidableEq, Repr

/-- Kinds of R308. -/
inductive ReqKind where
  | load | store | atomic | send | blockRead
  deriving DecidableEq, Repr

/-- The unit a request belongs to: a word of a thread, or a descriptor of a ladle channel. -/
inductive ReqOwner where
  | thread (org : Origin)
  | ladle (ch key : Nat) (org : Origin)
  deriving DecidableEq, Repr

/-- An outstanding request or one that waits for injection (R305, R309, R313). `cmd` groups the packets of one
command. The bytes of a STORE or SEND are read at `src` whenever the packet is formed (R305). -/
structure Req where
  id : Nat := 0
  cmd : Nat := 0
  owner : ReqOwner := .thread {}
  kind : ReqKind := .load
  rank : Nat := 0
  die : Nat := 0
  /-- Bits 43:0 of the target address: SPACE and OFFSET. -/
  addr : Nat := 0
  /-- Pantry or local source address of STORE and SEND, destination of LOAD, operand block of ATOMIC. -/
  src : Nat := 0
  len : Nat := 0
  flag : Bool := false
  count : Nat := 0
  part : Nat := 0
  msgLen : Nat := 0
  aop : Nat := 0
  wide : Bool := false
  opid : Nat := 0
  /-- Pieces of a fixed source (a FILL pattern) in place of `src`. -/
  fixed : Option Bytes := none
  /-- Source pieces of a ladle write: the bytes at these addresses, in order. -/
  seq : Nat := 0
  sent : Bool := false
  lost : Bool := false
  /-- It has its number: the parts of one SEND get theirs together (R324). -/
  numbered : Bool := false
  /-- A SEND that the queue refused as full at its last answer (R217). -/
  full : Bool := false
  /-- A SEND that is no longer retransmitted, because its course has stopped (R217). -/
  halted : Bool := false
  /-- Answered TARGET_RESET or REPLAY_EXPIRED: it stays outstanding until teardown (R323, R328). -/
  answered : Bool := false
  /-- Response bytes received so far, as (offset, bytes). -/
  got : List (Nat × Bytes) := []
  /-- Failed reads of a remote block (R193). -/
  tries : Nat := 0
  deriving DecidableEq, Repr

/-- What waits for injection: a request by its id, or a packet that another unit formed (destination rank and
die, class, transport, payload). -/
inductive Handoff where
  | req (id : Nat)
  | pkt (rank die cls : Nat) (trans payload : Bytes)
  deriving DecidableEq, Repr

/-- A source session (R309), keyed by 64 · rank + die. -/
structure SrcSession where
  next : Nat := 0
  storesSent : Nat := 0
  idle : Nat := 0
  zeroAcked : Bool := false
  deriving DecidableEq, Repr

/-- An open message of a target session (R324). -/
structure OpenMsg where
  seq0 : Nat := 0
  queue : Nat := 0
  len : Nat := 0
  parts : List Nat := []
  discarded : Bool := false
  deriving DecidableEq, Repr

/-- A target session (R310), keyed by 64 · rank + die. `applied` are the numbers at or above `base` that have
been applied; `progress` those whose application is under way (R330). -/
structure TgtSession where
  base : Nat := 0
  applied : List Nat := []
  progress : List Nat := []
  storesApplied : Nat := 0
  flags : List Packet := []
  replay : List (Nat × Nat × Bytes) := []
  msgs : List OpenMsg := []
  status : List (Nat × Nat) := []
  idle : Nat := 0
  deriving DecidableEq, Repr

/-- A STORE whose bytes wait in a kiln: the number of writes still to be made and the status so far. -/
structure StorePending where
  session : Nat := 0
  pkt : Packet := {}
  left : Nat := 0
  status : Nat := 0
  deriving DecidableEq, Repr

/-- The remote access unit of a die (R302 to R332). -/
structure Remote where
  src : Tab SrcSession := []
  reqs : List Req := []
  nextReq : Nat := 0
  opid : Nat := 0
  tgt : Tab TgtSession := []
  pendingStores : List StorePending := []
  rx : List Packet := []
  lostThisTurn : List Nat := []
  retx : Nat := 0
  duplicates : Nat := 0
  busySent : Nat := 0
  aged : Nat := 0
  faultAddr : Nat := 0
  faultCode : Nat := 0
  /-- The quiet period after a reset (R328): 0 when it is over, else one more than its turns left. -/
  quiet : Nat := 0
  deriving DecidableEq, Repr

/-- The fabric interface of a die (R275 to R299). -/
structure Fabric where
  selfValid : Bool := false
  job : Nat := 0
  rank : Nat := 0
  epoch : Nat := 0
  coordValid : Bool := false
  coord : Nat := 0x3F80
  present : Nat := 0
  ring : Nat := 0xFFFF
  markTh : Nat := 64
  nmMarks : Nat := 16
  nmDepth : Nat := 512
  wMax : Nat := 1024
  wInit : Nat := 64
  wMin : Nat := 4
  t2Hi : Nat := 1536
  t2Lo : Nat := 512
  rate : Nat := 16
  /-- The injection queue has fallen below T2_LO since the limit engaged: RATE doubles until it reaches 16 (R297). -/
  relaxing : Bool := false
  /-- New REQ packets that the units have handed over in this turn (R297). -/
  handed : Nat := 0
  arbCtl : Nat := 1
  arbCol : Nat := 4
  arbRsp : Nat := 2
  arbReq : Nat := 2
  stale : Nat := 0
  foreign : Nat := 0
  evictedSrc : Nat := 0
  unroutable : Nat := 0
  viaMask : Nat := 0
  /-- Groups excluded as intermediates, with the turns left (R285). -/
  viaExcluded : Tab Nat := []
  /-- Gateway entries as FAB_GWg holds them, EXCLUDED bits apart. -/
  gw : Tab Nat := []
  /-- EXCLUDED entries by 4 · g + e, with the turns left (R285). -/
  gwExcluded : Tab Nat := []
  ranks : Tab Nat := []
  fenced : Bool := false
  handoff : List Handoff := []
  held : List Held := []
  wins : Tab Win := []
  marks : Tab Nat := []
  /-- The intermediate group chosen last (R284); the spec gives no value after reset, and the model starts from 0 (DESIGN CHOICE,
  log 212). -/
  viaPtr : Nat := 0
  useCtr : Nat := 0
  /-- Round-robin places of R289, by exit port. -/
  exitRr : Tab Nat := []
  /-- Arbitration round of R293 per link: the class served and its packets left. -/
  arb : Tab (Nat × Nat) := []
  deriving DecidableEq, Repr

end Sys2Proof.Machine
end

