-- ==== Sys2Proof/Machine/PowerTypes.lean ====
section
/-! DEFINITION. Plain data of a die's leave controller, power domains and thermal block (chapter 12). Units of
the leave controller are numbered in the order of R376: 0 the whisk; for array a, 1 + 2a its stream queue and
2 + 2a its weight queue; 9 and 10 the vector units; 11 + ch the ladle channels. -/
namespace Sys2Proof.Machine

/-- A waiting heavy request (R373, R376). `turn` is the turn of its ticket; `lapsed` when it waits as a TICKET
0 request; `ticksWaited` counts the ticks since it was presented. -/
structure LvReq where
  unit : Nat := 0
  key : Nat := 0
  cost : Nat := 0
  ticket : Nat := 0
  turn : Nat := 0
  ticksWaited : Nat := 0
  deriving DecidableEq, Repr

/-- A grant held by a command (R376, R377): the parts drawn from a ticket of `turn` and from headroom. -/
structure LvGrant where
  unit : Nat := 0
  key : Nat := 0
  ticket : Nat := 0
  fromTicket : Nat := 0
  fromHead : Nat := 0
  turn : Nat := 0
  deriving DecidableEq, Repr

/-- The leave controller of a die (R373 to R381, R396). -/
structure Leave where
  next : Nat := 260
  cur : Nat := 260
  booked : Tab Nat := []
  undrawn : Tab Nat := []
  overrides : Tab Nat := []
  reqs : List LvReq := []
  grants : List LvGrant := []
  /-- Least and greatest level that the ramp can have reached (R380, log 152). -/
  ramp : Nat := 0
  rampCap : Nat := 0
  /-- Greatest level that it can have had at the last tick or fall. -/
  rampTick : Nat := 0
  /-- The granted costs have changed within this turn. -/
  moved : Bool := false
  trimmed : Nat := 0
  /-- A request has waited since WAIT_CYCLES was last cleared; the cycles themselves are free (log 3). -/
  waited : Bool := false
  deriving DecidableEq, Repr

/-- States of the junction loop (R390), in the coding of THM_STATUS. -/
inductive ThState where
  | normal | warning | grace | throttle | shutdown
  deriving DecidableEq, Repr

/-- What the thermal block keeps of one sensor (R384, R386, R394). A window of past readings is kept as the candidates for
its extreme, newest first, each with the number of its reading. -/
structure Sensor where
  reading : Int := 0
  flagged : Bool := false
  /-- Readings taken since the last reset. -/
  taken : Nat := 0
  /-- Readings in a row that have not changed (R386 rule 2). -/
  same : Nat := 0
  /-- Readings in a row that were outliers (R386 rule 3). -/
  outlier : Nat := 0
  /-- Readings in a row at or above 120 °C (R391). -/
  hot : Nat := 0
  /-- Candidates for the lowest reading of the last 250 µs (R394). -/
  low250 : List (Nat × Int) := []
  /-- Candidates for the lowest and the highest reading of the last second (R386 rule 2). -/
  low1s : List (Nat × Int) := []
  high1s : List (Nat × Int) := []
  deriving DecidableEq, Repr

/-- The thermal block of a die (R384 to R396). -/
structure Thermal where
  sensors : Tab Sensor := []
  tmax : Int := 0
  dThr : Nat := 16
  dHbm : Nat := 16
  slope : Bool := false
  state : ThState := .normal
  /-- Turn at which THROTTLE was entered (R390). -/
  throttleTurn : Nat := 0
  /-- Turn at which the HBM loop entered its throttle. -/
  hbmTurn : Nat := 0
  hbmState : ThState := .normal
  hbmTemp : Tab Int := []
  sensorsLost : Bool := false
  managed : Bool := true
  hbmThrottle : Nat := 95
  hbmWarn : Nat := 85
  slopeHolds : Nat := 0
  throttles : Nat := 0
  graceExpired : Nat := 0
  hbmThrottles : Nat := 0
  deriving DecidableEq, Repr

/-- Power domains of a die (R369, R371, R396); bit 29 is ALWAYS_ON. -/
structure Power where
  on : Nat := 0x20000000
  good : Nat := 0x20000000
  shutdown : Bool := false
  deriving DecidableEq, Repr

end Sys2Proof.Machine
end

