-- ==== Sys2Proof/Machine/OpticsTypes.lean ====
section
/-! DEFINITION. Plain data of the optical engines and their links (chapter 08), of the fabric ports and laser bays, and
of the turn time base (chapter 02). -/
namespace Sys2Proof.Machine

/-- States of a pair (R244), in the coding of OPT_PAIR_STATUS. -/
inductive PairState where
  | dark | safe | light | run | paused
  deriving DecidableEq, Repr

/-- What a pair in SAFE emits (R248). -/
inductive Emission where
  | none | call | answer
  deriving DecidableEq, Repr

/-- A flit kept until it is acknowledged (R241): its sequence number and contents. -/
structure KeptFlit where
  seq : Nat := 0
  link : LinkWord := {}
  body : Option Packet := none
  deriving DecidableEq, Repr

/-- A fibre pair of a die (R229, R241, R244, R247, R259, R292). -/
structure Pair where
  state : PairState := .dark
  light : Bool := false
  emission : Emission := .none
  /-- ANSWER has been emitted since the pair entered SAFE (event 5). -/
  answered : Bool := false
  callPhase : Nat := 0
  txLanes : Nat := 0
  rxLanes : Nat := 0
  txNext : Nat := 0
  kept : List KeptFlit := []
  /-- Place in `kept` of the next flit to send again, during a replay. -/
  resend : Option Nat := none
  expected : Nat := 0
  discarding : Bool := false
  skip : Nat := 0
  replays : Nat := 0
  /-- Data flits sent since the last idle frame (R241). -/
  sinceIdle : Nat := 0
  /-- Lane maps announced by this end, with their turns, oldest first (R247). -/
  txSet : List (Nat × Nat) := []
  /-- Lane maps announced by the far end. -/
  rxSet : List (Nat × Nat) := []
  /-- During training, the map that the far end asks this end to send on (R245). -/
  asked : Option Nat := none
  /-- Lane map that this receiver asks for. -/
  rxWant : Option Nat := none
  /-- During training, the map of the last good frame received: its sender's own final map (R245). -/
  trained : Option Nat := none
  /-- Quiet window that this end has asked for: its turn and length, and whether the far end has answered (R252). -/
  pause : Option (Nat × Nat) := none
  pauseMine : Bool := false
  pauseAgreed : Bool := false
  /-- Agreed quiet windows: turn, length, and whether the far end asked, so that its light is interrupted (R252, R255). -/
  windows : List (Nat × Nat × Bool) := []
  /-- The receiver has lost its lock to an interruption of the light and has not relocked (R246). -/
  unlocked : Bool := false
  trainFails : Nat := 0
  trainNoticed : Bool := false
  fecCorrected : Nat := 0
  fecUncorrectable : Nat := 0
  replayCount : Nat := 0
  safetyTrips : Nat := 0
  trainFailCount : Nat := 0
  linkLosts : Nat := 0
  /-- FAB_AREA of the last good idle frame and how many in a row carried it (R267). -/
  hello : Bytes := []
  helloRun : Nat := 0
  /-- The pair's hello: the FAB_AREA that four good idle frames in a row carried last (R267). -/
  named : Bytes := []
  /-- The pair faces another module or port than its port's neighbour (R267). -/
  mismatch : Bool := false
  /-- Credits in hand by queue, as the number already spent (R292). -/
  spent : Tab Nat := []
  sharedSpent : Nat := 0
  /-- Credits that wait to be returned to the far end. -/
  owe : Tab Nat := []
  oweShared : Nat := 0
  deriving DecidableEq, Repr

/-- A switchover of a port's source under way (R252). -/
structure Switchover where
  spare : Nat := 8
  turn : Nat := 0
  refusals : Nat := 0
  /-- The change is made without an agreed window. -/
  forced : Bool := false
  /-- The window stands: the controller has been programmed. -/
  stands : Bool := false
  /-- Asked for by the bay's service button, or a return to the own bay (the old source is not FAILED). -/
  keepOld : Bool := false
  service : Bool := false
  deriving DecidableEq, Repr

/-- A port of the faceplate (R243, R260, R269): 0 to 7 the fabric ports, 8 HOST. -/
structure Port where
  state : Nat := 0
  feed : Option Nat := none
  retired : Nat := 0
  contact : Bool := false
  /-- Held OFF by the lifeline (R427). -/
  held : Bool := false
  switching : Option Switchover := none
  noSpare : Bool := false
  /-- The feed is dark while the controller changes it. -/
  gap : Bool := false
  serial : Nat := 0
  farPort : Nat := 0
  farValid : Bool := false
  farCoord : Nat := 0x3F80
  farRing : Nat := 0xFFFF
  /-- 0 absent, 1 present, 2 cable mismatch, 3 coordinate conflict (R300). -/
  nbState : Nat := 0
  /-- The neighbour entry holds the hello of a pair that is lit. -/
  known : Bool := false
  /-- Sites of the port's lit pairs in the order in which they reached RUN (R267). -/
  runs : List Nat := []
  /-- The neighbour's PORT is not the opposite of the own (R267), or its coordinates disagree (R268). -/
  misPort : Bool := false
  conflict : Bool := false
  noticeTurn : Option Nat := none
  /-- HOST: the link is up, and the hearth has enabled it. -/
  up : Bool := false
  enabled : Bool := false
  deriving DecidableEq, Repr

/-- A laser bay (R250, R251, R260). `state` is coded as in LSM_STATUS. -/
structure Bay where
  /-- A module sits in the bay (its presence contact, R253). -/
  seated : Bool := false
  state : Nat := 0
  warn : Nat := 0
  low : Nat := 0
  /-- Averaged fade by wavelength, in 0.05 dB. -/
  fade : Tab Int := []
  /-- Readings of the last 64 turns by wavelength, newest first. -/
  history : Tab (List Int) := []
  /-- The type of the inserted module matches R250. -/
  typeOk : Bool := false
  /-- A press of the service button during a switchover waits for its end (R492). -/
  pressed : Bool := false
  /-- The turn in which a press of the button was last refused (R492). -/
  refused : Option Nat := none
  deriving DecidableEq, Repr

/-- The last beacon of a port (R60): what it carried (the stamp t3), the turn it came in and its arrival in 1/64 reference
clock (t4), the stamp t1 of the last beacon that this end had sent over the pair, and the number of the free value
that stands for its arrival t2 at the far end, which no field of a beacon carries (log 63). -/
structure Beacon where
  turn : Nat := 0
  phase : Nat := 0
  own : Option (Nat × Nat) := none
  far : Nat := 0
  hops : Nat := 0
  group : Nat := 0
  arrTurn : Nat := 0
  arrPhase : Nat := 0
  site : Nat := 0
  pair : Nat := 0
  deriving DecidableEq, Repr

/-- The turn discipline loop (R60 to R66). `state`: 0 FREE, 1 ACQUIRING, 2 LOCKED, 3 HOLDOVER. -/
structure TimeBase where
  role : Nat := 0
  rootPort : Nat := 0
  state : Nat := 0
  offset : Int := 0
  parent : Nat := 0
  /-- R61 or R62 has given a parent since the role was written. -/
  chosen : Bool := false
  hops : Nat := 0x1F
  beacons : Tab Beacon := []
  /-- TURN and PHASE of the last beacon sent over each pair, by 8 · site + pair (R60, R242). -/
  sent : Tab (Nat × Nat) := []
  /-- The last turn whose beacon the light did not let a pair send, by 8 · site + pair (R242). -/
  missed : Tab Nat := []
  good : Nat := 0
  silent : Nat := 0
  holdover : Nat := 0
  holdNoticed : Bool := false
  outside : Nat := 0
  misNoticed : Bool := false
  /-- Correction sent in this turn, and the one that the next tick applies, in 1/64 reference clock. -/
  corrSent : Int := 0
  corrNext : Int := 0
  /-- The last frequency correction, held in HOLDOVER. -/
  held : Int := 0
  deriving DecidableEq, Repr

/-- A rank table (R274) with its effective turn: words of rank entries by rank. -/
structure RankTable where
  job : Nat := 0
  rank : Nat := 0
  epoch : Nat := 0
  turn : Nat := 0
  table : Tab Nat := []
  deriving DecidableEq, Repr

/-- What the hearths hold for the fabric (R266 to R274, R300). -/
structure FabMod where
  origin : Bool := false
  coordValid : Bool := false
  coord : Nat := 0x3F80
  ring : Nat := 0xFFFF
  gw : Tab Nat := []
  viaMask : Nat := 0
  pendingTables : List RankTable := []
  inForce : Option RankTable := none
  /-- Turn of the last FAB_UNROUTABLE notice (R286). -/
  unroutTurn : Option Nat := none
  /-- Pairs of sites reported as split in this computation of the mesh routes (R290). -/
  split : List (Nat × Nat) := []
  deriving DecidableEq, Repr

end Sys2Proof.Machine
end

