-- ==== Sys2Proof/Machine/ComputeTypes.lean ====
section
/-! DEFINITION. Plain data of the arrays (chapters 03 and 05), the vector units (04), the sieve, the counters and
the trace memory (15) of a die. -/
namespace Sys2Proof.Machine

/-- A tile register (R97, R99). -/
structure Tile where
  base : Nat := 0
  stride : Nat := 0
  rows : Nat := 0
  cols : Nat := 0
  fmt : Nat := 0
  sbase : Nat := 0
  sstride : Nat := 0
  tensor : Nat := 0
  rowOrg : Nat := 0
  colOrg : Nat := 0
  addrSet : Bool := false
  shapeSet : Bool := false
  scaleSet : Bool := false
  deriving DecidableEq, Repr

/-- What an array queue entry does (R100). -/
inductive ArrOp where
  | loadW (tile : Tile) (t : Bool)
  /-- A load that a MATMUL with TEE = 1 placed in its partner's weight queue (R115). -/
  | teeLoad (tile : Tile)
  /-- `loads` is the number of loads issued to the array before the flip (R109). -/
  | flip (loads : Nat)
  | matmul (x y s : Tile) (xt seed acc tee digest sr sat : Bool)
  deriving DecidableEq, Repr

/-- An entry of a weight or stream queue: `lead` is the array that the command addresses, `arrays` those whose
queues it entered (R101, R110). `target` is the register that a load fills or that a MATMUL uses, B when true (R158). -/
structure ArrCmd where
  key : Nat := 0
  org : Origin := {}
  lead : Nat := 0
  arrays : List Nat := []
  gang : Nat := 0
  op : ArrOp := .flip 0
  target : Bool := false
  /-- Stream of a Skillet group (R162): 0 F, 1 B. -/
  stream : Nat := 0
  deriving DecidableEq, Repr

/-- A stationary register of an array (R89): its rows by reduction index, each a list of (element bits, scale
byte) by output column; the extents are the shape of the list. -/
structure WReg where
  fmt : Nat := 0
  rows : List (List (Nat × Nat)) := []
  deriving DecidableEq, Repr

/-- A MATMUL in flight with the stationary registers of its arrays as its vectors meet them (R109). -/
structure Flight where
  cmd : ArrCmd := {}
  regs : List WReg := []
  deriving DecidableEq, Repr

/-- One array (R89, R101, R123). -/
structure Arr where
  wq : List ArrCmd := []
  sq : List ArrCmd := []
  loading : Option ArrCmd := none
  flights : List Flight := []
  regA : WReg := {}
  regB : WReg := {}
  gen : Bool := false
  flips : Nat := 0
  shadowLoaded : Bool := false
  loadsIssued : Nat := 0
  loadsDone : Nat := 0
  /-- The register that follows from the flips issued so far (R158). -/
  issueGen : Bool := false
  recA : Option Nat := none
  recB : Option Nat := none
  satCount : Nat := 0
  feedStall : Nat := 0
  drainStall : Nat := 0
  deriving DecidableEq, Repr

/-- A Skillet stream of a core (R163, R165). -/
structure Stream where
  loads : Nat := 0
  flipped : Bool := false
  matmuls : Nat := 0
  /-- Array of the current group (0 or 1 within the core). -/
  array : Option Nat := none
  /-- Keys of the MATMULs of the current group. -/
  keys : List Nat := []
  deriving DecidableEq, Repr

/-- A Skillet group that is open (R165): its array within the core, its stream, the keys of its MATMULs once no more can
come, and whether the next LOAD_W of its stream has been issued. -/
structure Group where
  array : Nat := 0
  stream : Nat := 0
  keys : List Nat := []
  closed : Bool := false
  deriving DecidableEq, Repr

/-- A core's array control: gang mode, MODE that waits (its code, thread origin), and the Skillet arbiter
(R110, R112, R165, R168). -/
structure Gang where
  mode : Nat := 0
  pending : Option (Nat × Origin) := none
  streamF : Stream := {}
  streamB : Stream := {}
  openGroups : List Group := []
  fGroups : Nat := 0
  bGroups : Nat := 0
  crossings : Nat := 0
  hazardWaits : Nat := 0
  /-- MATMULs already counted as waiting per R166. -/
  hazardKeys : List Nat := []
  deriving DecidableEq, Repr

/-- A vector command with the tiles and parameters it copied at issue (R143). -/
structure VecCmd where
  key : Nat := 0
  org : Origin := {}
  op : Nat := 0
  a : Tile := {}
  b : Tile := {}
  c : Tile := {}
  y : Tile := {}
  z : Tile := {}
  ps : List Nat := []
  sr : Bool := false
  sat : Bool := false
  digest : Bool := false
  mask : Bool := false
  seg : Nat := 0
  /-- The whisk bucket that submitted the command (R360), in place of a course. -/
  bucket : Option Nat := none
  deriving DecidableEq, Repr

/-- A vector unit (R141, R154). -/
structure Vec where
  queue : List VecCmd := []
  running : Option VecCmd := none
  lastOp : Nat := 0
  satCount : Nat := 0
  params : Tab Nat := []
  /-- Submissions of the whisk that wait for the unit (R360). -/
  submitted : List VecCmd := []
  /-- The command that started last came from the whisk. -/
  lastWhisk : Bool := false
  deriving DecidableEq, Repr

/-- An accumulator of the sieve (R470, R471). -/
structure Acc where
  core : Nat := 0
  off : Nat := 0
  tensor : Nat := 0
  digest : Nat := 0
  pieces : Nat := 0
  deriving DecidableEq, Repr

/-- The sieve of a die (R469 to R473): accumulators, record buffer, and the digest ring in force. -/
structure Sieve where
  accs : List Acc := []
  records : List Bytes := []
  ringBase : Nat := 0
  ringBlocks : Nat := 0
  nextBlock : Nat := 0
  wraps : Nat := 0
  deriving DecidableEq, Repr

/-- One performance counter (R474). -/
structure Cnt where
  enable : Bool := false
  edge : Bool := false
  event : Nat := 0
  ovf : Bool := false
  count : Nat := 0
  /-- EDGE of CYCLES has counted its one edge since ENABLE became 1 (R476). -/
  seen : Bool := false
  deriving DecidableEq, Repr

/-- Running counts and last window of one pair (R480). -/
structure PortCnt where
  txFlits : Nat := 0
  rxFlits : Nat := 0
  txBytes : Nat := 0
  rxBytes : Nat := 0
  snapTxFlits : Nat := 0
  snapRxFlits : Nat := 0
  snapTxBytes : Nat := 0
  snapRxBytes : Nat := 0
  windows : Nat := 0
  endTurn : Nat := 0
  deriving DecidableEq, Repr

/-- A half of the trace memory (R481): its TRC_CFG image, its records by number, and its state. -/
structure Half where
  cfg : Nat := 0
  recs : Tab Bytes := []
  next : Nat := 0
  wrapped : Bool := false
  run : Bool := false
  frozen : Bool := false
  deriving DecidableEq, Repr

/-- A turn-slot timer (R482). -/
structure SlotTimer where
  turn : Nat := 0
  ref : Nat := 0
  armed : Bool := false
  deriving DecidableEq, Repr

/-- Counters, windows and trace of a die (R474 to R482). `cnts` is keyed by 16 · core + counter. -/
structure Observe where
  cnts : Tab Cnt := []
  w1 : Nat := 0
  w0 : Nat := 1024
  /-- The port window in force: W0 as it stood at the last tick that was a multiple of it (R480). -/
  wNow : Nat := 1024
  /-- A LAUNCH has set the counters up and the tick of its turn S has not come: nothing counts (R476). -/
  held : Bool := false
  ports : Tab PortCnt := []
  half0 : Half := {}
  half1 : Half := {}
  timers : Tab SlotTimer := []
  deriving DecidableEq, Repr

end Sys2Proof.Machine
end

