-- ==== Sys2Proof/Machine/WhiskTypes.lean ====
section
/-! DEFINITION. Plain data of a die's whisk (chapter 11). A peer of an instance is named by its member position. -/
namespace Sys2Proof.Machine

/-- Names one transfer of a chunk: the chunk, PHASE (1 reduction, 2 gather), STAGE (0 die, 1 rank), LEVEL and the
member position at the other end (R355). -/
structure ChunkId where
  chunk : Nat := 0
  phase : Nat := 1
  stage : Nat := 0
  level : Nat := 0
  peer : Nat := 0
  deriving DecidableEq, Repr

/-- A sent chunk in its hold buffers until CHUNK_ACK (R357, R358). -/
structure HoldChunk where
  id : ChunkId := {}
  attempt : Nat := 0
  data : Bytes := []
  deriving DecidableEq, Repr

/-- A chunk on its way in: the packets of the current attempt by index, and whether it has been verified and
waits for its turn in the order of additions (R347, R358). -/
structure RxChunk where
  id : ChunkId := {}
  attempt : Nat := 0
  pieces : Tab Bytes := []
  verified : Bool := false
  deriving DecidableEq, Repr

/-- A reliable control packet that waits for its CACK (R357). -/
structure CtlSent where
  peer : Nat := 0
  index : Nat := 0
  trans : Bytes := []
  payload : Bytes := []
  deriving DecidableEq, Repr

/-- What a member holds of one chunk: the FP32 bits of its partial sum, the children already added, and how far
the chunk has come (R347, R360). -/
structure ChunkWork where
  /-- Bits of the partial sum; empty until the own source has been read. -/
  acc : List Nat := []
  /-- Die-stage and rank-stage children already added, by distance. -/
  addedDie : List Nat := []
  addedRank : List Nat := []
  /-- The partial has been sent on in the reduction. -/
  sent : Bool := false
  /-- The final sum has been handed to the optimizer, or narrowed. -/
  final : Bool := false
  /-- STAGE buffer that the chunk occupies. -/
  stage : Option Nat := none
  /-- Output bytes in OUT_FMT, once they exist on this member. -/
  out : Bytes := []
  /-- The output has been written to DST, but for `kiln` writes that a kiln still holds. -/
  outDone : Bool := false
  kiln : Nat := 0
  /-- The optimizer on the chunk: 0 not submitted, 1 submitted, 2 the updated weights stand (R360). -/
  opt : Nat := 0
  /-- Peers that have been sent the output chunk. -/
  gathered : List Nat := []
  deriving DecidableEq, Repr

/-- A bucket binding (R337) with the 2,112 bytes of its plan (R334). -/
structure Bind where
  bucket : Nat := 0
  fire : Bool := false
  planId : Nat := 0
  size : Nat := 0
  src : Nat := 0
  dst : Nat := 0
  optW : Nat := 0
  optM : Nat := 0
  optV : Nat := 0
  stage : Nat := 0
  tensor : Nat := 0
  plan : Bytes := []
  deriving DecidableEq, Repr

/-- The last instance of a bucket (R353, R367). `state` is coded as in WSK_BUCKETb. -/
structure Inst where
  bind : Bind := {}
  number : Nat := 0
  state : Nat := 0
  count : Nat := 0
  monitor : Tab Nat := []
  params : List Nat := []
  ticket : Nat := 0
  org : Origin := {}
  opened : Bool := false
  fired : Bool := false
  /-- Turn from which the timer counts, and whether it runs (R361, R363). -/
  timerFrom : Nat := 0
  timerRuns : Bool := false
  /-- Children whose PRELUDE_UP has come in whole, and the maxima so far. -/
  heard : List Nat := []
  maxima : Tab Nat := []
  partUp : List (Nat × Nat) := []
  upSent : Bool := false
  /-- PRELUDE_DOWN: exponent bytes received and how many, the named slot and the moves. -/
  agreed : Tab Nat := []
  downParts : List Nat := []
  slotTurn : Nat := 0
  slot : Nat := 0
  moves : Nat := 0
  ready : Bool := false
  upComplete : Bool := false
  ctx : Bool := false
  agreeKids : List (Nat × Nat) := []
  sentA : Bool := false
  sentB : Bool := false
  relA : Bool := false
  relB : Bool := false
  work : Tab ChunkWork := []
  /-- Credits held toward each peer, and credits that each peer holds: granted, and their buffers not yet consumed (R358). -/
  credits : Tab Nat := []
  granted : Tab Nat := []
  /-- Receive and hold buffers reserved by the context of the data phase (R352). -/
  rxRes : Nat := 0
  holdRes : Nat := 0
  hold : List HoldChunk := []
  rx : List RxChunk := []
  ctlNext : Tab Nat := []
  ctlSent : List CtlSent := []
  ctlSeen : List (Nat × Nat) := []
  codes : List Nat := []
  abortTurn : Option Nat := none
  abortRaised : Bool := false
  phase : Nat := 0
  saturated : Bool := false
  /-- The hatch of its menu's notices (R430), and whether that menu has stopped (R363). -/
  hatch : Option Nat := none
  ended : Bool := false
  deriving DecidableEq, Repr

/-- A WSK_JOIN that has been issued and has not completed (R362): the bucket, the instance that was its last one, COUNT and the
command whose TAG counts. -/
structure Join where
  bucket : Nat := 0
  number : Nat := 0
  count : Nat := 0
  org : Origin := {}
  deriving DecidableEq, Repr

/-- The whisk of a die (R342, R367). -/
structure Whisk where
  /-- The last instance of each bucket by its number, from 0 to 63, and, by higher keys (the bucket plus a multiple of 64), aborted
  ones that were left behind with something still to do (R363, R364). -/
  insts : Tab Inst := []
  pending : List Packet := []
  joins : List Join := []
  done : Nat := 0
  sat : Nat := 0
  resends : Nat := 0
  aborts : Nat := 0
  abortCode : Nat := 0
  abortPlan : Nat := 0
  abortInstance : Nat := 0
  abortPhase : Nat := 0
  /-- Slots held by moved instances whose root is this die: turn, slot, bucket (R86, R351). -/
  movedSlots : List (Nat × Nat × Nat) := []
  deriving DecidableEq, Repr

end Sys2Proof.Machine
end

