-- ==== Sys2Proof/Machine/PanelTypes.lean ====
section
/-! DEFINITION. Plain data of the panel: site maps (chapter 01), turn time base and menus (02), hearths, hatches and
the journal (13), bring-up and faults (14). -/
namespace Sys2Proof.Machine

/-- States of a site (R41). -/
inductive SiteState where
  | active | spare | off | failed | incompat
  deriving DecidableEq, Repr

/-- An entry of a site map (R42). STEPPING is read from the fuses. -/
structure SiteEntry where
  state : SiteState := .active
  standsFor : Nat := 0x3F
  deriving DecidableEq, Repr

/-- The first error of a menu (R74, R424); 0xFF and all ones where nothing applies. -/
structure CourseErr where
  code : Nat := 0
  die : Nat := 0xFF
  core : Nat := 0xFF
  off : Nat := 0
  thread : Nat := 0xFF
  word : Nat := 0xFFFFFFFF
  /-- The turn in which it came (R462). -/
  turn : Nat := 0
  deriving DecidableEq, Repr

/-- States of a loaded menu (R74). -/
inductive MenuState where
  | loaded | launched | running
  deriving DecidableEq, Repr

/-- A loaded menu: its package (R67), the hatches of its MENU_LOAD and of its last accepted LAUNCH (R430), the LAUNCH entry that
runs it, and the run. -/
structure Menu where
  pkg : Bytes := []
  loadHatch : Nat := 0
  lastHatch : Option Nat := none
  launchHatch : Option Nat := none
  launchSeq : Nat := 0
  state : MenuState := .loaded
  s : Nat := 0
  n : Nat := 0
  err : Option CourseErr := none
  /-- Offsets finished by each core of the run, keyed by 2 · logical die + core (R75). -/
  finished : Tab Nat := []
  deriving DecidableEq, Repr

/-- The last lifeline record of hatch 0 (R426): its command with the payload, the result and the FINISH payload. -/
structure LifeRec where
  seq : Nat := 0
  opcode : Nat := 0
  code : Nat := 0
  done : Bool := true
  request : Bytes := []
  answer : Bytes := []
  deriving DecidableEq, Repr

/-- A hatch: its key, sequence numbers and outbound notices (R408 to R410, R415, R430). `notices` are the records kept
until acknowledged, the last `unsent` of them not yet sent, `dropped` counts those dropped since the last NOTICE_OVERFLOW;
`held` are the datagrams of commands that wait for their turn (R410). -/
structure Hatch where
  key : Option Nat := none
  nextSeq : Nat := 1
  stamp : Nat := 0
  ackedSeq : Nat := 0
  noticeSeq : Nat := 1
  notices : List Notice := []
  unsent : Nat := 0
  dropped : Nat := 0
  held : List (Nat × Bytes) := []
  /-- The command with the highest SEQ of the latest numbering that has FINISHED: its SEQ, its CODE and its ACCEPT_INDEX (R3,
  R432). -/
  finSeq : Nat := 0
  finCode : Nat := 0
  finIndex : Nat := 0
  /-- The last record of R426: hatch 0, and hatch 15 in ROM mode (R505). -/
  record : Option LifeRec := none
  deriving DecidableEq, Repr

/-- The open job context (R425). -/
structure Job where
  tag : Nat := 0
  counterRead : Bool := false
  seed : Nat := 0
  menuKey : Bytes := []
  deriving DecidableEq, Repr

/-- Roles of a hearth (R400), in the coding of HRT_STATE. -/
inductive Role where
  | primary | partner | sole | down
  deriving DecidableEq, Repr

/-- A flash slot (R503). A slot that no piece has been written to since manufacture holds the image of manufacture,
which is verified (log 16). -/
structure Slot where
  factory : Bool := false
  data : Bytes := []
  fill : Nat := 0
  deriving DecidableEq, Repr

/-- States of a journal entry (R413). -/
inductive EntryState where
  | accepted | executing | running | finished
  deriving DecidableEq, Repr

/-- A journal entry (R413). `answer` is the payload of its FINISH; for LAUNCH it is the OUTCOME of R424. -/
structure Entry where
  hatch : Nat := 0
  seq : Nat := 0
  state : EntryState := .accepted
  opcode : Nat := 0
  code : Nat := 0
  payload : Bytes := []
  page : Nat := 0xFFFF
  index : Nat := 0
  turn : Nat := 0
  digest : Bytes := []
  answer : Bytes := []
  deriving DecidableEq, Repr

/-- Kinds of transfer in pages (R419, R420). -/
inductive BulkKind where
  | put | get | ranks
  deriving DecidableEq, Repr

/-- A bulk transfer (R419, R420). `held` are the pages held by the receiver; `next` is the first page that a BULK_GET has
not sent; `recent` counts pages received since the last BULK_ACK; `data` holds the pages of a rank table. It waits
while eight transfers run. -/
structure Bulk where
  hatch : Nat := 0
  seq : Nat := 0
  kind : BulkKind := .put
  die : Nat := 0
  addr : Nat := 0
  pages : Nat := 0
  running : Bool := false
  held : List Nat := []
  next : Nat := 0
  recent : Nat := 0
  data : Tab Bytes := []
  deriving DecidableEq, Repr

/-- The objects that the MRAM of both hearths holds alike (R399, R400): journal and payloads, event log, site maps, region tables,
plans, rank tables, keys, hatch counters, and what else the state store keeps (R382, R424, R446, R457, R502). -/
structure Mram where
  journal : List Entry := []
  acceptIndex : Nat := 0
  log : List Notice := []
  logged : Nat := 0
  pendingMap : Tab SiteEntry := []
  served : Tab Nat := []
  regions : Tab (Tab Region) := []
  plans : Tab Bytes := []
  pendingTables : List RankTable := []
  inForce : Option RankTable := none
  ownerKey : Bytes := []
  fmKey : Bytes := []
  keyEpoch : Nat := 0
  hatches : Tab Hatch := []
  route : Tab Nat := []
  job : Option Job := none
  fenced : Bool := false
  menus : List Menu := []
  powerLimit : Nat := 20000
  bootSlot : Nat := 0
  clSet : Nat := 1
  katKeys : Tab (List Nat) := []
  deriving DecidableEq, Repr

/-- A hearth (R399 to R402, R446). `booted` is the slot it runs from. -/
structure Hearth where
  role : Role := .down
  /-- Its FAIL line is high (R401). -/
  fail : Bool := false
  missed : Nat := 0
  /-- Its self-test of step 2 has passed since the last reset. -/
  tested : Bool := false
  booted : Option Nat := none
  fellBack : Bool := false
  slots : Tab Slot := [(0, { factory := true })]
  sensors : Tab Sensor := []
  -- fuses of its sensors (R384, log 11)
  n25 : Tab Nat := []
  n105 : Tab Nat := []
  /-- Its sensors have reached 95 °C and not fallen below 90 °C since (R393). -/
  warm : Bool := false
  deriving DecidableEq, Repr

/-- A known-answer test in progress on a die (R454 to R458). `trigger`: 0 bring-up or die reset, 1 checkpoint,
2 KAT_RUN. -/
structure Kat where
  trigger : Nat := 0
  turn : Nat := 0
  budget : Nat := 0
  off : Nat := 0
  deriving DecidableEq, Repr

/-- A KAT_RUN that executes (R458): its logical dies, the repeats left, and the records so far. -/
structure KatRun where
  hatch : Nat := 0
  dies : List Nat := []
  left : Nat := 0
  round : Tab Bytes := []
  records : List Bytes := []
  failed : Bool := false
  deriving DecidableEq, Repr

/-- A die that is being brought back (R439, R443): it waits for its restart, and whether this is the repeat of R443. -/
structure Restart where
  waiting : Bool := true
  again : Bool := false
  deriving DecidableEq, Repr

/-- Bring-up (R438, R441, R442). `step`: 0 while a panel warm reset is under way, 1 to 12 the step whose work goes on,
13 when bring-up has completed. -/
structure BringUp where
  step : Nat := 1
  cold : Bool := true
  /-- The pending-map snapshot of R44. -/
  snapshot : Option (Tab SiteEntry) := none
  /-- Sites whose die did not answer its management link at step 4 (R428, R442). -/
  unreadable : List Nat := []
  deriving DecidableEq, Repr

/-- The busbar input: within its range or an excursion that the rails hold, or lost (R496). -/
inductive Busbar where
  | inRange | lost
  deriving DecidableEq, Repr

/-- The panel's hearths and what they hold. -/
structure Panel where
  hatches : Tab Hatch := []
  route : Tab Nat := []
  job : Option Job := none
  fenced : Bool := false
  /-- The event log: records, newest last, at most 16,384 (R399, R461). -/
  log : List Notice := []
  /-- Records written to the event log since manufacture: the place of the ring that comes next. -/
  logged : Nat := 0
  ptp : Option Nat := none
  ports : Tab Port := []
  bays : Tab Bay := []
  laserOff : Bool := false
  time : TimeBase := {}
  fabric : FabMod := {}
  serial : Nat := 1
  /-- Registered collective plans by PLAN_ID: their 2,112 bytes (R334). -/
  plans : Tab Bytes := []
  -- hearths (R400 to R403)
  hearths : Tab Hearth := []
  /-- What the MRAM of a hearth holds where it is older than what this panel holds: the hearth went DOWN while the other served. -/
  mrams : Tab Mram := []
  bridgeOwner : Nat := 0
  /-- The hearth that is taking over (R402). -/
  takeover : Option Nat := none
  failovers : Nat := 0
  powerDown : Bool := false
  -- the journal (R413 to R415)
  journal : List Entry := []
  /-- The link store of the hearths' pool (R212, R227): for each of its 32 queues the numbers of the cells in the order of their
  links. A queue's items are the held datagrams of a hatch, or its notices, and they fill the cells in that order. -/
  chains : Tab (List Nat) := []
  acceptIndex : Nat := 0
  authDrops : Nat := 0
  rejects : Nat := 0
  busies : Nat := 0
  duplicates : Nat := 0
  bulks : List Bulk := []
  -- keys (R445, R448)
  ownerKey : Bytes := List.replicate 64 0
  fmKey : Bytes := List.replicate 64 0
  keyEpoch : Nat := 0
  fwKeyHash : Bytes := List.replicate 32 0
  minSvn : Nat := 0
  bootSlot : Nat := 0
  -- compatibility (R51, R502)
  compatClass : Nat := 1
  clMax : Nat := 1
  clSet : Nat := 1
  featureLevel : Nat := 1
  -- site maps, bring-up, dies out of service
  pendingMap : Tab SiteEntry := []
  /-- The site that last served each home number (R437, R511). -/
  served : Tab Nat := []
  bring : BringUp := {}
  restarts : Tab Restart := []
  /-- Sites whose die stays at ALWAYS_ON until the next panel reset (R391, R427, R443). -/
  out : List Nat := []
  kats : Tab Kat := []
  katRun : Option KatRun := none
  /-- Condition keys of the last eight failures of each site (R457). -/
  katKeys : Tab (List Nat) := []
  -- power and coolant (R382, R383, R397, R496)
  powerLimit : Nat := 20000
  coolantLimit : Nat := 20000
  inlet : Int := 0
  outlet : Int := 0
  flow : Nat := 0
  coolantOut : Bool := false
  busbarW : Nat := 0
  leaveW : Nat := 0
  lowTurn : Option Nat := none
  budgetTurn : Nat := 0
  busbar : Busbar := .inRange
  busbarMv : Nat := 0
  /-- Copies of the region tables by logical die number (R186). -/
  regions : Tab (Tab Region) := []
  /-- ACCEPT_INDEX that came next when each site was last reset (R416). -/
  resetAt : Tab Nat := []
  deriving DecidableEq, Repr

end Sys2Proof.Machine
end

