-- ==== Sys2Proof/Machine/State.lean ====
section
/-! DEFINITION. The state of the block: everything the spec gives the machine, as plain data, and its state after
a cold reset. -/
namespace Sys2Proof.Machine

/-- Why a step would stop with a fault. No command of this block does: an error is an effect on the state. -/
inductive Fault where
  /-- Raised by nothing: kept because an outcome needs a fault type. Safe. -/
  | none
  deriving DecidableEq, Repr

/-- Why a command has no meaning. -/
inductive Refusal where
  /-- A command whose meaning has not been written; raised by Dispatch only. Safe: nothing can be proved of it. -/
  | notModelled (mnemonic : String)
  deriving DecidableEq, Repr

/-- A compute die, addressed by its site. -/
structure Die where
  seqs : Tab Seq := []
  gangs : Tab Gang := []
  tiles : Tab Tile := []
  arrs : Tab Arr := []
  vecs : Tab Vec := []
  sieve : Sieve := {}
  obs : Observe := {}
  mem : MemUnit := {}
  ladle : Ladle := {}
  pool : Pool := {}
  fab : Fabric := {}
  rem : Remote := {}
  whisk : Whisk := {}
  leave : Leave := {}
  thermal : Thermal := {}
  power : Power := {}
  pairs : Tab Pair := []
  seed : Nat := 0
  standsFor : Nat := 0x3F
  siteNum : Nat := 0x3F
  featureEnable : Nat := 1
  /-- MIR and ROT as sampled, in bits 1 and 0 (R31). -/
  orient : Nat := 0
  nextKey : Nat := 0
  -- fuses (R49, R384; log 11)
  stepping : Nat := 2
  features : Nat := 0xF
  n25 : Tab Nat := []
  n105 : Tab Nat := []
  deriving DecidableEq, Repr

/-- The state of the block. -/
structure State where
  pending : List Instr := []
  outbox : List Output := []
  freeCtr : Nat := 0
  turn : Nat := 0
  dies : Tab Die := []
  live : Tab SiteEntry := []
  menus : List Menu := []
  panel : Panel := {}
  /-- What the hearth's state store holds of the registers that it wrote into a die before a reset, by site (R436). -/
  images : Tab Die := []
  deriving DecidableEq, Repr

/-- MIR and ROT that R28 gives for a site, in bits 1 and 0. -/
def strapsOf (d : Nat) : Nat := (if 26 ≤ d then 2 else 0) + d % 13 % 2

/-- Factory entry of a site in both maps (R42). -/
def factoryEntry (d : Nat) : SiteEntry :=
  if d % 13 = 12 then { state := .spare, standsFor := 0x3F } else { state := .active, standsFor := d }

/-- Bay that feeds a port by itself (R250): bay n for port n, bay 10 for HOST. -/
def ownBay (port : Nat) : Nat := if port = 8 then 10 else port

/-- The machine after a cold reset of a factory-fresh module: every die at ALWAYS_ON, bring-up in step 1. -/
def State.reset : State :=
  { dies := (List.range 52).map (fun d => (d, { orient := strapsOf d }))
    live := (List.range 52).map (fun d => (d, factoryEntry d))
    panel :=
      { hatches := [(0, { key := some 0 }), (15, { key := some 0 })]
        ports := (List.range 9).map (fun n => (n, { feed := some (ownBay n) }))
        bays := (List.range 12).map (fun b => (b, {}))
        hearths := [(0, { role := .primary }), (1, { role := .partner })]
        pendingMap := (List.range 52).map (fun d => (d, factoryEntry d)) } }

end Sys2Proof.Machine
end

