-- ==== Sys2Proof/Machine/Ops.lean ====
section
/-! DEFINITION. The named operations that every meaning uses: access to dies, cores and threads, the memories of a
die, queues of the pool, notices, and an error that stops a course. -/
namespace Sys2Proof.Machine

/-! ### Access -/

def State.die (s : State) (d : Nat) : Die := s.dies.getD d {}
def State.setDie (s : State) (d : Nat) (x : Die) : State := { s with dies := s.dies.put d x }
def State.modDie (s : State) (d : Nat) (f : Die → Die) : State := s.setDie d (f (s.die d))

def Die.seq (x : Die) (c : Nat) : Seq := x.seqs.getD c {}
def Die.modSeq (x : Die) (c : Nat) (f : Seq → Seq) : Die := { x with seqs := x.seqs.put c (f (x.seq c)) }
def Seq.thread (q : Seq) (t : Nat) : Thread := q.threads.getD t {}
def Seq.modThread (q : Seq) (t : Nat) (f : Thread → Thread) : Seq :=
  { q with threads := q.threads.put t (f (q.thread t)) }
def State.modThread (s : State) (d c t : Nat) (f : Thread → Thread) : State :=
  s.modDie d (fun x => x.modSeq c (fun q => q.modThread t f))

def Die.arr (x : Die) (a : Nat) : Arr := x.arrs.getD a {}
def Die.modArr (x : Die) (a : Nat) (f : Arr → Arr) : Die := { x with arrs := x.arrs.put a (f (x.arr a)) }
def Die.vec (x : Die) (c : Nat) : Vec := x.vecs.getD c {}
def Die.modVec (x : Die) (c : Nat) (f : Vec → Vec) : Die := { x with vecs := x.vecs.put c (f (x.vec c)) }
def Die.gang (x : Die) (c : Nat) : Gang := x.gangs.getD c {}
def Die.modGang (x : Die) (c : Nat) (f : Gang → Gang) : Die := { x with gangs := x.gangs.put c (f (x.gang c)) }
/-- Tile register `i` of core `c`; the table is keyed by 32 · core + register. -/
def Die.tile (x : Die) (c i : Nat) : Tile := x.tiles.getD (32 * c + i) {}
def Die.setTile (x : Die) (c i : Nat) (v : Tile) : Die := { x with tiles := x.tiles.put (32 * c + i) v }
def Die.chan (x : Die) (ch : Nat) : Chan := x.ladle.chans.getD ch {}
def Die.modChan (x : Die) (ch : Nat) (f : Chan → Chan) : Die :=
  { x with ladle := { x.ladle with chans := x.ladle.chans.put ch (f (x.chan ch)) } }
def Die.queue (x : Die) (q : Nat) : Queue := x.pool.queues.getD q {}
def Die.setQueue (x : Die) (q : Nat) (v : Queue) : Die :=
  { x with pool := { x.pool with queues := x.pool.queues.put q v } }
def Die.inst (x : Die) (b : Nat) : Inst := x.whisk.insts.getD b {}
def Die.setInst (x : Die) (b : Nat) (v : Inst) : Die :=
  { x with whisk := { x.whisk with insts := x.whisk.insts.put b v } }
def Die.cnt (x : Die) (c i : Nat) : Cnt := x.obs.cnts.getD (16 * c + i) {}

def State.site (s : State) (d : Nat) : SiteEntry := s.live.getD d {}
/-- The site that serves a logical die number in the live map (R25, R42). -/
def State.siteOf (s : State) (n : Nat) : Option Nat :=
  (List.range 52).find? (fun d => (s.live.getD d { standsFor := 0x3F, state := .off }).state = .active
    && (s.live.getD d { standsFor := 0x3F, state := .off }).standsFor = n)

/-- A fresh number for a command of the die. -/
def Die.freshKey (x : Die) : Nat × Die := (x.nextKey, { x with nextKey := x.nextKey + 1 })

/-- Stamp the next free value (log 13): its number, and the state with the counter advanced. -/
def State.fresh (s : State) : Nat × State := (s.freeCtr, { s with freeCtr := s.freeCtr + 1 })

/-! ### Turn numbers (R58, R72) -/

/-- The turn `k` turns after turn `t`: turn numbers have 48 bits and wrap (R58). -/
def turnPlus (t k : Nat) : Nat := (t + k) % 2 ^ 48
/-- Turns from turn `a` to turn `b`, as a signed number of 48 bits. -/
def turnsTo (a b : Nat) : Int := signed 48 (b % 2 ^ 48 + 2 ^ 48 - a % 2 ^ 48)
/-- Turn `t` has come at turn `now`. -/
def turnCome (t now : Nat) : Bool := decide (0 ≤ turnsTo t now)
/-- Turns that have passed since turn `t` came. -/
def turnsSince (t now : Nat) : Nat := (now + 2 ^ 48 - t % 2 ^ 48) % 2 ^ 48

/-! ### Memory (R173 to R184) -/

/-- The byte at an address; an unlisted address reads 0x00 (log 4). -/
def Mem.read : Mem → Nat → Byte
  | [], _ => 0
  | (i, v) :: m, a => if i = a then v else Mem.read m a

/-- The listed cells of a byte string placed at `a`: a zero byte is not listed. -/
def Mem.cellsAt (a : Nat) : Bytes → Mem
  | [] => []
  | b :: bs => if b = 0 then Mem.cellsAt (a + 1) bs else (a, b) :: Mem.cellsAt (a + 1) bs

/-- Write a byte string at `a`, keeping the canonical form. -/
def Mem.write (m : Mem) (a : Nat) (bs : Bytes) : Mem :=
  m.filter (fun c => decide (c.1 < a)) ++ Mem.cellsAt a bs ++ m.filter (fun c => decide (a + bs.length ≤ c.1))

/-- Fill `n` bytes from `a` on out of cells in rising order, none below `a`. -/
def Mem.fill : Nat → Mem → Nat → Bytes
  | 0, _, _ => []
  | n + 1, [], a => 0 :: Mem.fill n [] (a + 1)
  | n + 1, (i, v) :: m, a => if i = a then v :: Mem.fill n m (a + 1) else 0 :: Mem.fill n ((i, v) :: m) (a + 1)

/-- Read `n` bytes from address `a`. -/
def Mem.readN (m : Mem) (a n : Nat) : Bytes :=
  Mem.fill n (m.filter (fun c => decide (a ≤ c.1) && decide (c.1 < a + n))) a

/-- The canonical form: addresses strictly rising, no byte 0x00 listed. -/
def Mem.wf : Mem → Bool
  | [] => true
  | [(_, v)] => v != 0
  | (i, v) :: (j, w) :: m => v != 0 && decide (i < j) && Mem.wf ((j, w) :: m)

/-- Places of the die-local map (R173). -/
inductive Place where
  | hbm | hbmTags | larder | larderTags | pantry | control | unmapped
  deriving DecidableEq, Repr

abbrev hbmEnd : Nat := 0x1FF0000000
abbrev larderBase : Nat := 0x2000000000
abbrev larderEnd : Nat := 0x3FF0000000
abbrev pantryBase : Nat := 0x4000000000
abbrev pantryEnd : Nat := 0x4006000000
abbrev controlBase : Nat := 0x7FF0000000

/-- Where a die-local address lies (R173). -/
def placeOf (a : Nat) : Place :=
  if a < hbmEnd then .hbm
  else if a < larderBase then .hbmTags
  else if a < larderEnd then .larder
  else if a < pantryBase then .larderTags
  else if a < pantryEnd then .pantry
  else if a < controlBase then .unmapped
  else if a < 0x8000000000 then .control
  else .unmapped

/-- A span of `n` bytes lies wholly in HBM data, larder data or the pantry. -/
def spanPlace (a n : Nat) : Option Place :=
  match placeOf a with
  | .hbm => if a + n ≤ hbmEnd then some .hbm else none
  | .larder => if a + n ≤ larderEnd then some .larder else none
  | .pantry => if a + n ≤ pantryEnd then some .pantry else none
  | _ => none

/-- Address of the glaze tag of the block at `a` (R184). -/
def tagAddr (a : Nat) : Nat :=
  if a < larderBase then hbmEnd + 8 * (a / 4096) else larderEnd + 8 * ((a - larderBase) / 4096)

/-! ### Checksums (R189, R195, R470) -/

/-- One reflected CRC step of `k` bits with polynomial `p`. -/
def crcBitsR (p : Nat) : Nat → Nat → Nat
  | 0, c => c
  | k + 1, c => crcBitsR p k (if c % 2 = 1 then (c >>> 1) ^^^ p else c >>> 1)

/-- CRC-32C (Castagnoli, reflected, R189). -/
def crc32c (bs : Bytes) : Nat :=
  (bs.foldl (fun c b => crcBitsR 0x82F63B78 8 (c ^^^ b.toNat)) 0xFFFFFFFF) ^^^ 0xFFFFFFFF

/-- `k` steps of an unreflected CRC of width `w` with polynomial `p`. -/
def crcBitsL (w p : Nat) : Nat → Nat → Nat
  | 0, c => c
  | k + 1, c => crcBitsL w p k (if c.testBit (w - 1) then ((c <<< 1) ^^^ p) % 2 ^ w else (c <<< 1) % 2 ^ w)

/-- CRC-16 of a granule (R195): polynomial 0x1021, initial value 0xFFFF. -/
def crc16 (bs : Bytes) : Nat := bs.foldl (fun c b => crcBitsL 16 0x1021 8 (c ^^^ (b.toNat <<< 8))) 0xFFFF

/-- CRC-64 of the sieve (R470): ECMA-182, initial value 0. -/
def crc64 (bs : Bytes) : Nat :=
  bs.foldl (fun c b => crcBitsL 64 0x42F0E1EBA9EA3693 8 (c ^^^ (b.toNat <<< 56))) 0

/-- The stamp of block `j` of a tensor's region (R190). -/
def stampOf (tensor j : Nat) : Nat := ((tensor * 0x9E3779B1) % 2 ^ 32) ^^^ (j % 2 ^ 32)

/-! ### Regions (R185 to R188) -/

def Region.start (r : Region) : Nat := r.base * 4096
def Region.stop (r : Region) : Nat := r.base * 4096 + (r.blocksM1 + 1) * 4096
def Region.holds (r : Region) (a n : Nat) : Bool := r.valid && decide (r.start ≤ a) && decide (a + n ≤ r.stop)
def Region.touches (r : Region) (a n : Nat) : Bool := r.valid && decide (r.start < a + n) && decide (a < r.stop)

/-- The valid region that holds the whole span (R187). -/
def MemUnit.regionOf (m : MemUnit) (a n : Nat) : Option Region :=
  (m.regions.find? (fun p => p.2.holds a n)).map Prod.snd

/-- A FROZEN region touches the span (R188). -/
def MemUnit.frozen (m : MemUnit) (a n : Nat) : Bool := m.regions.any (fun p => p.2.frozen && p.2.touches a n)

/-- The tag that a block with these contents gets: CRC and stamp (R189, R190). -/
def tagFor (r : Region) (block : Nat) (bs : Bytes) : Bytes :=
  leBytes 4 (crc32c bs) ++ leBytes 4 (stampOf r.tensor ((block - r.start) / 4096))

/-- A block and tag as read match (R192). -/
def MemUnit.blockMatches (m : MemUnit) (r : Region) (block : Nat) : Bool :=
  m.cells.readN (tagAddr block) 8 == tagFor r block (m.cells.readN block 4096)

/-- A granule and its CRC-16 as read match (R195). -/
def MemUnit.granuleMatches (m : MemUnit) (r : Region) (g : Nat) : Bool :=
  leNat 2 (m.cells.readN (r.crcBase * 4096 + 2 * ((g - r.start) / 32)) 2) == crc16 (m.cells.readN g 32)

/-- Failed reads of a block or granule by a consumer so far. -/
def MemUnit.failCount (m : MemUnit) (u : Consumer) (a : Nat) : Nat :=
  match m.fails.find? (fun f => f.who = u && f.addr = a) with
  | some f => f.count
  | none => 0

def MemUnit.setFail (m : MemUnit) (u : Consumer) (a n : Nat) : MemUnit :=
  let rest := m.fails.filter (fun f => ! (f.who = u && f.addr = a))
  { m with fails := if n = 0 then rest else rest ++ [{ who := u, addr := a, count := n }] }

/-- The consumer is done with the blocks that a span touches: failed reads of them no longer count, and a later use has its
three reads again (R193). -/
def MemUnit.forget (m : MemUnit) (u : Consumer) (a n : Nat) : MemUnit :=
  { m with fails := m.fails.filter (fun f => ! (f.who = u && decide (a / 4096 * 4096 ≤ f.addr) && decide (f.addr < a + n))) }

/-- The block or granule at `a` matches as it is stored. -/
def MemUnit.unitMatches (m : MemUnit) (a : Nat) : Bool :=
  match m.regionOf a 32 with
  | none => false
  | some r => if r.gather then m.granuleMatches r a else m.blockMatches r a

/-- Blocks and granules of a span that the consumer has read again and whose re-read supplies the data (R193, R195). -/
def MemUnit.redone (m : MemUnit) (u : Consumer) (a n : Nat) : Nat :=
  let size := fun (g : Nat) => match m.regionOf g 32 with
    | some r => if r.gather then 32 else 4096
    | none => 4096
  (m.fails.filter (fun f => f.who = u && decide (f.count < 3) && decide (a < f.addr + size f.addr) && decide (f.addr < a + n) &&
    m.unitMatches f.addr)).length

/-- How a verified read ends: the bytes, the address of the block or granule that failed all reads, or the address of a span
that lies in no valid region (R187). -/
inductive ReadResult where
  | bytes (bs : Bytes)
  | glaze (addr : Nat)
  | gather (addr : Nat)
  | noRegion (addr : Nat)
  deriving DecidableEq, Repr

/-- The address and the code of a read that fails; `own` is the code of the unit for a span outside every region (R187). -/
def ReadResult.fault (own : Nat) : ReadResult → Bytes ⊕ Nat × Nat
  | .bytes bs => .inl bs
  | .glaze a => .inr (a, Code.glazeFault)
  | .gather a => .inr (a, Code.gatherFault)
  | .noRegion a => .inr (a, own)

/-- The first unit of `step` bytes of the span that does not match; at most `k` units. -/
def firstBad (ok : Nat → Bool) (step : Nat) : Nat → Nat → Option Nat
  | 0, _ => none
  | k + 1, a => if ok a then firstBad ok step k (a + step) else some a

/-- A consumer's verified read of a span of HBM or larder data (R192, R193, R195); a pantry span is read as it
stands. A unit fails when it does not match as stored, or when all three reads have failed. -/
def MemUnit.verifiedRead (m : MemUnit) (u : Consumer) (a n : Nat) : ReadResult :=
  if placeOf a = .pantry || n = 0 then .bytes (m.cells.readN a n)
  else
    match m.regionOf a n with
    | none => .noRegion (a / 4096 * 4096)
    | some r =>
      if r.gather then
        match firstBad (fun g => m.granuleMatches r g && decide (m.failCount u g < 3)) 32
            ((a + n - 1) / 32 - a / 32 + 1) (a / 32 * 32) with
        | some g => .gather g
        | none => .bytes (m.cells.readN a n)
      else
        match firstBad (fun b => m.blockMatches r b && decide (m.failCount u b < 3)) 4096
            ((a + n - 1) / 4096 - a / 4096 + 1) (a / 4096 * 4096) with
        | some b => .glaze b
        | none => .bytes (m.cells.readN a n)

/-! ### Pantry (R180) -/

/-- The 64-bit words that a pantry span touches. -/
def wordsOf (a n : Nat) : List Nat := (List.range ((a + n - 1) / 8 - a / 8 + 1)).map (fun i => a / 8 + i)

/-- Write a pantry span: a whole word clears an error it held; a part of a word keeps an uncorrectable word
uncorrectable and counts it, and clears a single-bit error. -/
def MemUnit.panWrite (m : MemUnit) (a : Nat) (bs : Bytes) : MemUnit :=
  if bs.length = 0 then m else
  let whole := fun w => decide (a ≤ 8 * w) && decide (8 * w + 8 ≤ a + bs.length)
  let ws := wordsOf a bs.length
  let merged := ws.filter (fun w => ! whole w)
  let bad := merged.filter (fun w => m.panBad.contains w)
  let single := merged.filter (fun w => m.panSingle.contains w)
  { m with
    cells := m.cells.write a bs
    panSingle := m.panSingle.filter (fun w => ! ws.contains w)
    panBad := m.panBad.filter (fun w => ! (ws.contains w && whole w))
    panCorrected := satAdd 32 m.panCorrected single.length
    panUncorrectable := satAdd 16 m.panUncorrectable bad.length
    panLastBank := match bad.getLast? with
      | some w => (8 * w - pantryBase) / (12 * 1048576)
      | none => m.panLastBank }

/-- Count the errors that a pantry read of a span meets: the unit with its counts, and whether a word was
uncorrectable. -/
def MemUnit.panScan (m : MemUnit) (a n : Nat) : MemUnit × Bool :=
  if placeOf a ≠ .pantry || n = 0 || (m.panBad.isEmpty && m.panSingle.isEmpty) then (m, false) else
  let ws := wordsOf a n
  let bad := ws.filter (fun w => m.panBad.contains w)
  let single := ws.filter (fun w => m.panSingle.contains w)
  ({ m with
    panCorrected := satAdd 32 m.panCorrected single.length
    panUncorrectable := satAdd 16 m.panUncorrectable bad.length
    panLastBank := match bad.getLast? with
      | some w => (8 * w - pantryBase) / (12 * 1048576)
      | none => m.panLastBank }, ! bad.isEmpty)

/-! ### Kilns (R191, R195) -/

/-- How a kiln's write of one block ends: the block may lie in no valid region any more, or in a FROZEN one. -/
inductive KilnResult where
  | written
  | glaze
  | gather (granule : Nat)
  | noRegion
  | frozen
  deriving DecidableEq, Repr

/-- The code that a kiln's write ends with; `region` and `ice` are the writing unit's codes for a block outside every region and
for one in a FROZEN region. -/
def KilnResult.code (region ice : Nat) : KilnResult → Nat
  | .written => 0
  | .glaze => Code.glazeFault
  | .gather _ => Code.gatherFault
  | .noRegion => region
  | .frozen => ice

/-- Put pieces (offset, bytes) into the bytes of a block. -/
def patch (old : Bytes) : List (Nat × Bytes) → Bytes
  | [] => old
  | (o, bs) :: ps => patch (old.take o ++ bs ++ old.drop (o + bs.length)) ps

/-- Sum of the lengths of pieces. -/
def piecesLen (ps : List (Nat × Bytes)) : Nat := (ps.map (fun p => p.2.length)).foldl (· + ·) 0

/-- Offsets of a block that pieces cover. -/
def covers (ps : List (Nat × Bytes)) (o : Nat) : Bool :=
  ps.any (fun p => decide (p.1 ≤ o) && decide (o < p.1 + p.2.length))

/-- Pieces cover `n` bytes from offset `o`. -/
def coversAll (ps : List (Nat × Bytes)) : Nat → Nat → Bool
  | 0, _ => true
  | n + 1, o => covers ps o && coversAll ps n (o + 1)

/-- Pieces cover a whole block: either one piece does, or every byte is in some piece (R201). -/
def wholeBlock (ps : List (Nat × Bytes)) : Bool :=
  ps.any (fun p => p.1 = 0 && p.2.length = 4096) || (decide (4096 ≤ piecesLen ps) && coversAll ps 4096 0)

/-- Granule numbers within the block that pieces touch. -/
def granulesTouched (ps : List (Nat × Bytes)) : List Nat :=
  (List.range 128).filter (fun g => ps.any (fun p => decide (p.1 < 32 * g + 32) && decide (32 * g < p.1 + p.2.length)
    && decide (0 < p.2.length)))

/-- The kiln writes one block (R191): a whole block with its tag, or a merge after the old block verified; in a
GATHER region it writes the CRC-16 of every granule it writes (R195). A bad old block leaves memory as it is. A write whose
region has gone while it waited is dropped (DESIGN CHOICE, log 216), and when one partly covered granule fails no granule of the
write is written (DESIGN CHOICE, log 217). -/
def MemUnit.kilnApply (m : MemUnit) (block : Nat) (ps : List (Nat × Bytes)) : MemUnit × KilnResult :=
  match m.regionOf block 4096 with
  | none => (m, .noRegion)
  | some r =>
    let new := patch (m.cells.readN block 4096) ps
    if r.gather then
      let gs := granulesTouched ps
      match gs.find? (fun g => ! coversAll ps 32 (32 * g) &&
        ! (m.granuleMatches r (block + 32 * g) && decide (m.failCount .kiln (block + 32 * g) < 3))) with
      | some g => (m, .gather (block + 32 * g))
      | none =>
        let c1 := m.cells.write block new
        let c2 := gs.foldl (fun c g => c.write (r.crcBase * 4096 + 2 * ((block + 32 * g - r.start) / 32))
          (leBytes 2 (crc16 ((new.drop (32 * g)).take 32)))) c1
        ({ m with cells := c2 }, .written)
    else if wholeBlock ps || (m.blockMatches r block && decide (m.failCount .kiln block < 3)) then
      ({ m with cells := (m.cells.write block new).write (tagAddr block) (tagFor r block new) }, .written)
    else (m, .glaze)

/-- Hand a write to the kiln of its tier. -/
def MemUnit.kilnPush (m : MemUnit) (q : KilnReq) : MemUnit :=
  if q.block < larderBase then { m with hbmKiln := m.hbmKiln ++ [q] } else { m with larKiln := m.larKiln ++ [q] }

/-- Cut a byte string at `a` into the pieces of the blocks it touches; at most `k` blocks. -/
def cutBlocks : Nat → Nat → Bytes → List (Nat × List (Nat × Bytes))
  | 0, _, _ => []
  | k + 1, a, bs =>
    if bs.isEmpty then [] else
    let n := 4096 - a % 4096
    (a / 4096 * 4096, [(a % 4096, bs.take n)]) :: cutBlocks k (a + n) (bs.drop n)

/-- The blocks and pieces of a write of `bs` at `a`. -/
def blocksOf (a : Nat) (bs : Bytes) : List (Nat × List (Nat × Bytes)) := cutBlocks (bs.length / 4096 + 2) a bs

/-! ### The queue-cell pool (R212 to R226) -/

/-- CELLS of a queue: those of its complete and of its partial items. -/
def Queue.cells (q : Queue) : Nat :=
  ((q.items ++ q.written).map (fun i => i.cells.length)).foldl (· + ·) 0 + (q.parts.map (fun p => p.cells.length)).foldl (· + ·) 0

/-- DEPTH: complete items (R213). -/
def Queue.depth (q : Queue) : Nat := q.items.length

/-- The link store's entry of a cell of the queue (R212): the index of the next cell, and END. -/
def Queue.link (q : Queue) (c : Nat) : Option Nat × Bool :=
  (((q.chain.zip (q.chain.drop 1)).find? (fun p => p.1 = c)).map Prod.snd,
   (q.items ++ q.written).any (fun i => i.cells.getLast? = some c) || q.parts.any (fun p => p.cells.getLast? = some c))

/-- HEAD: the first cell of the head item. -/
def Queue.headCell (q : Queue) : Nat :=
  match q.items ++ q.written, q.parts with
  | i :: _, _ => i.cells.headD 0
  | [], p :: _ => p.cells.headD 0
  | [], [] => 0

/-- TAIL: the last cell linked, partial items included. -/
def Queue.tailCell (q : Queue) : Nat := q.chain.getLast?.getD 0

/-- Cells go back to the free list. -/
def Queue.unlink (q : Queue) (cells : List Nat) : Queue := { q with chain := q.chain.filter (fun c => ! cells.contains c) }

/-- The `c`-th of the numbers that are not listed; the list rises. -/
def nthFree : List Nat → Nat → Nat
  | [], c => c
  | u :: l, c => if u ≤ c then nthFree l (c + 1) else c

/-- The numbers of all cells in use, rising. -/
def Pool.used (p : Pool) : List Nat :=
  (p.queues.flatMap (fun q => (q.2.items ++ q.2.written).flatMap QItem.cells ++ q.2.parts.flatMap QPart.cells)).foldl
    (fun l c => insertNat c l) []

/-- `n` free cells; which of the free cells the pool takes is free (R212, log 100). -/
def freeCells (k : Nat) : Nat → List Nat → List Nat
  | 0, _ => []
  | n + 1, used =>
    let c := nthFree used (Config.freeCell k n % (65536 - used.length))
    c :: freeCells k n (insertNat c used)

/-- FREE: cells in no queue (R216). -/
def Pool.free (p : Pool) : Nat := 65536 - (p.queues.map (fun q => q.2.cells)).foldl (· + ·) 0

/-- RU: reserved cells not held, over enabled queues (R216). -/
def Pool.ru (p : Pool) : Nat :=
  (p.queues.map (fun q => if q.2.enable then q.2.minRes - q.2.cells else 0)).foldl (· + ·) 0

/-- Answers of the pool to a request for admission (R216). -/
inductive Admit where
  | admitted
  | noQueue
  | itemSize
  | full
  deriving DecidableEq, Repr

/-- R216: the answer, and the pool after it; an admitted item is partial. `k` is the number of the free value that chooses
the cells. -/
def Pool.admission (p : Pool) (qn n : Nat) (key : Nat × Nat) (k : Nat) : Pool × Admit :=
  let q := p.queues.getD qn {}
  let refuse := fun (p : Pool) => { p with queues := p.queues.put qn { q with refused := satAdd 16 q.refused 1 } }
  if ! q.enable then (refuse p, .noQueue)
  else if n > q.maxItemM1 + 1 then (refuse p, .itemSize)
  else if q.cells + n > q.max then (refuse p, .full)
  else
    let fromReserve := min (q.cells + n) q.minRes - q.cells
    if n - fromReserve > p.free - p.ru then
      ({ refuse p with exhausted := satAdd 16 p.exhausted 1 }, .full)
    else
      let cs := freeCells k n p.used
      ({ p with queues := p.queues.put qn { q with parts := q.parts ++ [{ key := key, cells := cs }], chain := q.chain ++ cs } }, .admitted)

/-- Pad the bytes of an item to whole cells (R212). -/
def padCells (bs : Bytes) : Bytes := bs ++ List.replicate ((64 - bs.length % 64) % 64) 0

/-- Bytes are written to a partial item. -/
def Queue.fillPart (q : Queue) (key : Nat × Nat) (f : Bytes → Bytes) : Queue :=
  { q with parts := q.parts.map (fun p => if p.key = key then { p with data := f p.data } else p) }

/-- The last cell of a partial item has been written: the item will count (R213). Its bytes fill its cells. -/
def Queue.partWritten (q : Queue) (key : Nat × Nat) : Queue :=
  match q.parts.find? (fun p => p.key = key) with
  | none => q
  | some p =>
    { q with parts := removeFirst (fun e => e.key = key) q.parts
             written := q.written ++ [{ cells := p.cells, data := p.data ++ List.replicate (64 * p.cells.length - p.data.length) 0 }] }

/-- The first written item joins the complete items (R213). -/
def Queue.complete (q : Queue) : Queue :=
  match q.written with
  | [] => q
  | i :: rest => { q with items := q.items ++ [i], written := rest, fired := if q.items.isEmpty then false else q.fired }

/-- The take of the head item (R214): it restarts the idle timer. -/
def Queue.takeHead (q : Queue) : Option (Bytes × Queue) :=
  match q.items with
  | [] => none
  | i :: is => some (i.data, { q with items := is, fired := false, signalled := q.signalled && ! is.isEmpty }.unlink i.cells)

/-- A UNIT or HEARTH consumer is signalled and takes the items that stand (R222). No rule says when it takes them or what it
does with them: the model lets it take them at once (DESIGN CHOICE, log 190). -/
def Queue.serveUnit (q : Queue) : Queue :=
  { q with items := [], fired := false, signalled := true }.unlink (q.items.flatMap QItem.cells)

/-- R224: the queue empties, counting what is discarded. -/
def Queue.flush (q : Queue) : Queue :=
  { q with items := [], written := [], parts := [], chain := [], signalled := false, fired := false
           flushedItems := satAdd 16 q.flushedItems (q.items.length + q.written.length)
           flushedPartial := satAdd 16 q.flushedPartial q.parts.length }

/-! ### Notices (R429, R430, R461) -/

/-- SUBJECT of a notice from its five fields; 0xFF where none applies. -/
def subjectOf (die port pair bay hearth : Nat) : Nat :=
  (die % 256) * 2 ^ 56 + (port % 256) * 2 ^ 48 + (pair % 256) * 2 ^ 40 + (bay % 256) * 2 ^ 32 + (hearth % 256) * 2 ^ 24

abbrev noSubject : Nat := 0xFFFFFFFFFF000000
def dieSubject (n : Nat) : Nat := subjectOf n 0xFF 0xFF 0xFF 0xFF

def Panel.hatch (p : Panel) (h : Nat) : Hatch := p.hatches.getD h {}
def Panel.modHatch (p : Panel) (h : Nat) (f : Hatch → Hatch) : Panel :=
  { p with hatches := p.hatches.put h (f (p.hatch h)) }

/-- MIN_RES and MAX of the queues of a hearth's pool (R227): queue `h` is inbound, queue 16 + `h` holds notices. -/
def hearthRes (q : Nat) : Nat := if q = 0 then 1040 else if q < 16 then 520 else if q = 16 then 520 else 260
def hearthMax (q : Nat) : Nat := if q = 0 then 1040 else if q < 16 then 4160 else if q = 16 then 520 else 2080

/-- Cells that a queue of the hearth's pool holds: a held datagram fills whole cells, a notice one cell (R212, R227). -/
def Panel.hearthCells (p : Panel) (q : Nat) : Nat :=
  if q < 16 then ((p.hatch q).held.map (fun k => (k.2.length + 63) / 64)).foldl (· + ·) 0 else (p.hatch (q - 16)).notices.length

/-- R216 in a hearth's pool of 32,768 cells: an item of `n` cells is admitted to queue `q` within its MAX_ITEM, within its MAX,
and with its cells above the reservation from those that no queue holds or has reserved. -/
def Panel.hearthAdmits (p : Panel) (q n : Nat) : Bool :=
  let c := p.hearthCells q
  let spare := (List.range 32).foldl (fun m j => m - max (hearthRes j) (p.hearthCells j)) 32768
  decide (n ≤ if q < 16 then 65 else 1) && decide (c + n ≤ hearthMax q) && decide (n - (min (c + n) (hearthRes q) - c) ≤ spare)

/-- The cells of a queue of the hearths' pool in the order of their links. -/
def Panel.chain (p : Panel) (q : Nat) : List Nat := (p.chains.getD q []).take (p.hearthCells q)

/-- The numbers of all cells of the hearths' pool that are in use, rising. -/
def Panel.hearthUsed (p : Panel) : List Nat :=
  ((List.range 32).flatMap p.chain).foldl (fun l c => insertNat c l) []

/-- `n` cells that the pool of the hearths has free, for the item that `k` numbers; which it takes is free (R212, log 100). -/
def pickHearth (k : Nat) : Nat → List Nat → List Nat
  | 0, _ => []
  | n + 1, used =>
    let c := nthFree used (Config.hearthCell k n % (32768 - used.length))
    c :: pickHearth k n (insertNat c used)

/-- An item of `n` cells is about to join queue `q` of the hearths' pool. -/
def Panel.linkCells (p : Panel) (q k n : Nat) : Panel :=
  { p with chains := p.chains.put q (p.chain q ++ pickHearth (2 ^ 56 * q + k) n p.hearthUsed) }

/-- The `n` cells from place `i` of queue `q` on are about to go back to the free list. -/
def Panel.freeCells (p : Panel) (q i n : Nat) : Panel :=
  { p with chains := p.chains.put q ((p.chain q).take i ++ (p.chain q).drop (i + n)) }

/-- Queue a notice for one hatch; without a key the hatch receives nothing; one that its queue does not admit is dropped. -/
def Panel.queueNotice (p : Panel) (h : Nat) (n : Notice) : Panel :=
  if (p.hatch h).key.isNone then p
  else if ! p.hearthAdmits (16 + h) 1 then p.modHatch h (fun x => { x with dropped := x.dropped + 1 })
  else (p.linkCells (16 + h) (p.hatch h).noticeSeq 1).modHatch h (fun x => { x with
    notices := x.notices ++ [{ n with seq := x.noticeSeq }], noticeSeq := x.noticeSeq + 1, unsent := x.unsent + 1 })

/-- The hearth that serves, when one does: PRIMARY or SOLE. -/
def Panel.server (p : Panel) : Option Nat :=
  [0, 1].find? (fun k => (p.hearths.getD k {}).role = .primary || (p.hearths.getD k {}).role = .sole)

/-- Gwyntu is served: bring-up has completed and no takeover is under way (R402, R403, R441). -/
def Panel.serves (p : Panel) : Bool := p.bring.step = 13 && p.takeover.isNone && p.server.isSome && p.busbar ≠ .lost

/-- The notices of a hatch that are not yet sent leave, as one message of at most 64 records, when at least `k` of them have
gathered (R227); a hatch without a key receives nothing (R430). A notice that has not been sent when no hearth serves waits. -/
def Panel.gather (p : Panel) (h k : Nat) : Panel × List Output :=
  let x := p.hatch h
  let m := min x.unsent x.notices.length
  if m = 0 || m < k || x.key.isNone || ! p.serves || ! (p.ports.getD 8 {}).up then (p, [])
  else
    let l := (x.notices.drop (x.notices.length - m)).take 64
    (p.modHatch h (fun x => { x with unsent := m - l.length }), [.notices h ((l.map Notice.seq).headD 0) l])

def State.gatherNotices (s : State) (h k : Nat) : State :=
  { s with panel := (s.panel.gather h k).1, outbox := s.outbox ++ (s.panel.gather h k).2 }

/-- Append a record to the event log, a ring of 16,384 records (R461). -/
def Panel.addLog (p : Panel) (n : Notice) : Panel :=
  { p with log := if p.log.length < 16384 then p.log ++ [n] else p.log.drop 1 ++ [n], logged := p.logged + 1 }

/-- The hatch that a code's group goes to (R430). -/
def Panel.routeOf (p : Panel) (code : Nat) : Nat :=
  match p.route.find (code / 256) with
  | some h => h
  | none => if code / 256 = 5 || code / 256 = 6 || code / 256 = 10 then 15 else if p.job.isSome then 1 else 15

/-- Raise a notice (R430): to the hatch of its menu or command when `about` names one, else by its group; copied to
hatch 0 for groups 0x08, 0x09, 0x0A and HEARTH_FAILOVER; and logged. -/
def State.noticeTo (s : State) (about : Option Nat) (code subject a1 a2 a3 : Nat) : State :=
  let p := s.panel
  let n : Notice := { code := code, turn := s.turn, subject := subject, arg1 := a1, arg2 := a2, arg3 := a3,
                      time := p.ptp.getD 0 }
  let h := match about with
    | some h => h
    | none => p.routeOf code
  let copy := (code / 256 = 8 || code / 256 = 9 || code / 256 = 10 || code = Code.hearthFailover) && h ≠ 0
  let p1 := p.queueNotice h n
  let t : State := { s with panel := (if copy then p1.queueNotice 0 n else p1).addLog n }
  (t.gatherNotices h 64).gatherNotices 0 64

/-- Raise a notice by its group. -/
def State.notice (s : State) (code subject a1 a2 a3 : Nat) : State := s.noticeTo none code subject a1 a2 a3

/-- Log an event record (R461): CODE 0, the kind in ARG1. -/
def State.logEvent (s : State) (kind a2 a3 subject : Nat) : State :=
  { s with panel := s.panel.addLog { code := 0, turn := s.turn, subject := subject, arg1 := kind, arg2 := a2,
                                     arg3 := a3, time := s.panel.ptp.getD 0 } }

/-! ### Menus and course errors (R83, R74, R79) -/

/-- MENU_ID of a package (R67). -/
def Menu.id (m : Menu) : Nat := leAt m.pkg 0x08 8
def Menu.exact (m : Menu) : Bool := bitAt (leAt m.pkg 0x04 4) 0
def Menu.skillet (m : Menu) : Bool := bitAt (leAt m.pkg 0x04 4) 1
def Menu.roundLen (m : Menu) : Nat := leAt m.pkg 0x14 4
def Menu.dieSet (m : Menu) : Nat := leAt m.pkg 0x18 8
/-- WATCHDOG; 0 selects 1,024 (R67). -/
def Menu.watchdog (m : Menu) : Nat := if leAt m.pkg 0x24 2 = 0 then 1024 else leAt m.pkg 0x24 2
/-- Turn offsets of the run (R72). -/
def Menu.offsets (m : Menu) : Nat := m.n * m.roundLen
/-- The logical die numbers of DIE_SET, ascending. -/
def Menu.dies (m : Menu) : List Nat := (List.range 52).filter (fun n => m.dieSet.testBit n)

def Menu.resOff (m : Menu) : Nat := leAt m.pkg 0x40 8
/-- Byte offset of section `i` of the resource plan: 0 memory, 1 queues, 2 collectives, 3 shared resources. -/
def Menu.section_ (m : Menu) (i : Nat) : Nat := leAt m.pkg (m.resOff + 8 * i) 8
/-- A menu's queues as (logical die, queue) from its queue section (R219). -/
def Menu.queueCount (m : Menu) : Nat := leAt m.pkg (m.section_ 1) 4
def Menu.queueBytes (m : Menu) (i : Nat) : Bytes := sliceAt m.pkg (m.section_ 1 + 4 + 16 * i) 16

def State.menu (s : State) (id : Nat) : Option Menu := s.menus.find? (fun m => m.id = id)
def State.modMenu (s : State) (id : Nat) (f : Menu → Menu) : State :=
  { s with menus := s.menus.map (fun m => if m.id = id then f m else m) }

/-- The hatch of a menu's notices (R430). -/
def Menu.noticeHatch (m : Menu) : Nat := m.lastHatch.getD m.loadHatch

/-- The menu that a core runs. -/
def State.menuAt (s : State) (d c : Nat) : Option Menu := ((s.die d).seq c).menu.bind s.menu

/-- The menu configures the queue for die number `n` with CONSUMER THREAD (R223). -/
def Menu.threadQueue (m : Menu) (n q : Nat) : Bool :=
  (List.range m.queueCount).any (fun i =>
    let b := m.queueBytes i
    byteAt b 0 = n && leAt b 2 2 = q && byteAt b 0xC % 4 = 0)

/-- A WAIT_QUEUE or TAKE of a core may name the queue (R223, R304). -/
def State.plansQueue (s : State) (d c q : Nat) : Bool :=
  match s.menuAt d c with
  | some m => m.threadQueue (s.die d).standsFor q && decide (4 ≤ q) && decide (q < 1024)
  | none => false

/-- The course of core `c` has stopped: its SENDs that a full queue refuses are retransmitted no more (R217). Such a request
stays outstanding (DEDUCED, log 194). -/
def Die.haltSends (x : Die) (c : Nat) : Die :=
  let mine := fun (r : Req) => r.full && (match r.owner with
    | .thread o => o.core = c
    | .ladle _ _ _ => false)
  let gone := (x.rem.reqs.filter mine).map Req.id
  { x with
    rem := { x.rem with reqs := x.rem.reqs.map (fun r => if mine r then { r with halted := true } else r) }
    fab := { x.fab with handoff := x.fab.handoff.filter (fun h => match h with
      | .req i => ! gone.contains i
      | .pkt .. => true) } }

/-- The recorded error came in this turn from a die with a higher logical number, or from core 1 of the die whose core 0 raises
one now (R462). -/
def CourseErr.ties (e : CourseErr) (turn die core : Nat) : Bool :=
  e.turn = turn && decide (e.die < 52) && (decide (die < e.die) || (die = e.die && decide (core < e.core)))

/-- Record the first error of the menu that a core runs; the core stops issuing (R83), and the SENDs of its course that a full queue
refuses are repeated no more (R217). Of two errors that come in one cycle the one of the lower die counts, and within a die
that of core 0 (R462); whether two errors of a turn came in one cycle is free (log 62). -/
def State.raiseAt (s : State) (d core code off thread word : Nat) : State :=
  match ((s.die d).seq core).menu with
  | none => s
  | some id =>
    let s1 := s.modDie d (fun x => (x.haltSends core).modSeq core (fun q => { q with stopped := true }))
    let e : CourseErr := { code := code, die := (s.die d).standsFor, core := core, off := off, thread := thread, word := word,
                           turn := s.turn }
    match s.menu id with
    | none => s1
    | some m =>
      if m.state = .loaded then s1
      else match m.err with
        | none => s1.modMenu id (fun m => { m with err := some e })
        | some f =>
          if ! f.ties s.turn e.die core then s1
          else
            let k := s1.fresh
            if Config.sameCycle k.1 then k.2.modMenu id (fun m => { m with err := some e }) else k.2

/-- An error of a command word stops its course (R83). -/
def State.raise (s : State) (d : Nat) (o : Origin) (code : Nat) : State :=
  s.raiseAt d o.core code o.off o.thread o.word

/-- A completion counts in its tag, which saturates at 1,023 (R79). -/
def State.countTag (s : State) (d : Nat) (o : Origin) : State :=
  if o.tag = 0 then s
  else s.modThread d o.core o.thread (fun t => { t with tags := t.tags.put o.tag (min 1023 (t.tags.getD o.tag 0 + 1)) })

end Sys2Proof.Machine
end

