-- ==== Sys2Proof/Machine/Flags.lean ====
section
/-! DEFINITION. Counts that steps keep: the programmable counters (R474 to R476) and the records of the trace
halves (R481). -/
namespace Sys2Proof.Machine

/-- A counter adds `n`, wrapping modulo 2^48 and setting OVF on a wrap (R474). -/
def Cnt.add (k : Cnt) (n : Nat) : Cnt :=
  { k with count := (k.count + n) % 2 ^ 48, ovf := k.ovf || decide (2 ^ 48 ≤ k.count + n) }

/-- An event `e` of core `c` presents the count `n` in one cycle: level counters of that event add it, once counting has started. -/
def Die.bump (x : Die) (c e n : Nat) : Die :=
  { x with obs := if x.obs.held then x.obs else { x.obs with cnts := x.obs.cnts.mapVal (fun i k =>
      if i / 16 = c && k.enable && ! k.edge && k.event = e then k.add n else k) } }

/-- A die-wide event counts on both cores. -/
def Die.bumpBoth (x : Die) (e n : Nat) : Die := (x.bump 0 e n).bump 1 e n

abbrev evCycles : Nat := 0x01
abbrev evVectors : Nat := 0x02
abbrev evFlips : Nat := 0x05
abbrev evIssue : Nat := 0x07
abbrev evLines : Nat := 0x0C
abbrev evReread : Nat := 0x0D
abbrev evRetx : Nat := 0x10
abbrev evMarked : Nat := 0x20
abbrev evShared : Nat := 0x21
abbrev evRefused : Nat := 0x22

/-- Admission to a queue of the die (R216): every item that is refused counts in QPL_REFUSED (R475), whoever offers it. -/
def Die.admission (x : Die) (q n : Nat) (key : Nat × Nat) (k : Nat) : Die × Admit :=
  let a := x.pool.admission q n key k
  let y : Die := { x with pool := a.1 }
  (if a.2 = .admitted then y else y.bumpBoth evRefused 1, a.2)

/-- Events that single steps of the model present, so that a level counter counts them exactly; every other count
depends on cycles and is free (log 3). -/
def countedEvent (e : Nat) : Bool :=
  [0x00, evVectors, evFlips, evIssue, evLines, evReread, evRetx, evMarked,
   evShared, evRefused].contains e

def Half.source (h : Half) : Nat := bits h.cfg 62 60
def Half.start (h : Half) : Nat := bits h.cfg 59 58
def Half.startT (h : Half) : Nat := bits h.cfg 57 55
def Half.stop (h : Half) : Nat := bits h.cfg 54 53
def Half.stopT (h : Half) : Nat := bits h.cfg 52 50
def Half.core (h : Half) : Nat := bits h.cfg 49 49
def Half.classes (h : Half) : Nat := bits h.cfg 47 44
def Half.dirs (h : Half) : Nat := bits h.cfg 43 41

/-- Write one 32-byte record (R481): in address order; with STOP = FULL the half stops at its last record, else it
wraps. -/
def Half.record (h : Half) (r : Bytes) : Half :=
  if ! h.run then h
  else if h.next = 4095 then
    if h.stop = 0 then { h with recs := h.recs.put 4095 r, run := false }
    else { h with recs := h.recs.put 4095 r, next := 0, wrapped := true }
  else { h with recs := h.recs.put h.next r, next := h.next + 1 }

def Die.modHalf (x : Die) (h : Nat) (f : Half → Half) : Die :=
  if h = 0 then { x with obs := { x.obs with half0 := f x.obs.half0 } }
  else { x with obs := { x.obs with half1 := f x.obs.half1 } }

/-- The first eight bytes of a trace record: TURN and CYCLE. -/
def traceHead (turn cycle : Nat) : Bytes := leBytes 6 (turn % 2 ^ 48) ++ leBytes 2 (cycle % 16384)

/-- SEQ trace: each half that traces core `c` records an issued word (R481). -/
def State.traceSeq (s : State) (d c t : Nat) (w : W64) (word : Nat) : State :=
  let x := s.die d
  let on := fun (h : Half) => h.run && h.source = 1 && h.core = c
  if ! (on x.obs.half0 || on x.obs.half1) then s else
  let (k, s1) := s.fresh
  let r := traceHead s.turn (Config.freeCycle k % 16384) ++ leBytes 8 w.toNat ++ leBytes 1 t ++ leBytes 1 c ++
    leBytes 4 word ++ List.replicate 10 0
  let f := fun (h : Half) => if on h then h.record r else h
  s1.modDie d (fun x => (x.modHalf 0 f).modHalf 1 f)

/-- FAB trace: a packet injected (0), ejected (1) or in transit (2) at a die (R481). -/
def State.traceFab (s : State) (d dir port cls routeWord : Nat) (trans : Bytes) : State :=
  let x := s.die d
  let on := fun (h : Half) => h.run && h.source = 2 && h.classes.testBit cls && h.dirs.testBit dir
  if ! (on x.obs.half0 || on x.obs.half1) then s else
  let (k, s1) := s.fresh
  let r := traceHead s.turn (Config.freeCycle k % 16384) ++ leBytes 8 routeWord ++ sliceAt trans 0 8 ++
    leBytes 1 dir ++ leBytes 1 port ++ List.replicate 6 0
  let f := fun (h : Half) => if on h then h.record r else h
  s1.modDie d (fun x => (x.modHalf 0 f).modHalf 1 f)

end Sys2Proof.Machine
end

