-- ==== Sys2Proof/Machine/MemOps.lean ====
section
/-! DEFINITION. Writes that land in a die's memory, as the whisk's byte counters and exponent monitors see them
(R344), and verified reads that raise against a course. -/
namespace Sys2Proof.Machine

/-! ### Fields of a plan (R334) -/

def Bind.kind (b : Bind) : Nat := bits (leAt b.plan 0x002 1) 3 0
def Bind.perDie (b : Bind) : Bool := bitAt (leAt b.plan 0x002 1) 4
def Bind.algo (b : Bind) : Nat := bits (leAt b.plan 0x002 1) 6 5
def Bind.arrival (b : Bind) : Bool := bitAt (leAt b.plan 0x002 1) 7
def Bind.eager (b : Bind) : Bool := bitAt (leAt b.plan 0x003 1) 0
/-- WIRE: true for FP32, false for BS8. -/
def Bind.wireF32 (b : Bind) : Bool := bitAt (leAt b.plan 0x003 1) 1
def Bind.sr (b : Bind) : Bool := bitAt (leAt b.plan 0x003 1) 2
def Bind.srcFmt (b : Bind) : Nat := bits (leAt b.plan 0x004 1) 3 0
def Bind.outFmt (b : Bind) : Nat := bits (leAt b.plan 0x004 1) 7 4
def Bind.headroom (b : Bind) : Nat := bits (leAt b.plan 0x005 1) 3 0
def Bind.opt (b : Bind) : Nat := leAt b.plan 0x006 1
def Bind.pbase (b : Bind) : Nat := leAt b.plan 0x007 1
def Bind.switch (b : Bind) : Nat := if leAt b.plan 0x008 4 = 0 then 262144 else leAt b.plan 0x008 4
def Bind.timeout (b : Bind) : Nat := if leAt b.plan 0x00C 2 = 0 then 64 else leAt b.plan 0x00C 2
def Bind.scale (b : Bind) : Nat := leAt b.plan 0x010 4
def Bind.dieSet (b : Bind) : Nat := leAt b.plan 0x018 8
def Bind.rankBit (b : Bind) (r : Nat) : Bool := bitAt (leAt b.plan (0x040 + r / 8) 1) (r % 8)
def Bind.ranks (b : Bind) : List Nat :=
  (sliceAt b.plan 0x040 2048).zipIdx.flatMap (fun p => ((List.range 8).filter (fun i => p.1.toNat.testBit i)).map (fun i => 8 * p.2 + i))
def Bind.diesOf (b : Bind) : List Nat := (List.range 52).filter (fun n => b.dieSet.testBit n)

/-- Size of a source element: BF16 or FP32. -/
def Bind.srcSize (b : Bind) : Nat := if b.srcFmt = 8 then 2 else 4
/-- Size of an output element. -/
def Bind.outSize (b : Bind) : Nat := if b.outFmt = 8 || b.outFmt = 9 then 2 else if b.outFmt = 10 then 4 else 1
/-- Elements of the bucket (R338). -/
def Bind.elems (b : Bind) : Nat := b.size / b.srcSize
/-- Elements of a chunk (R346). -/
def Bind.chunkElems (b : Bind) : Nat := if b.wireF32 then 8192 else 32768
/-- Chunks of the bucket (R346). -/
def Bind.chunks (b : Bind) : Nat := (b.elems + b.chunkElems - 1) / b.chunkElems

/-! ### Landing writes -/

/-- The exponent byte of one element (R344): its exponent field is 0xFF for NaN and Inf, 0 for a zero or a
magnitude below 2^-126, and floor(log2) + 127 otherwise. -/
def exponentByte (fmt v : Nat) : Nat := if fmt = 8 then bits v 14 7 else bits v 30 23

/-- The monitor takes the exponent bytes of `k` elements from element `i` on. -/
def monitorElems (b : Bind) (m : Mem) : Nat → Nat → Tab Nat → Tab Nat
  | 0, _, t => t
  | k + 1, i, t =>
    let e := exponentByte b.srcFmt (leNat b.srcSize (m.readN (b.src + i * b.srcSize) b.srcSize))
    let c := i / b.chunkElems
    monitorElems b m k (i + 1) (if t.getD c 0 < e then t.put c e else t)

/-- A FILLING instance counts a write of `n` bytes that landed at `a` in its SRC (R344). -/
def Inst.land (i : Inst) (m : Mem) (a n : Nat) : Inst :=
  let lo := max a i.bind.src
  let hi := min (a + n) (i.bind.src + i.bind.size)
  if i.state ≠ 1 || hi ≤ lo || i.bind.kind = 2 then i
  else
    let e0 := (lo - i.bind.src) / i.bind.srcSize
    let e1 := (hi - 1 - i.bind.src) / i.bind.srcSize
    { i with count := min i.bind.size (i.count + (hi - lo))
             monitor := if i.bind.wireF32 then i.monitor else monitorElems i.bind m (e1 - e0 + 1) e0 i.monitor }

/-- A write has landed at `a`: every FILLING instance of the die counts it. -/
def Die.landed (x : Die) (a n : Nat) : Die :=
  { x with whisk := { x.whisk with insts := x.whisk.insts.mapVal (fun _ i => i.land x.mem.cells a n) } }

/-- A consumer is done with the blocks of a span (R193). -/
def Die.forget (x : Die) (u : Consumer) (a n : Nat) : Die := { x with mem := x.mem.forget u a n }

/-- The consumer is done with the blocks and granules of these spans: each whose re-read supplied the data counts one re-read, for
the ladle also in LDL_ERR, and failed reads of them no longer count (R193, R195, R475). `core` runs the consumer. -/
def Die.readDone (x : Die) (u : Consumer) (core : Option Nat) (spans : List (Nat × Nat)) : Die :=
  let r := spans.foldl (fun (p : MemUnit × Nat) e => (p.1.forget u e.1 e.2, p.2 + p.1.redone u e.1 e.2)) (x.mem, 0)
  let y : Die := { x with
    mem := r.1
    ladle := match u with
      | .ladle _ => { x.ladle with rereads := satAdd 32 x.ladle.rereads r.2 }
      | _ => x.ladle }
  match core with
  | some c => y.bump (c % 2) evReread r.2
  | none => y

/-- Write pantry bytes and let them land. -/
def Die.panPut (x : Die) (a : Nat) (bs : Bytes) : Die :=
  ({ x with mem := x.mem.panWrite a bs } : Die).landed a bs.length

/-- A write of pantry bytes by a unit of the die: the bytes of a FROZEN region stay as they are, whatever the write, and the unit
goes on (R170, R188; DESIGN CHOICE, log 183). -/
def Die.panStore (x : Die) (a : Nat) (bs : Bytes) : Die :=
  if ! x.mem.frozen a bs.length then x.panPut a bs
  else (blocksOf a bs).foldl (fun y e => if y.mem.frozen e.1 4096 then y else e.2.foldl (fun y p => y.panPut (e.1 + p.1) p.2) y) x

def State.panStore (s : State) (d a : Nat) (bs : Bytes) : State := s.modDie d (fun x => x.panStore a bs)

/-- Read pantry bytes for a unit that works for a course: errors are counted, and an uncorrectable word stops the
course with PAN_UNCORRECTABLE while the bytes are delivered as read (R180). -/
def State.panLoad (s : State) (d : Nat) (o : Origin) (a n : Nat) : State × Bytes :=
  let x := s.die d
  let bs := x.mem.cells.readN a n
  let r := x.mem.panScan a n
  let s1 := s.setDie d { x with mem := r.1 }
  (if r.2 then s1.raise d o Code.panUncorrectable else s1, bs)

/-- Count errors over several spans of one command's pantry reads. -/
def State.panScans (s : State) (d : Nat) (o : Origin) (spans : List (Nat × Nat)) : State :=
  spans.foldl (fun s p => (s.panLoad d o p.1 p.2).1) s

/-- A fault of the ladle: counted, its address recorded, and raised against the run's course (R193, R210). -/
def State.ladleFault (s : State) (d : Nat) (o : Origin) (addr code : Nat) : State :=
  let s1 := s.modDie d (fun x => { x with ladle := { x.ladle with faults := satAdd 16 x.ladle.faults 1, faultAddr := addr } })
  s1.raise d o code

end Sys2Proof.Machine
end

