-- ==== Sys2Proof/Machine/Operands.lean ====
section
/-! DEFINITION. Operands of course words: the common fields of R81, the listed BODY bits of each operation, the
queues a word enters (R78, R101, R110), and the issue of a word by the sequencer (R78, R83). -/
namespace Sys2Proof.Machine

def wUnit (w : W64) : Nat := bits w.toNat 63 60
def wOp (w : W64) : Nat := bits w.toNat 59 54
def wTag (w : W64) : Nat := bits w.toNat 53 50
def wTicket (w : W64) : Nat := bits w.toNat 49 46
/-- BODY bits `hi` to `lo`. -/
def wField (w : W64) (hi lo : Nat) : Nat := bits w.toNat hi lo
def wBit (w : W64) (i : Nat) : Bool := w.toNat.testBit i

/-- Mask of bits `hi` to `lo`. -/
def maskOf (hi lo : Nat) : Nat := (2 ^ (hi + 1 - lo) - 1) * 2 ^ lo

/-- Every BODY bit outside the mask is zero: the reserved fields of the word. -/
def bodyOk (w : W64) (mask : Nat) : Bool := (bits w.toNat 45 0) &&& (maskOf 45 0 - (mask &&& maskOf 45 0)) = 0

/-- The operations of each unit (R82, R100, R142, R198, R302, R343, R381, R477). -/
def opKnown (u o : Nat) : Bool :=
  match u with
  | 0 => decide (o ≤ 8)
  | 1 => [1, 2, 3, 4, 5, 8, 0x10, 0x11, 0x18].contains o
  | 2 => [0x01, 0x08, 0x09, 0x0A, 0x0B, 0x0C, 0x10, 0x14, 0x15, 0x16, 0x17, 0x1C, 0x1D, 0x1E, 0x1F, 0x20, 0x21, 0x22,
          0x23, 0x24, 0x25, 0x28, 0x29, 0x2A, 0x2B, 0x2C, 0x2D, 0x2E, 0x30, 0x31, 0x32, 0x34, 0x38].contains o
  | 3 => o = 1
  | 4 => o = 1 || o = 2 || o = 3
  | 5 => [1, 2, 3, 8, 9, 0xA, 0xB, 0xC, 0x10].contains o
  | 6 => o = 1 || o = 2
  | 7 => o = 1 || o = 2
  | _ => false

/-- The code that a unit raises for a word it cannot decode. -/
def decodeCode (u : Nat) : Nat :=
  match u with
  | 1 => Code.arrDecode
  | 2 => Code.vecDecode
  | 3 => Code.ldlDecode
  | 4 => Code.collDecode
  | 5 => Code.rmtDecode
  | 6 => Code.leaveDecode
  | 7 => Code.cntDecode
  | _ => Code.courseDecode

/-- Arrays whose queues a LOAD_W or FLIP addressed to `a` enters in a gang mode (R110). -/
def gangArrays (mode a : Nat) : List Nat :=
  match mode with
  | 0 => [a]
  | 1 | 2 | 3 => [a / 2 * 2, a / 2 * 2 + 1]
  | _ => [0, 1, 2, 3]

/-- Arrays whose stream queues a MATMUL addressed to `a` enters in a gang mode (R110). -/
def streamArrays (mode a : Nat) : List Nat :=
  match mode with
  | 0 | 1 | 4 => [a]
  | 2 | 3 => [a / 2 * 2, a / 2 * 2 + 1]
  | _ => [0, 1, 2, 3]

/-- Open groups that an array of a core holds (R165). -/
def Gang.openOn (g : Gang) (a : Nat) : Nat := (g.openGroups.filter (fun o => o.array = a)).length

def Gang.stream (g : Gang) (i : Nat) : Stream := if i = 0 then g.streamF else g.streamB
def Gang.setStream (g : Gang) (i : Nat) (v : Stream) : Gang := if i = 0 then { g with streamF := v } else { g with streamB := v }

/-- R165: the array of the core to which the group that a LOAD_W of stream `i` opens would be bound. The stream's previous
group closes with the issue of this LOAD_W; while the binding is made it still counts as open, even when all its vectors
have entered (DESIGN CHOICE, log 90). -/
def Gang.bindTo (g : Gang) (i : Nat) : Option Nat :=
  let n0 := g.openOn 0
  let n1 := g.openOn 1
  if 2 ≤ n0 && 2 ≤ n1 then none
  else if n0 < n1 then some 0
  else if n1 < n0 then some 1
  else some ((g.stream i).array.getD 0)

/-! ### Requests that hold back their unit (R297, R309) -/

def Req.key (r : Req) : Nat := 64 * r.rank + r.die

/-- Two requests belong to the same unit: a thread, or a channel of the ladle (R309). -/
def Req.sameUnit (r q : Req) : Bool :=
  match r.owner, q.owner with
  | .thread o, .thread p => o.core = p.core && o.thread = p.thread
  | .ladle c _ _, .ladle e _ _ => c = e
  | _, _ => false

/-- A new request may take its number: its session is not idle for 100 turns or more, or an entry is free (R309). -/
def Die.sessionOk (x : Die) (key : Nat) : Bool :=
  match x.rem.src.find key with
  | some e => decide (e.idle < 100)
  | none => decide (x.rem.src.length < 8192)

/-- Flits that the four pairs of a die carry in a turn at full rate (R242): 16 lanes of 128 Gb/s after the codes, 2,048 bits a
flit, less the idle frames of R241. -/
abbrev dieFlits : Nat := 38475

/-- The limit of R297 lets one more new REQ packet be handed over. The model keeps no clock inside a turn, so it counts the
packets of the turn (DESIGN CHOICE, log 110). -/
def Fabric.rateOpen (f : Fabric) : Bool := decide (16 ≤ f.rate) || decide (16 * f.handed < f.rate * dieFlits)

/-- A request of the thread waits for a session entry or for the limit: the thread is not ready (R78, R297, R309). -/
def Die.threadHeld (x : Die) (c t : Nat) : Bool :=
  x.rem.reqs.any (fun r => ! r.sent && ! r.numbered && (! x.sessionOk r.key || ! x.fab.rateOpen) && (match r.owner with
    | .thread o => o.core = c && o.thread = t
    | .ladle _ _ _ => false))

/-- The queue of the addressed unit has room for the word (R78, R101, R141, R165, R197, R317). -/
def Die.hasRoom (x : Die) (c : Nat) (w : W64) (skillet : Bool) : Bool :=
  let a := wField w 45 44
  match wUnit w with
  | 1 =>
    if (x.gang c).pending.isSome then false
    else match wOp w with
      | 0x10 =>
        if skillet then
          match (x.gang c).bindTo (a % 2) with
          | some k => (x.arr (2 * c + k)).wq.length < 16
          | none => false
        else (gangArrays (x.gang c).mode a).all (fun b => (x.arr b).wq.length < 16)
      | 0x11 =>
        if skillet then (x.arr (2 * c + ((x.gang c).stream (a % 2)).array.getD 0)).sq.length < 16
        else (gangArrays (x.gang c).mode a).all (fun b => (x.arr b).sq.length < 16)
      | 0x18 =>
        if skillet then (x.arr (2 * c + ((x.gang c).stream (a % 2)).array.getD 0)).sq.length < 16
        else (streamArrays (x.gang c).mode a).all (fun b => (x.arr b).sq.length < 16)
          && (! wBit w 25 || (x.arr (a / 2 * 2 + (1 - a % 2))).wq.length < 16)
      | _ => true
  | 2 => wOp w = 1 || (x.vec c).queue.length < 16
  | 3 => wOp w ≠ 1 || (x.chan (wField w 45 44)).cq.length < 16
  | 5 => x.rem.reqs.length + 20 ≤ 16384
  | _ => true

/-- The sequencer's core runs a Skillet menu. -/
def State.skilletOn (s : State) (d c : Nat) : Bool :=
  match ((s.die d).seq c).menu with
  | some id => match s.menu id with
    | some m => m.skillet
    | none => false
  | none => false

/-- A local SEND whose queue would refuse its item as full is not ready (R217). -/
def Die.sendHeld (x : Die) (c : Nat) (w : W64) : Bool :=
  if wUnit w ≠ 5 || wOp w ≠ 0xB then false else
  let a := (x.seq c).raddr.getD (wField w 45 42) 0
  let q := bits a 9 0
  if x.fab.selfValid && bits a 63 50 = x.fab.rank && bits a 49 44 = x.standsFor && bits a 43 40 = 1
      && bits a 39 10 = 0 && bodyOk w (maskOf 45 9) && wTicket w = 0
      && spanPlace (pantryBase + 64 * wField w 41 21) (wField w 20 9 + 1) = some .pantry then
    decide ((x.pool.admission q ((wField w 20 9 + 64) / 64) (0, 0) 0).2 = .full)
  else false

/-- The thread waits with this word, a local SEND whose queue is full: the attempt counts as a refusal (R216, R217). -/
def Die.sendRefused (x : Die) (c t : Nat) (w : W64) : Bool :=
  let q := x.seq c
  let th := q.thread t
  q.running && ! q.stopped && th.started && th.wait = .ready && q.words[th.pc]? = some w && x.sendHeld c w

/-- The pool after a refused local SEND: REFUSED and, without a shared cell, EXHAUSTED rise. -/
def Die.countRefused (x : Die) (c : Nat) (w : W64) : Die :=
  (x.admission (bits ((x.seq c).raddr.getD (wField w 45 42) 0) 9 0) ((wField w 20 9 + 64) / 64) (0, 0) 0).1

/-- A thread is ready (R78): started, waiting for nothing, no request of it held back, and its next word can enter its unit. -/
def Die.ready (x : Die) (c t : Nat) (skillet : Bool) : Bool :=
  let q := x.seq c
  let th := q.thread t
  th.started && th.wait = .ready && ! x.threadHeld c t &&
    match q.words[th.pc]? with
    | some w => x.hasRoom c w skillet && ! x.sendHeld c w
    | none => false

/-- The first of the ready threads in round-robin order after the one that issued last (R78). -/
def Die.pick (x : Die) (c : Nat) (skillet : Bool) : Option Nat :=
  ((List.range 16).map (fun i => ((x.seq c).last + 1 + i) % 16)).find? (fun t => x.ready c t skillet)

/-- Thread `t` of the core issues the word `w` now (R78). -/
def State.canIssue (s : State) (d c t : Nat) (w : W64) : Bool :=
  let x := s.die d
  let q := x.seq c
  q.running && ! q.stopped && decide (x.pick c (s.skilletOn d c) = some t) && q.words[(q.thread t).pc]? = some w

/-- A thread that is ready to go on with no word left runs off its course (R83). -/
def State.runOff (s : State) (d c t : Nat) : State :=
  let q := (s.die d).seq c
  let th := q.thread t
  if q.running && ! q.stopped && th.started && th.wait = .ready && decide (q.words.length ≤ th.pc) then
    s.raiseAt d c Code.courseDecode q.off t th.pc
  else s

/-- The sequencer takes the word: the issuing thread steps past it, and the issue is counted and traced. -/
def State.takeWord (s : State) (d c t : Nat) (w : W64) : State :=
  let pc := (((s.die d).seq c).thread t).pc
  (s.modDie d (fun x => ((x.modSeq c (fun q => { (q.modThread t (fun th => { th with pc := pc + 1 })) with last := t }))).bump
    c evIssue 1)).traceSeq d c t w pc

/-- The origin of the word that thread `t` issues next. -/
def State.originOf (s : State) (d c t : Nat) (w : W64) : Origin :=
  let q := (s.die d).seq c
  { core := c, thread := t, word := (q.thread t).pc, off := q.off, tag := wTag w, ticket := wTicket w }

/-- Issue word `w` as operation `op` of `unit` (R78, R83). When the thread cannot issue this word now, nothing
happens (log 1). A word of no operation raises its unit's decode code; a word of another operation is not this
command's. Otherwise `act` is the word's effect, after the thread has stepped past it. -/
def State.issue (s : State) (d c t : Nat) (w : W64) (unit op : Nat) (act : State → Origin → State) : State :=
  if ! s.canIssue d c t w then s
  else
    let o := s.originOf d c t w
    if ! opKnown (wUnit w) (wOp w) then (s.takeWord d c t w).raise d o (decodeCode (wUnit w))
    else if wUnit w ≠ unit || wOp w ≠ op then s
    else (act (s.takeWord d c t w) o).runOff d c t

end Sys2Proof.Machine
end

