-- ==== Sys2Proof/Machine/Arith.lean ====
section
/-! DEFINITION. Arithmetic of chapter 04: element formats, exact sums and products, FP32 operations with one rounding,
the exact accumulator, narrowing writes and seeded stochastic rounding. -/
namespace Sys2Proof.Machine

/-- A value: NaN, an infinity, or a signed mantissa times a power of two; a zero keeps its sign. -/
inductive FVal where
  | nan
  | inf (neg : Bool)
  | fin (neg : Bool) (m : Nat) (e : Int)
  deriving DecidableEq, Repr

/-- An element format of R125: exponent and mantissa bits, bias, largest finite code, NaN code (0 when none) and
Inf code (0 when none). -/
structure FloatFmt where
  ebits : Nat
  mbits : Nat
  bias : Nat
  maxCode : Nat
  nan : Nat
  inf : Nat
  deriving DecidableEq, Repr

abbrev fmtE4M3 : FloatFmt := ⟨4, 3, 7, 0x7E, 0x7F, 0⟩
abbrev fmtE5M2 : FloatFmt := ⟨5, 2, 15, 0x7B, 0x7F, 0x7C⟩
abbrev fmtE2M3 : FloatFmt := ⟨2, 3, 1, 0x1F, 0, 0⟩
abbrev fmtE3M2 : FloatFmt := ⟨3, 2, 3, 0x1F, 0, 0⟩
abbrev fmtE2M1 : FloatFmt := ⟨2, 1, 1, 0x7, 0, 0⟩
abbrev fmtBF16 : FloatFmt := ⟨8, 7, 127, 0x7F7F, 0x7FC0, 0x7F80⟩
abbrev fmtFP16 : FloatFmt := ⟨5, 10, 15, 0x7BFF, 0x7E00, 0x7C00⟩
abbrev fmtFP32 : FloatFmt := ⟨8, 23, 127, 0x7F7FFFFF, 0x7FC00000, 0x7F800000⟩

/-- The float format of a FMT code (R92); INT8 and WIDE are apart. -/
def floatOf (fmt : Nat) : FloatFmt :=
  match fmt with
  | 0 | 2 => fmtE4M3
  | 1 | 3 => fmtE5M2
  | 4 => fmtE2M3
  | 5 => fmtE3M2
  | 6 => fmtE2M1
  | 8 => fmtBF16
  | 9 => fmtFP16
  | _ => fmtFP32

/-- Bits of the sign position. -/
def FloatFmt.signBit (f : FloatFmt) : Nat := 2 ^ (f.ebits + f.mbits)

/-- Decode an element (R125). -/
def FloatFmt.decode (f : FloatFmt) (v : Nat) : FVal :=
  let neg := decide (f.signBit ≤ v % (2 * f.signBit))
  let c := v % f.signBit
  if f.inf ≠ 0 && c = f.inf then .inf neg
  else if c > f.maxCode && f.nan ≠ 0 then .nan
  else
    let ex := c / 2 ^ f.mbits
    let ma := c % 2 ^ f.mbits
    if ex = 0 then .fin neg ma (1 - (f.bias : Int) - f.mbits)
    else .fin neg (2 ^ f.mbits + ma) ((ex : Int) - f.bias - f.mbits)

/-- Floor of the base-2 logarithm of a non-zero number. -/
def ilog2 (n : Nat) : Nat := Nat.log2 n

/-- Multiply by a power of two and round to an integer: to nearest with ties to even, or, with random bits, up when
the first 24 discarded bits and the random bits carry (R138). -/
def scaleRound (m : Nat) (s : Int) (sr : Option Nat) : Nat :=
  if 0 ≤ s then m * 2 ^ s.toNat
  else
    let k := (-s).toNat
    let q := m / 2 ^ k
    let r := m % 2 ^ k
    match sr with
    | some rnd => if 2 ^ 24 ≤ r * 2 ^ 24 / 2 ^ k + rnd then q + 1 else q
    | none => if 2 ^ k < 2 * r || (2 ^ k = 2 * r && q % 2 = 1) then q + 1 else q

/-- The code of a rounded magnitude m · 2^e in a format, on the subnormal grid below the smallest normal; it may
exceed the largest finite code (R136 step 3). -/
def FloatFmt.roundMag (f : FloatFmt) (m : Nat) (e : Int) (sr : Option Nat) : Nat :=
  if m = 0 then 0 else
  let emin : Int := 1 - f.bias
  let ex := max ((ilog2 m : Int) + e) emin
  let u := ex - f.mbits
  (ex - emin).toNat * 2 ^ f.mbits + scaleRound m (e - u) sr

/-- FP32 bits of a value, rounded once with RNE; an exact zero is +0 and an overflow is Inf (R126, R130). -/
def toF32 (v : FVal) : Nat :=
  match v with
  | .nan => fmtFP32.nan
  | .inf n => (if n then 2 ^ 31 else 0) + fmtFP32.inf
  | .fin n m e =>
    if m = 0 then 0 else
    let c := min (fmtFP32.roundMag m e none) fmtFP32.inf
    (if n then 2 ^ 31 else 0) + c

def ofF32 (v : Nat) : FVal := fmtFP32.decode v

def FVal.neg : FVal → FVal
  | .nan => .nan
  | .inf n => .inf (! n)
  | .fin n m e => .fin (! n) m e

def FVal.isNan : FVal → Bool
  | .nan => true
  | _ => false

def FVal.isZero : FVal → Bool
  | .fin _ m _ => m = 0
  | _ => false

/-- The integer that a finite value is, in units of 2^u for u at or below its exponent. -/
def finUnits (n : Bool) (m : Nat) (e u : Int) : Int :=
  let k : Int := ((m * 2 ^ (e - u).toNat : Nat) : Int)
  if n then -k else k

/-- A finite value from units of 2^u. -/
def ofUnits (i u : Int) : FVal := .fin (decide (i < 0)) i.natAbs u

/-- Exact sum (R131: Inf plus -Inf is NaN). -/
def FVal.add (a b : FVal) : FVal :=
  match a, b with
  | .nan, _ => .nan
  | _, .nan => .nan
  | .inf x, .inf y => if x = y then .inf x else .nan
  | .inf x, _ => .inf x
  | _, .inf y => .inf y
  | .fin x m e, .fin y n f => let u := min e f; ofUnits (finUnits x m e u + finUnits y n f u) u

/-- Exact product (R129); Inf times zero is NaN. -/
def FVal.mul (a b : FVal) : FVal :=
  match a, b with
  | .nan, _ => .nan
  | _, .nan => .nan
  | .inf x, .inf y => .inf (x != y)
  | .inf x, .fin y n _ => if n = 0 then .nan else .inf (x != y)
  | .fin x m _, .inf y => if m = 0 then .nan else .inf (x != y)
  | .fin x m e, .fin y n f => .fin (x != y) (m * n) (e + f)

/-- Multiply by 2^k exactly. -/
def FVal.scale (a : FVal) (k : Int) : FVal :=
  match a with
  | .fin n m e => .fin n m (e + k)
  | v => v

/-- Sum of a list, exact. -/
def FVal.sum (l : List FVal) : FVal := l.foldl FVal.add (.fin false 0 0)

/-- a < b as numbers, with -0 below +0 (R147); false when either is NaN. -/
def FVal.lt (a b : FVal) : Bool :=
  match a, b with
  | .nan, _ => false
  | _, .nan => false
  | .inf x, .inf y => x && ! y
  | .inf x, _ => x
  | _, .inf y => ! y
  | .fin x m e, .fin y n f =>
    if m = 0 && n = 0 then x && ! y
    else let u := min e f; decide (finUnits x m e u < finUnits y n f u)

/-- x > 0. -/
def FVal.pos (a : FVal) : Bool :=
  match a with
  | .inf n => ! n
  | .fin n m _ => ! n && m != 0
  | .nan => false

/-! ### FP32 operations (R147) -/

def f32add (a b : Nat) : Nat := toF32 ((ofF32 a).add (ofF32 b))
def f32neg (a : Nat) : Nat := toF32 (ofF32 a).neg
def f32sub (a b : Nat) : Nat := toF32 ((ofF32 a).add (ofF32 b).neg)
def f32mul (a b : Nat) : Nat := toF32 ((ofF32 a).mul (ofF32 b))
/-- fma rounds once. -/
def f32fma (a b c : Nat) : Nat := toF32 (((ofF32 a).mul (ofF32 b)).add (ofF32 c))

/-- Maximum of two: NaN if either is NaN; a zero result is +0 (R126). -/
def f32max (a b : Nat) : Nat :=
  if (ofF32 a).isNan || (ofF32 b).isNan then fmtFP32.nan
  else if (ofF32 a).lt (ofF32 b) then toF32 (ofF32 b) else toF32 (ofF32 a)

/-- Correctly rounded quotient, special values per IEEE 754. -/
def f32div (a b : Nat) : Nat :=
  match ofF32 a, ofF32 b with
  | .nan, _ => fmtFP32.nan
  | _, .nan => fmtFP32.nan
  | .inf _, .inf _ => fmtFP32.nan
  | .inf x, .fin y _ _ => toF32 (.inf (x != y))
  | .fin _ _ _, .inf _ => 0
  | .fin x m e, .fin y n f =>
    if n = 0 then (if m = 0 then fmtFP32.nan else toF32 (.inf (x != y)))
    else
      let q := m * 2 ^ 64 / n
      let sticky := if m * 2 ^ 64 % n = 0 then 0 else 1
      toF32 (.fin (x != y) (2 * q + sticky) (e - f - 65))

/-- Integer square root by bits: `k` bits of the root, from the top. -/
def isqrtGo (n : Nat) : Nat → Nat → Nat
  | 0, r => r
  | k + 1, r => let c := r + 2 ^ k; if c * c ≤ n then isqrtGo n k c else isqrtGo n k r

def isqrt (n : Nat) : Nat := isqrtGo n (ilog2 n / 2 + 1) 0

/-- Correctly rounded square root. -/
def f32sqrt (a : Nat) : Nat :=
  match ofF32 a with
  | .nan => fmtFP32.nan
  | .inf n => if n then fmtFP32.nan else fmtFP32.inf
  | .fin n m e =>
    if m = 0 then 0
    else if n then fmtFP32.nan
    else
      let k := if e % 2 = 0 then m * 2 ^ 64 else m * 2 ^ 65
      let f : Int := if e % 2 = 0 then e - 64 else e - 65
      let r := isqrt k
      toF32 (.fin false (2 * r + if r * r = k then 0 else 1) (f / 2 - 1))

/-- Correctly rounded 1/sqrt. -/
def f32rsqrt (a : Nat) : Nat :=
  match ofF32 a with
  | .nan => fmtFP32.nan
  | .inf n => if n then fmtFP32.nan else 0
  | .fin n m e =>
    if m = 0 then toF32 (.inf n)
    else if n then fmtFP32.nan
    else
      let m2 := if e % 2 = 0 then m else 2 * m
      let e2 : Int := if e % 2 = 0 then e else e - 1
      let r := isqrt (2 ^ 128 / m2)
      toF32 (.fin false (2 * r + if r * r * m2 = 2 ^ 128 then 0 else 1) (-64 - e2 / 2 - 1))

/-! exp and erf are bracketed in fixed point with 256 fractional bits: when both ends of the bracket round to one
FP32 value, that is the correctly rounded result (R147); otherwise the value is free (log 14). -/

abbrev fixBits : Nat := 256

/-- Sum of the first terms of the exponential series at y, each rounded down. -/
def expTaylor (y : Nat) : Nat → Nat → Nat → Nat → Nat
  | 0, _, _, acc => acc
  | k + 1, i, t, acc => let t' := t * y / (i * 2 ^ fixBits); expTaylor y k (i + 1) t' (acc + t')

/-- Square `k` times, rounding down, or up by one when `up`. -/
def squareGo (up : Nat) : Nat → Nat → Nat
  | 0, v => v
  | k + 1, v => squareGo up k (v * v / 2 ^ fixBits + up)

/-- Both ends of a bracket in units of 2^-256, rounded to FP32 and compared. -/
def decideF32 (neg : Bool) (lo hi fallback : Nat) : Nat :=
  let a := toF32 (.fin neg lo (-(fixBits : Int)))
  let b := toF32 (.fin neg hi (-(fixBits : Int)))
  if a = b then a else fallback

/-- Correctly rounded exp. -/
def f32exp (a : Nat) : Nat :=
  match ofF32 a with
  | .nan => fmtFP32.nan
  | .inf n => if n then 0 else fmtFP32.inf
  | .fin n m e =>
    let x := (m * 2 ^ 276) / 2 ^ (276 + e.natAbs) -- magnitude rounded down, used for the range test only
    let big := if 0 ≤ e then m * 2 ^ e.toNat else x
    if 105 ≤ big then (if n then 0 else fmtFP32.inf)
    else
      let y := if 0 ≤ e - 10 + fixBits then m * 2 ^ (e - 10 + fixBits).toNat else 0
      let l := expTaylor y 40 1 (2 ^ fixBits) (2 ^ fixBits)
      let lo := squareGo 0 10 l
      let hi := squareGo 1 10 (l + 100)
      if n then decideF32 false (2 ^ (2 * fixBits) / hi) (2 ^ (2 * fixBits) / lo + 1) (Config.expFallback a)
      else decideF32 false lo hi (Config.expFallback a)

/-- 2/sqrt(pi) in units of 2^-300, rounded down. -/
abbrev twoOverSqrtPi : Nat := 2298548958319901672615460685175353800383491471103661605170551642714553776506332151740828452

/-- Sums of the positive and the negative terms x^(2n+1)/(n! (2n+1)) of the error function's series. -/
def erfSeries (x2 : Nat) : Nat → Nat → Nat → Nat × Nat → Nat × Nat
  | 0, _, _, acc => acc
  | k + 1, n, t, (p, q) =>
    let term := t / (2 * n + 1)
    erfSeries x2 k (n + 1) (t * x2 / ((n + 1) * 2 ^ fixBits)) (if n % 2 = 0 then (p + term, q) else (p, q + term))

/-- Correctly rounded erf. -/
def f32erf (a : Nat) : Nat :=
  match ofF32 a with
  | .nan => fmtFP32.nan
  | .inf n => (if n then 2 ^ 31 else 0) + 0x3F800000
  | .fin n m e =>
    if m = 0 then 0
    else if 2 ≤ (ilog2 m : Int) + e then (if n then 2 ^ 31 else 0) + 0x3F800000
    else
      let x := m * 2 ^ (e + fixBits).toNat
      let s := erfSeries (x * x / 2 ^ fixBits) 160 0 x (0, 0)
      let v := s.1 - s.2
      let lo := (v - 2 ^ 40) * twoOverSqrtPi / 2 ^ 300
      let hi := (v + 2 ^ 40) * (twoOverSqrtPi + 1) / 2 ^ 300 + 1
      decideF32 n lo hi (Config.erfFallback a)

/-- sign (R149). -/
def f32sign (a : Nat) : Nat :=
  match ofF32 a with
  | .nan => fmtFP32.nan
  | .inf n => (if n then 2 ^ 31 else 0) + 0x3F800000
  | .fin n m _ => if m = 0 then 0 else (if n then 2 ^ 31 else 0) + 0x3F800000

/-! ### Elements with block scales (R127, R128) -/

def isMX (fmt : Nat) : Bool := decide (2 ≤ fmt) && decide (fmt ≤ 6)

/-- The value of an element with its E8M0 scale byte; a scale 0xFF is NaN (R127). -/
def elemVal (fmt bitsV scale : Nat) : FVal :=
  if fmt = 7 then ofUnits (signed 8 bitsV) 0
  else if isMX fmt then
    if scale = 0xFF then .nan else ((floatOf fmt).decode bitsV).scale ((scale : Int) - 127)
  else (floatOf fmt).decode bitsV

/-- An element as FP32 bits, its sign kept when it is a zero (R128, R147). R128 says that every element converts exactly and is
silent on an MX element whose value times its block scale lies beyond the FP32 range, such as 448 × 2^127: the model reads
it as an infinity (DESIGN CHOICE, log 187). -/
def elemF32 (fmt bitsV scale : Nat) : Nat :=
  match elemVal fmt bitsV scale with
  | .fin true 0 _ => 2 ^ 31
  | v => toF32 v

/-- Input class of a format (R93); none for output-only formats. -/
def classOf (fmt : Nat) : Option Nat :=
  match fmt with
  | 0 | 1 => some 0
  | 2 | 3 | 4 | 5 => some 1
  | 6 => some 2
  | 7 => some 3
  | 8 => some 4
  | 9 => some 5
  | _ => none

/-! ### The exact accumulator (R132 to R135) -/

/-- A column's wide register: the exact sum in units of 2^-112, its flags, and the sign of a seed that had RANGE
set (true for negative). -/
structure Wide where
  sum : Int := 0
  posInf : Bool := false
  negInf : Bool := false
  nan : Bool := false
  range : Option Bool := none
  deriving DecidableEq, Repr

/-- A term enters the register (R133). -/
def Wide.term (w : Wide) (v : FVal) : Wide :=
  match v with
  | .nan => { w with nan := true }
  | .inf n => if n then { w with negInf := true } else { w with posInf := true }
  | .fin n m e =>
    if m ≠ 0 && decide ((87 : Int) ≤ (ilog2 m : Int) + e) then
      if n then { w with negInf := true } else { w with posInf := true }
    else
      let k : Int := (scaleRound m (e + 112) none : Nat)
      { w with sum := w.sum + if n then -k else k }

abbrev wideMax : Int := 2 ^ 199 - 1
abbrev wideMin : Int := -(2 ^ 199)

/-- The side on which the column is out of range (true for negative), if it is (R134 case 3). -/
def Wide.outOfRange (w : Wide) : Option Bool :=
  match w.range with
  | some n => some n
  | none => if w.sum > wideMax then some false else if w.sum < wideMin then some true else none

/-- The column's FP32 value (R134). -/
def Wide.toF32 (w : Wide) : Nat :=
  if w.nan || (w.posInf && w.negInf) then fmtFP32.nan
  else if w.posInf then Machine.toF32 (.inf false)
  else if w.negInf then Machine.toF32 (.inf true)
  else match w.outOfRange with
    | some n => Machine.toF32 (.inf n)
    | none => Machine.toF32 (ofUnits w.sum (-112))

/-- The 32 bytes of a WIDE element (R134, R135). -/
def Wide.encode (w : Wide) : Bytes :=
  let value : Int := match w.outOfRange with
    | some true => wideMin
    | some false => wideMax
    | none => w.sum
  let flags := (if w.posInf then 1 else 0) + (if w.negInf then 2 else 0) + (if w.nan then 4 else 0) +
    (if w.outOfRange.isSome then 8 else 0)
  leBytes 25 (unsigned 200 value) ++ [BitVec.ofNat 8 flags] ++ List.replicate 6 0

/-- A WIDE element read as a seed or an operand (R133, R135). -/
def Wide.decode (bs : Bytes) : Wide :=
  let v := signed 200 (leNat 25 bs)
  let f := byteAt bs 25
  if bitAt f 3 then { sum := v, posInf := bitAt f 0, negInf := bitAt f 1, nan := bitAt f 2, range := some (decide (v < 0)) }
  else { sum := v, posInf := bitAt f 0, negInf := bitAt f 1, nan := bitAt f 2 }

/-! ### Seeded stochastic rounding (R139) -/

def mix64 (x : Nat) : Nat :=
  let x := x ^^^ (x >>> 30)
  let x := x * 0xBF58476D1CE4E5B9 % 2 ^ 64
  let x := x ^^^ (x >>> 27)
  let x := x * 0x94D049BB133111EB % 2 ^ 64
  x ^^^ (x >>> 31)

/-- The 24 random bits of an element (R139). -/
def srBits (jobSeed tensor index : Nat) : Nat :=
  let h := mix64 ((jobSeed ^^^ (tensor * 0x9E3779B97F4A7C15 % 2 ^ 64)) % 2 ^ 64)
  mix64 (h ^^^ index) >>> 40

/-! ### Narrowing writes (R136, R137) -/

/-- Narrow FP32 bits to a format other than MX: the code and whether it saturated (R136). -/
def narrow (f : FloatFmt) (v : Nat) (sr : Option Nat) (sat : Bool) : Nat × Bool :=
  let sg := fun (n : Bool) => if n then f.signBit else 0
  let overV := fun (n : Bool) =>
    if sat then (sg n + f.maxCode, true) else if f.inf = 0 then (f.nan, false) else (sg n + f.inf, false)
  match ofF32 v with
  | .nan => (f.nan, false)
  | .inf n => if f.inf = 0 then overV n else (sg n + f.inf, false)
  | .fin n m e =>
    if m = 0 then (0, false) else
    let c := f.roundMag m e sr
    if c > f.maxCode then overV n else (sg n + c, false)

/-- emax of R137. -/
def emaxOf (fmt : Nat) : Int :=
  match fmt with
  | 2 => 8
  | 3 => 15
  | 4 => 2
  | 5 => 4
  | _ => 2

/-- The larger of two magnitudes (m, e). -/
def magMax (a b : Nat × Int) : Nat × Int :=
  let u := min a.2 b.2
  if a.1 * 2 ^ (a.2 - u).toNat < b.1 * 2 ^ (b.2 - u).toNat then b else a

/-- Narrow a block of FP32 values to an MX format: the scale byte and the codes (R137). `rnd` gives the random bits
of the element at each place. -/
def narrowBlock (fmt : Nat) (vs : List Nat) (rnd : Nat → Option Nat) : Nat × List Nat :=
  let f := floatOf fmt
  let xs := vs.map ofF32
  if xs.any (fun x => match x with | .fin _ _ _ => false | _ => true) then (0xFF, vs.map (fun _ => 0))
  else
    let mags := xs.map (fun x => match x with | .fin _ m e => (m, e) | _ => (0, 0))
    let am := mags.foldl (fun a b => if b.1 = 0 then a else if a.1 = 0 then b else magMax a b) (0, 0)
    if am.1 = 0 then (0x7F, vs.map (fun _ => 0))
    else
      let x : Int := max (-127) (min 127 ((ilog2 am.1 : Int) + am.2 - emaxOf fmt))
      ((x + 127).toNat, xs.zipIdx.map (fun p => match p.1 with
        | .fin n m e =>
          if m = 0 then 0 else (if n then f.signBit else 0) + min f.maxCode (f.roundMag m (e - x) (rnd p.2))
        | _ => 0))

/-! ### Packing (R128) -/

/-- Bits per element of a format. -/
def elemBits (fmt : Nat) : Nat :=
  match fmt with
  | 0 | 1 | 2 | 3 | 7 => 8
  | 4 | 5 => 6
  | 6 => 4
  | 8 | 9 => 16
  | 10 => 32
  | _ => 256

/-- Pack codes of `w` bits into one little-endian number. -/
def packNat (w : Nat) : List Nat → Nat
  | [] => 0
  | c :: cs => c % 2 ^ w + 2 ^ w * packNat w cs

/-- Unpack `k` codes of `w` bits. -/
def unpackNat (w : Nat) : Nat → Nat → List Nat
  | 0, _ => []
  | k + 1, n => n % 2 ^ w :: unpackNat w k (n / 2 ^ w)

/-- Bytes of a row of codes: elements are consecutive bit fields, and each MX group of 32 fills whole bytes. -/
def packRow (fmt : Nat) (cs : List Nat) : Bytes := leBytes ((elemBits fmt * cs.length + 7) / 8) (packNat (elemBits fmt) cs)

/-- Codes of the first `k` elements of a row. -/
def unpackRow (fmt k : Nat) (bs : Bytes) : List Nat := unpackNat (elemBits fmt) k (leNat bs.length bs)

end Sys2Proof.Machine
end

