-- ==== Sys2Proof/Machine/Tiles.lean ====
section
/-! DEFINITION. Tiles in the pantry (R97, R98, R102, R122): their addresses, checks, rows read and written, and the
sieve's digests of written rows (R469 to R471). -/
namespace Sys2Proof.Machine

def Tile.valid (t : Tile) : Bool := t.addrSet && t.shapeSet

/-- Bytes of a stored row. -/
def Tile.rowBytes (t : Tile) : Nat := (elemBits t.fmt * t.cols + 7) / 8

/-- Scale bytes of a stored row of an MX tile. -/
def Tile.scaleBytes (t : Tile) : Nat := if isMX t.fmt then (t.cols + 31) / 32 else 0

def Tile.rowAddr (t : Tile) (r : Nat) : Nat := pantryBase + 64 * (t.base + t.stride * r)
def Tile.scaleAddr (t : Tile) (r : Nat) : Nat := pantryBase + 64 * (t.sbase + t.sstride * r)

/-- The tile lies within the pantry, its rows fit their stride and an MX tile has its scale plane (R102). -/
def Tile.inPantry (t : Tile) : Bool :=
  decide (64 * (t.base + t.stride * (t.rows - 1)) + t.rowBytes ≤ 96 * 1048576) && decide (t.rowBytes ≤ 64 * t.stride) &&
  (! isMX t.fmt || (t.scaleSet && decide (t.cols / 32 ≤ 64 * t.sstride) &&
    decide (64 * (t.sbase + t.sstride * (t.rows - 1)) + t.cols / 32 ≤ 96 * 1048576)))

/-- Byte extent of a tile as intervals (first, one past the last), its scale plane included (R122). -/
def Tile.extent (t : Tile) : List (Nat × Nat) :=
  (t.rowAddr 0, t.rowAddr (t.rows - 1) + t.rowBytes) ::
    (if isMX t.fmt then [(t.scaleAddr 0, t.scaleAddr (t.rows - 1) + t.scaleBytes)] else [])

/-- Two sets of intervals share a byte. -/
def extentsMeet (a b : List (Nat × Nat)) : Bool :=
  a.any (fun p => b.any (fun q => decide (p.1 < q.2) && decide (q.1 < p.2)))

/-- Same BASE, STRIDE, ROWS, COLS and FMT (R122, R146). -/
def Tile.same (t u : Tile) : Bool :=
  t.base = u.base && t.stride = u.stride && t.rows = u.rows && t.cols = u.cols && t.fmt = u.fmt

/-- The spans of a tile that a unit reads. -/
def Tile.spans (t : Tile) : List (Nat × Nat) :=
  (List.range t.rows).map (fun r => (t.rowAddr r, t.rowBytes)) ++
    (if isMX t.fmt then (List.range t.rows).map (fun r => (t.scaleAddr r, t.scaleBytes)) else [])

/-- A stored row as (element bits, scale byte). -/
def Tile.readRow (t : Tile) (m : Mem) (r : Nat) : List (Nat × Nat) :=
  let cs := unpackRow t.fmt t.cols (m.readN (t.rowAddr r) t.rowBytes)
  if isMX t.fmt then
    let ss := m.readN (t.scaleAddr r) ((t.cols + 31) / 32)
    cs.zipIdx.map (fun p => (p.1, byteAt ss (p.2 / 32)))
  else cs.map (fun c => (c, 127))

/-- All stored rows. -/
def Tile.readAll (t : Tile) (m : Mem) : List (List (Nat × Nat)) := (List.range t.rows).map (fun r => t.readRow m r)

/-- Transpose a list of rows of length `n`. -/
def transposeRows (n : Nat) (rows : List (List (Nat × Nat))) : List (List (Nat × Nat)) :=
  (List.range n).map (fun j => rows.map (fun r => r.getD j (0, 127)))

/-- Element index of (r, c) (R98). -/
def Tile.index (t : Tile) (r c : Nat) : Nat := ((t.rowOrg + r) * 2 ^ 20 + t.colOrg + c) % 2 ^ 40

/-- One row as it is written: its element bytes, its scale bytes, and the saturations it counted. -/
structure RowOut where
  data : Bytes := []
  scales : Bytes := []
  sats : Nat := 0
  /-- Those of them in columns 512 and above, which the second drain of GANG-N counts (R110). -/
  highSats : Nat := 0
  deriving DecidableEq, Repr

/-- Cut a list into groups of `n`. -/
def groupsOf {α : Type} (n : Nat) : Nat → List α → List (List α)
  | 0, _ => []
  | k + 1, l => if l.isEmpty then [] else l.take n :: groupsOf n k (l.drop n)

/-- A row of FP32 values written to stored row `r` of a tile (R136 to R139, R148). -/
def Tile.narrowRow (t : Tile) (seed r : Nat) (sr sat : Bool) (vs : List Nat) : RowOut :=
  let rnd := fun (c : Nat) => if sr then some (srBits seed t.tensor (t.index r c)) else none
  if t.fmt = 10 then { data := packRow 10 (vs.map (fun v => if (ofF32 v).isNan then fmtFP32.nan else v)) }
  else if isMX t.fmt then
    let blocks := (groupsOf 32 vs.length vs).zipIdx.map (fun p => narrowBlock t.fmt p.1 (fun j => rnd (32 * p.2 + j)))
    { data := packRow t.fmt (blocks.flatMap Prod.snd), scales := blocks.map (fun b => BitVec.ofNat 8 b.1) }
  else
    let cs := vs.zipIdx.map (fun p => narrow (floatOf t.fmt) p.1 (rnd p.2) sat)
    { data := packRow t.fmt (cs.map Prod.fst), sats := (cs.filter Prod.snd).length, highSats := ((cs.drop 512).filter Prod.snd).length }

/-- Write rows to a tile through the pantry. The bytes of a FROZEN pantry region stay, and the unit goes on: R170 and R188 give
these units no check and no code for it (DESIGN CHOICE, log 183). -/
def Die.writeRows (x : Die) (t : Tile) (rows : List RowOut) : Die :=
  rows.zipIdx.foldl (fun x p =>
    let y := x.panStore (t.rowAddr p.2) p.1.data
    if p.1.scales.isEmpty then y else y.panStore (t.scaleAddr p.2) p.1.scales) x

/-! ### Digests (R470, R471) -/

/-- Elements of a full piece of a format (R470). -/
def pieceElems (fmt : Nat) : Nat :=
  match fmt with
  | 0 | 1 | 2 | 3 | 7 => 4096
  | 8 | 9 => 2048
  | 10 => 1024
  | 11 => 128
  | 4 | 5 => 5440
  | _ => 8192

/-- The digest of one piece (R470). -/
def digestPiece (tensor index : Nat) (bs : Bytes) : Nat :=
  mix64 (crc64 bs ^^^ mix64 ((tensor * 0x9E3779B97F4A7C15 % 2 ^ 64) ^^^ index))

/-- The pieces of a written row: (element index of the first element, bytes with their scale bytes). -/
def Tile.pieces (t : Tile) (r : Nat) (o : RowOut) : List (Nat × Bytes) :=
  let n := pieceElems t.fmt
  (List.range ((t.cols + n - 1) / n)).map (fun i =>
    (t.index r (i * n),
     (o.data.drop (i * n * elemBits t.fmt / 8)).take (n * elemBits t.fmt / 8) ++ (o.scales.drop (i * n / 32)).take (n / 32)))

/-- A piece enters the accumulator of its course and TENSOR_ID; none when all 32 of the core are taken (R471). -/
def Sieve.enter (v : Sieve) (core off tensor dig : Nat) : Option Sieve :=
  if v.accs.any (fun a => a.core = core && a.off = off && a.tensor = tensor) then
    some { v with accs := v.accs.map (fun a => if a.core = core && a.off = off && a.tensor = tensor then
      { a with digest := (a.digest + dig) % 2 ^ 64, pieces := satAdd 32 a.pieces 1 } else a) }
  else if 32 ≤ (v.accs.filter (fun a => a.core = core)).length then none
  else some { v with accs := v.accs ++ [{ core := core, off := off, tensor := tensor, digest := dig % 2 ^ 64, pieces := 1 }] }

/-- The sieve digests the rows a command wrote to a tile; a 33rd accumulator raises SIV_FULL against the course of
the command (R470, R471). Rows of a command that an earlier run started enter no accumulator of the new one (log 70). -/
def State.digestRows (s : State) (d : Nat) (o : Origin) (t : Tile) (rows : List RowOut) : State :=
  if 2 ≤ o.core then s else
  (rows.zipIdx.flatMap (fun p => t.pieces p.2 p.1)).foldl (fun s p =>
    match (s.die d).sieve.enter o.core o.off t.tensor (digestPiece t.tensor p.1 p.2) with
    | some v => s.modDie d (fun x => { x with sieve := v })
    | none => s.raise d o Code.sivFull) s

end Sys2Proof.Machine
end

