-- ==== Sys2Proof/Machine/LeaveOps.lean ====
section
/-! DEFINITION. Grants of leave (R375 to R380): held and reserved leave, headroom, drawing and release. -/
namespace Sys2Proof.Machine

def Leave.ticket (l : Leave) (k : Nat) : Nat := l.undrawn.getD k 0
/-- H: grants held by running commands. -/
def Leave.held (l : Leave) : Nat := (l.grants.map (fun g => g.fromTicket + g.fromHead)).foldl (· + ·) 0
/-- Rv: undrawn levels of the current turn's tickets. -/
def Leave.reserved (l : Leave) : Nat := (l.undrawn.map Prod.snd).foldl (· + ·) 0
/-- Headroom B − H − Rv; nothing while H + Rv exceeds B (R375, R379). -/
def Leave.headroom (l : Leave) : Nat := l.cur - (l.held + l.reserved)

def Leave.granted (l : Leave) (unit key : Nat) : Bool := l.grants.any (fun g => g.unit = unit && g.key = key)
def Leave.waiting (l : Leave) (unit key : Nat) : Bool := l.reqs.any (fun r => r.unit = unit && r.key = key)

/-- What a request draws when it can be granted now (R376): its ticket's part and headroom's part. A request whose
ticket has lapsed asks for headroom only. `ahead` is true when an earlier request waits for headroom. -/
def Leave.draw (l : Leave) (turn : Nat) (r : LvReq) (ahead : Bool) : Option (Nat × Nat) :=
  let live := r.ticket ≠ 0 && r.turn = turn
  let t := if live then min r.cost (l.ticket r.ticket) else 0
  if t = r.cost then some (t, 0)
  else if ! ahead && decide (r.cost - t ≤ l.headroom) then some (t, r.cost - t)
  else none

/-- The granted costs have changed: the ramp rises toward them by at most 40 W per µs, 409 W in a turn (R380; the fraction of a watt
is left out, log 152). -/
def Leave.rampMoved (l : Leave) : Leave := { l with rampCap := max l.rampCap (min l.held (l.rampTick + 409)), moved := true }

/-- Grant a request. -/
def Leave.give (l : Leave) (turn : Nat) (r : LvReq) (p : Nat × Nat) : Leave :=
  { l with
    reqs := l.reqs.filter (fun q => ! (q.unit = r.unit && q.key = r.key))
    undrawn := if p.1 = 0 then l.undrawn else l.undrawn.put r.ticket (l.ticket r.ticket - p.1)
    grants := l.grants ++ [{ unit := r.unit, key := r.key, ticket := r.ticket, fromTicket := p.1, fromHead := p.2, turn := turn }]
    : Leave }.rampMoved

/-- Release of a command's grant (R377): the ticket's part returns to its ticket while its turn is current. -/
def Leave.release (l : Leave) (turn unit key : Nat) : Leave :=
  let back := l.grants.filter (fun g => g.unit = unit && g.key = key && g.turn = turn && g.fromTicket ≠ 0)
  if ! l.granted unit key then l else
  { l with
    grants := l.grants.filter (fun g => ! (g.unit = unit && g.key = key))
    undrawn := back.foldl (fun t g => t.put g.ticket (t.getD g.ticket 0 + g.fromTicket)) l.undrawn
    : Leave }.rampMoved

def State.releaseLeave (s : State) (d unit key : Nat) : State :=
  s.modDie d (fun x => { x with leave := x.leave.release s.turn unit key })

/-- The ramp level that a read finds, within the levels that it can have reached (R380). -/
def Leave.rampSeen (l : Leave) (k : Nat) : Nat := l.ramp + Config.freeRamp k % (l.rampCap - l.ramp + 1)

/-- A read has found the ramp at level `v`; it may rise on from there. -/
def Leave.rampRead (l : Leave) (v : Nat) : Leave := { l with ramp := v, rampCap := max v (min l.held (l.rampTick + 409)) }

/-- The ramp falls to the held leave when it lies above it (R380). -/
def Leave.rampFall (l : Leave) : Leave :=
  { l with ramp := min l.ramp l.held, rampCap := min l.rampCap l.held, rampTick := min l.rampTick l.held }

/-- The ramp as a turn ends: with unchanged grants it has risen a turn's 409 W toward them. -/
def Leave.rampTurn (l : Leave) : Leave :=
  { l with
    ramp := if l.moved then l.ramp else max l.ramp (min l.held (l.ramp + 409))
    rampCap := max l.rampCap (min l.held (l.rampCap + 409)), rampTick := l.rampCap }

/-- The number by which the requests of a known-answer test go: no command has it. -/
def katLeaveKey : Nat := 2 ^ 64

/-- Costs that a heavy command of a known-answer test can have in a unit (R372, R454). -/
def katCosts (unit : Nat) : List Nat :=
  if unit ≤ 8 then (if unit % 2 = 1 then [52, 64, 36, 30, 208, 256, 144, 120] else [6, 24]) else if unit ≤ 10 then [24] else [12, 6, 18]

/-- A command that has not started is discarded: its waiting request goes with it and releases nothing (R381). A grant that
it already had comes back as at a completion (R377; DESIGN CHOICE, log 185). -/
def Leave.drop (l : Leave) (turn unit key : Nat) : Leave :=
  { l with reqs := l.reqs.filter (fun q => ! (q.unit = unit && q.key = key)) }.release turn unit key

end Sys2Proof.Machine
end

