-- ==== Sys2Proof/Machine/Arrays.lean ====
section
/-! DEFINITION. The matrix arrays (chapters 03 and 05): tile commands, gang modes, loads, flips and products. -/
namespace Sys2Proof.Machine

/-! ### Shapes and modes (R94, R110, R113, R114) -/

/-- Depth K of one array for a class (R94). -/
def arrayDepth (cls : Nat) : Nat := if cls = 2 then 1024 else 512
/-- Arrays chained along k in a mode. -/
def chainOf (mode : Nat) : Nat := if mode = 2 then 2 else if mode = 5 then 4 else 1
/-- Logical depth D (R110). -/
def depthOf (mode cls : Nat) : Nat := chainOf mode * arrayDepth cls
/-- Logical width W (R110). -/
def widthOf (mode : Nat) : Nat := if mode = 3 then 1024 else 512

def dieWide (mode : Nat) : Bool := mode = 4 || mode = 5

/-- A LOAD_W or FLIP of core `c` may address array `a` (R110, R113). -/
def loadLegal (mode c a : Nat) : Bool :=
  if dieWide mode then c = 0 && a = 0 else if mode = 0 then a / 2 = c else a = 2 * c

/-- A MATMUL of core `c` may address array `a` (R110, R113). -/
def matmulLegal (mode c a : Nat) : Bool :=
  match mode with
  | 4 => c = 0
  | 5 => c = 0 && a = 0
  | 0 | 1 => a / 2 = c
  | _ => a = 2 * c

/-- Interval I (R94); at least 8 with a WIDE seed or output. -/
def intervalOf (cls : Nat) (acc wide : Bool) : Nat :=
  let i := if cls = 4 || cls = 5 then 4 else if acc then (if cls = 2 then 4 else 2) else 1
  if wide then max i 8 else i

/-- Load cycles of one array that takes `k` rows of the reduction index (R107). -/
def loadCycles (cls k : Nat) : Nat :=
  let n := min k (arrayDepth cls)
  if cls = 2 then (n + 1) / 2 else if cls = 4 || cls = 5 then 2 * n else n

/-! ### Raising the lowest code (R102) -/

/-- The lowest of the codes a command breaks. -/
def lowestCode (l : List (Bool × Nat)) : Option Nat :=
  (l.filter Prod.fst).foldl (fun m p => match m with
    | none => some p.2
    | some c => some (min c p.2)) none

/-- Raise the lowest code of the broken rules, or go on. -/
def State.checked (s : State) (d : Nat) (o : Origin) (l : List (Bool × Nat)) (k : State) : State :=
  match lowestCode l with
  | some code => s.raise d o code
  | none => k

/-- Rules that every array word obeys: reserved fields, the TICKET of words that carry none, and the ban on array
commands of core 1 in a die-wide mode (R102, R113). -/
def Die.arrayBasics (x : Die) (c : Nat) (w : W64) (mask : Nat) (noTicket : Bool) : List (Bool × Nat) :=
  [(! bodyOk w mask, Code.arrDecode), (noTicket && wTicket w ≠ 0, Code.arrDecode),
   (c = 1 && dieWide (x.gang 1).mode, Code.arrModeIllegal)]

/-! ### TILE_ words (R97, R99, R100) -/

def State.modTile (s : State) (d c i : Nat) (f : Tile → Tile) : State :=
  s.modDie d (fun x => x.setTile c i (f (x.tile c i)))

/-- TILE_ADDR. -/
def execTileAddr (d c t : Nat) (w : W64) (s : State) : Host.Outcome State Fault Refusal :=
  .next (s.issue d c t w 1 1 (fun s o =>
    let base := wField w 40 20
    let stride := wField w 15 0
    s.checked d o ((s.die d).arrayBasics c w (maskOf 45 20 ||| maskOf 15 0) true ++
        [(decide (0x17FFFF < base) || stride = 0, Code.arrDecode)])
      ((s.modTile d c (wField w 45 41) (fun r => { r with base := base, stride := stride, addrSet := true })).countTag d o)))

/-- TILE_SHAPE: also clears TENSOR_ID and the origin and marks the scale plane unset (R99). -/
def execTileShape (d c t : Nat) (w : W64) (s : State) : Host.Outcome State Fault Refusal :=
  .next (s.issue d c t w 1 2 (fun s o =>
    let fmt := wField w 18 15
    s.checked d o ((s.die d).arrayBasics c w (maskOf 45 15) true ++ [(decide (0xC ≤ fmt), Code.arrFmtIllegal)])
      ((s.modTile d c (wField w 45 41) (fun r =>
        { r with rows := wField w 40 30 + 1, cols := wField w 29 19 + 1, fmt := fmt, shapeSet := true, tensor := 0,
                 rowOrg := 0, colOrg := 0, scaleSet := false })).countTag d o)))

/-- TILE_SCALE. -/
def execTileScale (d c t : Nat) (w : W64) (s : State) : Host.Outcome State Fault Refusal :=
  .next (s.issue d c t w 1 3 (fun s o =>
    let sbase := wField w 40 20
    let sstride := wField w 19 12
    s.checked d o ((s.die d).arrayBasics c w (maskOf 45 12) true ++
        [(decide (0x17FFFF < sbase) || sstride = 0, Code.arrDecode)])
      ((s.modTile d c (wField w 45 41) (fun r => { r with sbase := sbase, sstride := sstride, scaleSet := true })).countTag d o)))

/-- TILE_TENSOR. -/
def execTileTensor (d c t : Nat) (w : W64) (s : State) : Host.Outcome State Fault Refusal :=
  .next (s.issue d c t w 1 4 (fun s o =>
    s.checked d o ((s.die d).arrayBasics c w (maskOf 45 41 ||| maskOf 31 0) true)
      ((s.modTile d c (wField w 45 41) (fun r => { r with tensor := wField w 31 0 })).countTag d o)))

/-- TILE_ORIGIN. -/
def execTileOrigin (d c t : Nat) (w : W64) (s : State) : Host.Outcome State Fault Refusal :=
  .next (s.issue d c t w 1 5 (fun s o =>
    s.checked d o ((s.die d).arrayBasics c w (maskOf 45 41 ||| maskOf 39 0) true)
      ((s.modTile d c (wField w 45 41) (fun r => { r with rowOrg := wField w 39 20, colOrg := wField w 19 0 })).countTag d o)))

/-! ### MODE (R110 to R112) -/

/-- A MODE is pending on a core, with its code. -/
def Die.pendingMode (x : Die) (c : Nat) : Option Nat := (x.gang c).pending.map Prod.fst

/-- MODE: the core issues no other array command until it takes effect, and its thread is not ready (R112). -/
def execMode (d c t : Nat) (w : W64) (s : State) : Host.Outcome State Fault Refusal :=
  .next (s.issue d c t w 1 8 (fun s o =>
    let x := s.die d
    let g := wField w 45 43
    let clash := fun (h : Nat) => dieWide h && g ≠ h
    s.checked d o
      [(! bodyOk w (maskOf 45 43) || wTicket w ≠ 0 || decide (6 ≤ g), Code.arrDecode),
       (dieWide g && (clash (x.gang (1 - c)).mode || ((x.pendingMode (1 - c)).map clash).getD false), Code.arrModeIllegal),
       (s.skilletOn d c && g ≠ 0, Code.arrModeIllegal)]
      ((s.modDie d (fun x => x.modGang c (fun q => { q with pending := some (g, o) }))).modThread d c o.thread
        (fun th => { th with wait := .reply }))))

/-- An array is idle: both queues empty and nothing in flight (R112). -/
def Arr.idle (a : Arr) : Bool := a.wq.isEmpty && a.sq.isEmpty && a.loading.isNone && a.flights.isEmpty

/-- The pending MODE of core `c` can take effect (R112 items 2 to 4). -/
def Die.modeDue (x : Die) (c : Nat) : Bool :=
  match x.pendingMode c with
  | none => false
  | some g =>
    let all := [0, 1, 2, 3].all (fun a => (x.arr a).idle)
    if dieWide (x.gang c).mode || dieWide g then
      all && (match x.pendingMode (1 - c) with
        | none => false
        | some g2 => if dieWide g || dieWide g2 then g = g2 else true)
    else (x.arr (2 * c)).idle && (x.arr (2 * c + 1)).idle

/-- The pending MODE of one core takes effect: its thread goes on and its tag counts (R103). -/
def State.applyMode (s : State) (d c : Nat) : State :=
  match ((s.die d).gang c).pending with
  | none => s
  | some (g, o) =>
    (((s.modDie d (fun x => x.modGang c (fun q => { q with mode := g, pending := none }))).modThread d c o.thread
      (fun th => { th with wait := .ready })).countTag d o).runOff d c o.thread

/-- MODE_TAKE_EFFECT: a die-wide mode, or leaving one, takes effect on both cores together. -/
def execModeTakeEffect (d c : Nat) (s : State) : Host.Outcome State Fault Refusal :=
  .next (let x := s.die d
    if ! x.modeDue c then s
    else if dieWide (x.gang c).mode || dieWide ((x.pendingMode c).getD 0) then (s.applyMode d c).applyMode d (1 - c)
    else s.applyMode d c)

/-! ### LOAD_W, FLIP, MATMUL at issue -/

def ArrOp.isFlip : ArrOp → Bool
  | .flip _ => true
  | _ => false

def ArrOp.isMatmul : ArrOp → Bool
  | .matmul .. => true
  | _ => false

/-- Record the format of the tile that fills register `target` of an array (R158). -/
def Arr.recordFmt (a : Arr) (target : Bool) (fmt : Nat) : Arr :=
  if target then { a with recB := some fmt } else { a with recA := some fmt }

/-- The recorded format of the register that the next MATMUL issued to the array will use (R158). -/
def Arr.recorded (a : Arr) : Option Nat := if a.issueGen then a.recB else a.recA

/-- Put a command into the weight queue of each of its arrays, filling the shadow that follows from the flips
issued so far. -/
def Die.pushLoad (x : Die) (cmd : ArrCmd) (fmt : Nat) : Die :=
  cmd.arrays.foldl (fun x a => x.modArr a (fun r =>
    (({ r with wq := r.wq ++ [{ cmd with target := ! r.issueGen }], loadsIssued := r.loadsIssued + 1 }).recordFmt
      (! r.issueGen) fmt))) x

/-- Put a FLIP into the stream queue of each of its arrays; it waits for the loads issued before it (R109). -/
def Die.pushFlip (x : Die) (cmd : ArrCmd) : Die :=
  cmd.arrays.foldl (fun x a => x.modArr a (fun r =>
    { r with sq := r.sq ++ [{ cmd with op := .flip r.loadsIssued }], issueGen := ! r.issueGen })) x

/-- Put a MATMUL into the stream queue of each of its arrays, using the register that follows from the flips issued so far. -/
def Die.pushMatmul (x : Die) (cmd : ArrCmd) : Die :=
  cmd.arrays.foldl (fun x a => x.modArr a (fun r => { r with sq := r.sq ++ [{ cmd with target := r.issueGen }] })) x

/-- The group of a Skillet stream that is still open to words closes when the next LOAD_W of its stream is issued (R165). -/
def Gang.closeGroup (g : Gang) (i : Nat) : Gang :=
  { g with openGroups := g.openGroups.map (fun q =>
      if q.stream = i && ! q.closed then { q with keys := (g.stream i).keys, closed := true } else q) }

/-- Vectors of the MATMUL with key `k` have still to enter band 0 of an array: it waits in the stream queue, or it is the
last to have begun. No row presents the entry of a last vector; the model takes it to have entered when the next MATMUL
of the array begins or when its own last row has been written (DESIGN CHOICE, log 184). -/
def Arr.entering (a : Arr) (k : Nat) : Bool :=
  a.sq.any (fun e => e.key = k) || (a.flights.getLast?.map (fun f => f.cmd.key)) = some k

/-- A group is over when the next LOAD_W of its stream has been issued and the last vector of its last MATMUL has entered
band 0 (R165). -/
def Die.sweepGroups (x : Die) (c : Nat) : Die :=
  x.modGang c (fun g => { g with openGroups := g.openGroups.filter (fun q =>
    ! (q.closed && q.keys.all (fun k => ! (x.arr (2 * c + q.array)).entering k))) })

/-- R166: an earlier MATMUL of the same stream on the other array is incomplete and its operands meet this one's. -/
def opsMeet (e k : ArrOp) : Bool :=
  match e, k with
  | .matmul ex ey es _ eseed _ _ _ _ _, .matmul kx ky ks _ kseed _ _ _ _ _ =>
    extentsMeet ey.extent (kx.extent ++ ky.extent ++ (if kseed then ks.extent else [])) ||
    extentsMeet (ex.extent ++ (if eseed then es.extent else [])) ky.extent
  | _, _ => false

/-- The hazard of a MATMUL (R166). A MATMUL of an earlier run that is still in flight counts as an earlier one of its stream, a
native one too (DESIGN CHOICE, log 218). -/
def Die.skilletHazard (x : Die) (k : ArrCmd) : Bool :=
  let other := x.arr (k.lead / 2 * 2 + (1 - k.lead % 2))
  ((other.sq ++ other.flights.map Flight.cmd).any (fun e => e.stream = k.stream && e.op.isMatmul && decide (e.key < k.key) &&
    opsMeet e.op k.op))

/-- Count the MATMUL at the head of an array's stream queue once when it waits per R166 (HAZARD_WAITS, R168). It counts as soon as it
heads the queue with the hazard standing, even while the MATMUL before it streams or its leave is missing (DESIGN CHOICE, log
220). -/
def Die.countWait (x : Die) (c a : Nat) : Die :=
  match (x.arr a).sq.head? with
  | none => x
  | some k =>
    if k.op.isMatmul && x.skilletHazard k then
      x.modGang c (fun g => if g.hazardKeys.contains k.key then g
        else { g with hazardKeys := g.hazardKeys ++ [k.key], hazardWaits := satAdd 12 g.hazardWaits 1 })
    else x

/-- The waits of R166 that stand at the arrays of a core, in a Skillet menu. -/
def State.skilletWaits (s : State) (d c : Nat) : State :=
  if s.skilletOn d c then s.modDie d (fun x => (x.countWait c (2 * c)).countWait c (2 * c + 1)) else s

/-- LOAD_W in a Skillet menu: bind the group it opens (R163, R165, R168). When groups of two streams meet on one array and the second
LOAD_W is issued before the first group's FLIP, both fill the same shadow (R158), and the second load replaces the first (DESIGN
CHOICE, log 219). -/
def State.skilletLoad (s : State) (d c : Nat) (o : Origin) (tile : Tile) (tr : Bool) (i : Nat) : State :=
  let x0 := s.die d
  let g0 := x0.gang c
  match g0.bindTo i with
  | none => s
  | some a =>
    let st := g0.stream i
    let (key, x) := x0.freshKey
    let crossed := st.array.isSome && st.array ≠ some a
    let g := g0.closeGroup i
    let g := { g with openGroups := g.openGroups ++ [({ array := a, stream := i } : Group)]
                      fGroups := if i = 0 then satAdd 20 g.fGroups 1 else g.fGroups
                      bGroups := if i = 1 then satAdd 20 g.bGroups 1 else g.bGroups
                      crossings := if crossed then satAdd 12 g.crossings 1 else g.crossings }
    let g := g.setStream i { loads := st.loads + 1, flipped := false, matmuls := 0, array := some a, keys := [] }
    let cmd : ArrCmd := { key := key, org := o, lead := 2 * c + a, arrays := [2 * c + a], gang := 0,
                          op := .loadW tile tr, stream := i }
    s.setDie d (((x.modGang c (fun _ => g)).pushLoad cmd tile.fmt).sweepGroups c)

/-- The rules that a LOAD_W breaks (R102, R106, R114, R163). -/
def State.loadWBroken (s : State) (d c : Nat) (w : W64) : List (Bool × Nat) :=
  let x := s.die d
  let a := wField w 45 44
  let mode := (x.gang c).mode
  let sk := s.skilletOn d c
  let tile := x.tile c (wField w 43 39)
  let tr := wBit w 38
  let cls := classOf tile.fmt
  let k := if tr then tile.cols else tile.rows
  let n := if tr then tile.rows else tile.cols
  let st := (x.gang c).stream (a % 2)
  x.arrayBasics c w (maskOf 45 38) false ++
    [(if sk then decide (a / 2 ≠ c) else ! loadLegal mode c a, Code.arrModeIllegal),
     (tile.shapeSet && cls.isNone, Code.arrFmtIllegal),
     (! tile.valid || ! tile.inPantry, Code.arrTileRange),
     (decide (depthOf mode (cls.getD 0) < k) || decide (widthOf mode < n) || (isMX tile.fmt && tile.cols % 32 ≠ 0), Code.arrShape),
     (sk && st.loads ≠ 0 && st.matmuls = 0, Code.arrSkilletGroup)]

/-- LOAD_W (R106, R114). -/
def execLoadW (d c t : Nat) (w : W64) (s : State) : Host.Outcome State Fault Refusal :=
  .next (s.issue d c t w 1 0x10 (fun s o =>
    let x := s.die d
    let a := wField w 45 44
    let mode := (x.gang c).mode
    let tile := x.tile c (wField w 43 39)
    let tr := wBit w 38
    s.checked d o (s.loadWBroken d c w)
      (if s.skilletOn d c then s.skilletLoad d c o tile tr (a % 2)
       else
        let (key, x1) := x.freshKey
        s.setDie d (x1.pushLoad { key := key, org := o, lead := a, arrays := gangArrays mode a, gang := mode, op := .loadW tile tr }
          tile.fmt))))

/-- The rules that a FLIP breaks (R102, R109, R163). -/
def State.flipBroken (s : State) (d c : Nat) (w : W64) : List (Bool × Nat) :=
  let x := s.die d
  let a := wField w 45 44
  let sk := s.skilletOn d c
  let st := (x.gang c).stream (a % 2)
  x.arrayBasics c w (maskOf 45 44) true ++
    [(if sk then decide (a / 2 ≠ c) else ! loadLegal (x.gang c).mode c a, Code.arrModeIllegal),
     (sk && (st.loads = 0 || st.flipped), Code.arrSkilletGroup)]

/-- FLIP (R109, R163). -/
def execFlip (d c t : Nat) (w : W64) (s : State) : Host.Outcome State Fault Refusal :=
  .next (s.issue d c t w 1 0x11 (fun s o =>
    let x := s.die d
    let a := wField w 45 44
    let mode := (x.gang c).mode
    let st := (x.gang c).stream (a % 2)
    s.checked d o (s.flipBroken d c w)
      (let (key, x1) := x.freshKey
       if s.skilletOn d c then
        let b := 2 * c + st.array.getD 0
        s.setDie d ((x1.modGang c (fun g => g.setStream (a % 2) { st with flipped := true })).pushFlip
          { key := key, org := o, lead := b, arrays := [b], stream := a % 2 })
       else s.setDie d (x1.pushFlip { key := key, org := o, lead := a, arrays := gangArrays mode a, gang := mode }))))

/-- Array of a core that a MATMUL leads, and the arrays whose stream queues it enters (R110, R165). -/
def State.matmulLead (s : State) (d c a : Nat) : Nat :=
  if s.skilletOn d c then 2 * c + (((s.die d).gang c).stream (a % 2)).array.getD 0 else a
def State.matmulArrays (s : State) (d c a : Nat) : List Nat :=
  if s.skilletOn d c then [s.matmulLead d c a] else streamArrays ((s.die d).gang c).mode a

/-- The rules that a MATMUL breaks (R102, R113 to R115, R122, R158, R163, R464). -/
def State.matmulBroken (s : State) (d c : Nat) (w : W64) : List (Bool × Nat) :=
  let x := s.die d
  let a := wField w 45 44
  let mode := (x.gang c).mode
  let sk := s.skilletOn d c
  let st := (x.gang c).stream (a % 2)
  let xt := x.tile c (wField w 43 39)
  let y := x.tile c (wField w 38 34)
  let sd := x.tile c (wField w 33 29)
  let tr := wBit w 28
  let seed := wBit w 27
  let acc := wBit w 26
  let tee := wBit w 25
  let dig := wBit w 24
  let cls := classOf xt.fmt
  let m := if tr then xt.cols else xt.rows
  let k := if tr then xt.rows else xt.cols
  let recBad := (s.matmulArrays d c a).any (fun b => match (x.arr b).recorded with
    | some f => decide (classOf f ≠ cls)
    | none => false)
  let exact := match (x.seq c).menu.bind s.menu with
    | some mn => mn.exact
    | none => false
  x.arrayBasics c w (maskOf 45 22) false ++
    [(! seed && wField w 33 29 ≠ 0, Code.arrDecode),
     (if sk then decide (a / 2 ≠ c) || tee else ! matmulLegal mode c a, Code.arrModeIllegal),
     (tee && (mode ≠ 0 || tr || cls = some 2 || decide (512 < k) || decide (512 < m)), Code.arrModeIllegal),
     (xt.shapeSet && cls.isNone, Code.arrFmtIllegal),
     (y.shapeSet && y.fmt = 7, Code.arrFmtIllegal),
     (y.shapeSet && y.fmt = 11 && ! acc, Code.arrFmtIllegal),
     (seed && sd.shapeSet && (sd.fmt ≠ 10 && sd.fmt ≠ 11 || (sd.fmt = 11 && ! acc)), Code.arrFmtIllegal),
     (xt.shapeSet && recBad, Code.arrFmtIllegal),
     (! xt.valid || ! xt.inPantry || ! y.valid || ! y.inPantry || (seed && (! sd.valid || ! sd.inPantry)), Code.arrTileRange),
     (decide (depthOf mode (cls.getD 0) < k) || decide (widthOf mode < y.cols) || y.rows ≠ m, Code.arrShape),
     (seed && (sd.rows ≠ y.rows || sd.cols ≠ y.cols), Code.arrShape),
     (tr && decide (512 < min xt.rows (arrayDepth (cls.getD 0))), Code.arrShape),
     ((isMX xt.fmt && xt.cols % 32 ≠ 0) || (isMX y.fmt && y.cols % 32 ≠ 0), Code.arrShape),
     (extentsMeet y.extent xt.extent || (seed && extentsMeet y.extent sd.extent && ! y.same sd), Code.arrOverlap),
     (exact && ! acc, Code.arrExactRequired),
     (sk && (st.loads = 0 || ! st.flipped), Code.arrSkilletGroup),
     (dig && x.sieve.ringBlocks = 0, Code.sivNoRing)]

/-- MATMUL (R100, R113 to R115, R122, R158). -/
def execMatmul (d c t : Nat) (w : W64) (s : State) : Host.Outcome State Fault Refusal :=
  .next (s.issue d c t w 1 0x18 (fun s o =>
    let x := s.die d
    let a := wField w 45 44
    let st := (x.gang c).stream (a % 2)
    let xt := x.tile c (wField w 43 39)
    let sd := x.tile c (wField w 33 29)
    let seed := wBit w 27
    let tee := wBit w 25
    s.checked d o (s.matmulBroken d c w)
      (let (key, x1) := x.freshKey
       let cmd : ArrCmd := { key := key, org := o, lead := s.matmulLead d c a, arrays := s.matmulArrays d c a, gang := (x.gang c).mode, stream := a % 2
                             op := .matmul xt (x.tile c (wField w 38 34)) (if seed then sd else {}) (wBit w 28) seed (wBit w 26) tee (wBit w 24)
                                      (wBit w 23) (wBit w 22) }
       let x2 := x1.pushMatmul cmd
       let x3 := if tee then
           x2.pushLoad { key := key, org := { o with tag := 0 }, lead := a / 2 * 2 + (1 - a % 2),
                         arrays := [a / 2 * 2 + (1 - a % 2)], op := .teeLoad xt } xt.fmt
         else x2
       let x4 := if s.skilletOn d c then x3.modGang c (fun g =>
           g.setStream (a % 2) { st with matmuls := st.matmuls + 1, keys := st.keys ++ [key] }) else x3
       (s.setDie d x4).skilletWaits d c)))

/-! ### Heavy commands and their cost (R104, R372) -/

/-- A load is heavy above 64 load cycles, a product when M · I exceeds 64 cycles (R104). -/
def ArrCmd.heavy (k : ArrCmd) : Bool :=
  match k.op with
  | .loadW t tr => decide (64 < loadCycles ((classOf t.fmt).getD 0) (if tr then t.cols else t.rows))
  | .matmul x y sd tr seed acc _ _ _ _ =>
    decide (64 < (if tr then x.cols else x.rows) * intervalOf ((classOf x.fmt).getD 0) acc (y.fmt = 11 || (seed && sd.fmt = 11)))
  | _ => false

/-- Leave that the command asks for, in watts (R372). -/
def ArrCmd.cost (k : ArrCmd) : Nat :=
  match k.op with
  | .loadW _ _ => 6 * k.arrays.length
  | .matmul x y sd _ seed acc tee _ _ _ =>
    let cls := (classOf x.fmt).getD 0
    let per := if cls = 4 || cls = 5 then 30 else if acc || y.fmt = 11 || (seed && sd.fmt = 11) then 36
      else if cls = 2 then 64 else 52
    per * k.arrays.length + if tee then 6 else 0
  | _ => 0

/-- The command heads the weight queue of each of its arrays. -/
def Die.headsWeights (x : Die) (k : ArrCmd) : Bool :=
  k.arrays.all (fun a => (x.arr a).wq.head?.map ArrCmd.key = some k.key && (x.arr a).loading.isNone)
/-- The command heads the stream queue of each of its arrays. -/
def Die.headsStreams (x : Die) (k : ArrCmd) : Bool :=
  k.arrays.all (fun a => (x.arr a).sq.head?.map ArrCmd.key = some k.key)

/-- A MATMUL issued before the load `e` and not yet streaming will use the register that the load fills. -/
def Arr.usesLater (r : Arr) (e : ArrCmd) : Bool :=
  r.sq.any (fun m => m.op.isMatmul && decide (m.key < e.key) && m.target = e.target)

/-- The register that the load fills is no longer wanted by an earlier MATMUL that waits in the stream queue of one of its
arrays: row by row the weight path follows the vectors of the last one that uses it (R108). -/
def Die.shadowFree (x : Die) (k : ArrCmd) : Bool :=
  k.arrays.all (fun a => match (x.arr a).wq.head? with
    | some e => ! (x.arr a).usesLater e
    | none => false)

/-- The load takes its place at the weight path of each of its arrays. -/
def Die.startLoad (x : Die) (k : ArrCmd) : Die :=
  k.arrays.foldl (fun x a => x.modArr a (fun r => { r with loading := r.wq.head?, wq := r.wq.drop 1 })) x

/-- LOAD_W_START: the head of the weight queue of its arrays starts, once its leave is granted when it is heavy. -/
def execLoadWStart (d a : Nat) (s : State) : Host.Outcome State Fault Refusal :=
  .next (let x := s.die d
    match (x.arr a).wq.head? with
    | none => s
    | some k =>
      match k.op with
      | .loadW _ _ =>
        if k.lead = a && x.headsWeights k && x.shadowFree k && (! k.heavy || x.leave.granted (2 + 2 * a) k.key) then
          s.setDie d (x.startLoad k)
        else s
      | _ => s)

/-! ### Register contents (R106, R110) -/

/-- Rows k0 to k0 + dk of the logical operand, columns n0 to n0 + dn, from rows of elements. -/
def sliceRows (rows : List (List (Nat × Nat))) (k0 dk n0 dn : Nat) : List (List (Nat × Nat)) :=
  ((rows.drop k0).take dk).map (fun r => (r.drop n0).take dn)

/-- Where array number `i` of a gang lies in the logical operand: its first k and its first n (R110). -/
def gangOffset (mode cls i : Nat) : Nat × Nat :=
  if mode = 2 || mode = 5 then (i * arrayDepth cls, 0) else if mode = 3 then (0, 512 * i) else (0, 0)

/-- What a load writes into array number `i` of its gang. -/
def loadContent (m : Mem) (t : Tile) (tr : Bool) (mode i : Nat) : WReg :=
  let rows := if tr then transposeRows t.cols (t.readAll m) else t.readAll m
  let o := gangOffset mode ((classOf t.fmt).getD 0) i
  { fmt := t.fmt, rows := sliceRows rows o.1 (arrayDepth ((classOf t.fmt).getD 0)) o.2 512 }

def Arr.setReg (a : Arr) (which : Bool) (v : WReg) : Arr := if which then { a with regB := v } else { a with regA := v }

/-- A load completes in each of its arrays: the shadow holds its operand. -/
def Die.finishLoad (x : Die) (k : ArrCmd) (t : Tile) (tr : Bool) : Die :=
  k.arrays.zipIdx.foldl (fun y p => y.modArr p.1 (fun r =>
    { (r.setReg (match r.loading with | some e => e.target | none => false) (loadContent x.mem.cells t tr k.gang p.2)) with
      loading := none, shadowLoaded := r.shadowLoaded || (r.loading.map ArrCmd.target = some (! r.gen)), loadsDone := r.loadsDone + 1 })) x

/-- The register that the load fills is the shadow of each of its arrays: the flips issued before it have taken effect, as
they do once the last vector that uses the register has entered (R108, R109), or a stop has discarded them (R105): the load then
still fills the register that it was issued for (DESIGN CHOICE, log 221). A load of an earlier run only ends. -/
def Die.fillsShadow (x : Die) (k : ArrCmd) : Bool :=
  2 ≤ k.org.core || k.arrays.all (fun a => (x.arr a).loading.map ArrCmd.target = some (! (x.arr a).gen) ||
    ! (x.arr a).sq.any (fun f => f.op.isFlip && decide (f.key < k.key)))

/-- LOAD_W_COMPLETE: the last shadow row has been written; the tag counts and the leave returns (R103, R377). For a
TEE load the rows of the partner are complete (R159); its words are those that the MATMUL reads, which are read once (R157). -/
def execLoadWComplete (d a : Nat) (s : State) : Host.Outcome State Fault Refusal :=
  .next (match ((s.die d).arr a).loading with
    | none => s
    | some k =>
      if k.lead ≠ a || ! (s.die d).fillsShadow k then s else
      match k.op with
      | .loadW t tr =>
        let s1 := s.panScans d k.org t.spans
        ((s1.setDie d ((s1.die d).finishLoad k t tr)).countTag d k.org).releaseLeave d (2 + 2 * a) k.key
      | .teeLoad t => s.setDie d ((s.die d).finishLoad k t false)
      | _ => s)

/-- FLIP_TAKE_EFFECT: the FLIP at the head of the array's stream queue waits for the loads issued before it (R109);
its tag counts when its last array has flipped (R103). -/
def execFlipTakeEffect (d a : Nat) (s : State) : Host.Outcome State Fault Refusal :=
  .next (let x := s.die d
    let r := x.arr a
    match r.sq.head? with
    | none => s
    | some k =>
      match k.op with
      | .flip loads =>
        if r.loadsDone < loads then s
        else
          let x1 := (x.modArr a (fun r => { r with sq := r.sq.drop 1, gen := ! r.gen, flips := (r.flips + 1) % 16,
                                                    shadowLoaded := false })).bump (a / 2) evFlips 1
          let last := k.arrays.all (fun b => ! (x1.arr b).sq.any (fun e => e.key = k.key))
          let s1 := (s.setDie d x1).skilletWaits d (a / 2)
          if last then s1.countTag d k.org else s1
      | _ => s)

/-! ### MATMUL streams and completes -/

/-- The partner of a TEE MATMUL has its load entry at the head of a free weight path, and its whole shadow is free: no MATMUL
issued before uses it, waiting or in flight (R108, R115). A MATMUL counts as in flight until its last row has been written
(DESIGN CHOICE, log 184). -/
def Die.teeReady (x : Die) (k : ArrCmd) : Bool :=
  match k.op with
  | .matmul _ _ _ _ _ _ true _ _ _ =>
    let p := k.lead / 2 * 2 + (1 - k.lead % 2)
    (x.arr p).loading.isNone && (match (x.arr p).wq.head? with
      | some e => e.key = k.key && e.target = ! (x.arr p).gen && ! (x.arr p).usesLater e &&
          ! (x.arr p).flights.any (fun f => f.cmd.target = e.target)
      | none => false)
  | _ => true

/-- Rows of X, or of its transpose, that a MATMUL streams. -/
def vectorsOf (m : Mem) (t : Tile) (tr : Bool) : List (List (Nat × Nat)) :=
  if tr then transposeRows t.cols (t.readAll m) else t.readAll m

/-- MATMUL_STREAM_START: the head MATMUL of its arrays begins to stream, with leave when heavy, its TEE partner ready
and no Skillet hazard; the registers it meets are those of the current generation (R109). -/
def execMatmulStreamStart (d a : Nat) (s : State) : Host.Outcome State Fault Refusal :=
  .next (let x := s.die d
    match (x.arr a).sq.head? with
    | none => s
    | some k =>
      if ! k.op.isMatmul || k.lead ≠ a || ! x.headsStreams k then s
      else if s.skilletOn d k.org.core && x.skilletHazard k then s
      else if ! x.teeReady k || (k.heavy && ! x.leave.granted (1 + 2 * a) k.key) then s
      else
        let regs := k.arrays.map (fun b => if (x.arr b).gen then (x.arr b).regB else (x.arr b).regA)
        let x1 := k.arrays.foldl (fun x b => x.modArr b (fun r => { r with sq := r.sq.drop 1 })) x
        let x2 := x1.modArr a (fun r => { r with flights := r.flights ++ [{ cmd := k, regs := regs }] })
        let x3 := match k.op with
          | .matmul _ _ _ _ _ _ true _ _ _ =>
            x2.modArr (a / 2 * 2 + (1 - a % 2)) (fun r => { r with loading := r.wq.head?, wq := r.wq.drop 1 })
          | _ => x2
        let m := match k.op with
          | .matmul t _ _ tr _ _ _ _ _ _ => if tr then t.cols else t.rows
          | _ => 0
        (s.setDie d ((k.arrays.foldl (fun x b => x.bump (b / 2) evVectors m) x3).sweepGroups k.org.core)).skilletWaits d k.org.core)

/-- Products of one band of one array for column `n` (R89, R114): k below both extents. -/
def bandTerms (fx : Nat) (xs : List (Nat × Nat)) (r : WReg) (k0 n len : Nat) : List FVal :=
  ((xs.drop k0).take len).zip ((r.rows.drop k0).take len) |>.filterMap (fun p =>
    match p.2[n]? with
    | some wv => some ((elemVal fx p.1.1 p.1.2).mul (elemVal r.fmt wv.1 wv.2))
    | none => none)

/-- FP32 accumulation of a column over the bands of one array (R130). -/
def foldBands (fx len : Nat) (xs : List (Nat × Nat)) (r : WReg) (n : Nat) : Nat → Nat → Nat → Nat
  | 0, _, acc => acc
  | b + 1, k0, acc =>
    foldBands fx len xs r n b (k0 + len) (toF32 (FVal.sum (ofF32 acc :: bandTerms fx xs r k0 n len)))

/-- The vectors' part that array number `i` of the chain sees, and its register. -/
def chainParts (mode cls : Nat) (xs : List (Nat × Nat)) (regs : List WReg) : List (List (Nat × Nat) × WReg) :=
  if chainOf mode = 1 then (regs.take 1).map (fun r => (xs, r))
  else regs.zipIdx.map (fun p => ((xs.drop (p.2 * arrayDepth cls)).take (arrayDepth cls), p.1))

/-- One output element: FP32 bits for ACC = 0 (R130, R95). -/
def columnF32 (mode cls fx : Nat) (xs : List (Nat × Nat)) (regs : List WReg) (n seed : Nat) : Nat :=
  (chainParts mode cls xs regs).foldl (fun acc p =>
    foldBands fx (if cls = 2 then 64 else 32) p.1 p.2 n 16 0 acc) seed

/-- One output element of exact accumulation (R132, R133). -/
def columnWide (mode cls fx : Nat) (xs : List (Nat × Nat)) (regs : List WReg) (n : Nat) (seed : Wide) : Wide :=
  (chainParts mode cls xs regs).foldl (fun acc p => (bandTerms fx p.1 p.2 0 n (arrayDepth cls)).foldl Wide.term acc) seed

/-- The registers and the column within them that compute output column `n` (R110). -/
def columnAt (mode : Nat) (regs : List WReg) (n : Nat) : List WReg × Nat :=
  if mode = 3 then (regs.drop (n / 512), n % 512) else (regs, n)

/-- Seed of output (r, n) as FP32 bits or as a WIDE element. -/
def seedF32 (rows : List (List (Nat × Nat))) (r n : Nat) : Nat := ((rows.getD r []).getD n (0, 127)).1

/-- The rows that a MATMUL writes (R95, R134, R136). -/
def matmulRows (m : Mem) (jobSeed : Nat) (f : Flight) : List RowOut :=
  match f.cmd.op with
  | .matmul x y sd tr seed acc _ _ sr sat =>
    let cls := (classOf x.fmt).getD 0
    let vs := vectorsOf m x tr
    let seeds := if seed then sd.readAll m else []
    vs.zipIdx.map (fun p =>
      let cols := List.range y.cols
      if acc then
        let ws := cols.map (fun n =>
          let q := columnAt f.cmd.gang f.regs n
          let s0 : Wide := if ! seed then {} else
            if sd.fmt = 11 then Wide.decode (leBytes 32 (seedF32 seeds p.2 n))
            else ({} : Wide).term (ofF32 (seedF32 seeds p.2 n))
          columnWide f.cmd.gang cls x.fmt p.1 q.1 q.2 s0)
        if y.fmt = 11 then { data := ws.flatMap Wide.encode } else y.narrowRow jobSeed p.2 sr sat (ws.map Wide.toF32)
      else
        y.narrowRow jobSeed p.2 sr sat (cols.map (fun n =>
          let q := columnAt f.cmd.gang f.regs n
          columnF32 f.cmd.gang cls x.fmt p.1 q.1 q.2 (if seed then seedF32 seeds p.2 n else 0))))
  | _ => []

/-- Saturations that the drains of a MATMUL count, by array: in GANG-K only the last array drains, and in GANG-N each drains
its half of Y (R110). -/
def drainSats (k : ArrCmd) (rows : List RowOut) : List (Nat × Nat) :=
  let all := (rows.map RowOut.sats).foldl (· + ·) 0
  let high := (rows.map RowOut.highSats).foldl (· + ·) 0
  if k.gang = 3 then [(k.lead, all - high), (k.lead + 1, high)]
  else [(if chainOf k.gang = 1 then k.lead else k.arrays.getLast?.getD k.lead, all)]

/-- The stall cycles of one array (R123). In how many cycles an array of the core stalls, as R475 counts, depends on which cycles
the two arrays share, and is free (log 3). -/
def Die.stall (x : Die) (a feed drain : Nat) : Die :=
  x.modArr a (fun r => { r with feedStall := satAdd 32 r.feedStall feed, drainStall := satAdd 32 r.drainStall drain })

/-- A TEE MATMUL also waits until its partner's shadow load is complete (R103). -/
def Die.teeDone (x : Die) (k : ArrCmd) : Bool :=
  match k.op with
  | .matmul _ _ _ _ _ _ true _ _ _ =>
    (match (x.arr (k.lead / 2 * 2 + (1 - k.lead % 2))).loading with
      | some e => e.key ≠ k.key
      | none => true)
  | _ => true

/-- MATMUL_COMPLETE: the oldest MATMUL in flight of the array writes its rows; the sieve takes them when DIGEST = 1;
the tag counts and the leave returns (R103, R377). The stall cycles of the run are operands, a pair of feeder and drain for each
array of the command (log 9). -/
def execMatmulComplete (d a : Nat) (stalls : List (Nat × Nat)) (s : State) : Host.Outcome State Fault Refusal :=
  .next (let x := s.die d
    match (x.arr a).flights with
    | [] => s
    | f :: rest =>
      if ! x.teeDone f.cmd then s else
      match f.cmd.op with
      | .matmul xt y sd _ seed _ _ dig _ _ =>
        let s1 := s.panScans d f.cmd.org (xt.spans ++ if seed then sd.spans else [])
        let rows := matmulRows (s1.die d).mem.cells (s1.die d).seed f
        let s2 := s1.modDie d (fun x =>
          let x1 := (x.writeRows y rows).modArr a (fun r => { r with flights := rest })
          let x2 := (drainSats f.cmd rows).foldl (fun x p =>
            x.modArr p.1 (fun r => { r with satCount := satAdd 32 r.satCount p.2 })) x1
          let x3 := (f.cmd.arrays.zip stalls).foldl (fun x p => x.stall p.1 p.2.1 p.2.2) x2
          x3.sweepGroups f.cmd.org.core)
        let s3 := if dig then s2.digestRows d f.cmd.org y rows else s2
        (s3.countTag d f.cmd.org).releaseLeave d (1 + 2 * a) f.cmd.key
      | _ => s)

/-- A stop of the menu, or teardown: queued commands that have not started are discarded and their tags do not count, with
the groups that have not started (R105, R167); a MODE that waits is dropped; started commands run on. -/
def Die.discardArrays (x : Die) (turn : Nat) : Die :=
  let drop := fun (x : Die) (a : Nat) =>
    let r := x.arr a
    let l := r.wq.foldl (fun l k => l.drop turn (2 + 2 * a) k.key) (r.sq.foldl (fun l k => l.drop turn (1 + 2 * a) k.key) x.leave)
    ({ x with leave := l } : Die).modArr a (fun r => { r with wq := [], sq := [] })
  let y := [0, 1, 2, 3].foldl drop x
  [0, 1].foldl (fun y c => (y.modGang c (fun g => { g with pending := none, openGroups := g.openGroups.map (fun q => { q with closed := true }) })).sweepGroups c) y

/-- An array at LAUNCH: SOLO with generation A, empty queues and empty registers; a load or products that an earlier run
started run to completion (R105, R112). -/
def Arr.launched (r : Arr) : Arr :=
  { flights := r.flights.map (fun f => { f with cmd := { f.cmd with org := f.cmd.org.orphan } })
    loading := r.loading.map (fun k => { k with org := k.org.orphan })
    loadsIssued := if r.loading.isSome then 1 else 0 }

/-- LAUNCH clears the arrays, the tile registers and the counts that clear at LAUNCH (R99, R112, R123, R168). -/
def Die.launchArrays (x : Die) : Die :=
  { x with tiles := [], gangs := [], arrs := x.arrs.mapVal (fun _ r => r.launched) }

end Sys2Proof.Machine
end

