-- ==== Sys2Proof/Machine/VecArith.lean ====
section
/-! DEFINITION. What the vector operations compute (R147 to R150), row by row on FP32 bits. -/
namespace Sys2Proof.Machine

abbrev f32one : Nat := 0x3F800000
abbrev f32half : Nat := 0x3F000000

/-- An integer as FP32 bits. -/
def f32ofNat (n : Nat) : Nat := toF32 (ofUnits n 0)

/-- One level of the sum tree: pairs, an odd term paired with a zero. -/
def pairUp : List Nat → List Nat
  | [] => []
  | [a] => [f32add a 0]
  | a :: b :: t => f32add a b :: pairUp t

/-- The fixed binary tree of R147 over at most `k` levels. -/
def treeSum : Nat → List Nat → Nat
  | 0, l => f32add (l.getD 0 0) 0
  | k + 1, l => if l.length ≤ 1 then f32add (l.getD 0 0) 0 else treeSum k (pairUp l)

def rowSum (l : List Nat) : Nat := treeSum 24 l

/-- Maximum of a row: NaN when a term is NaN. -/
def rowMax (l : List Nat) : Nat :=
  match l with
  | [] => 0
  | a :: t => t.foldl f32max (f32max a a)

/-- Lowest column index that holds the row's maximum; a row with NaN gives the first NaN's index. -/
def rowArgmax (l : List Nat) : Nat :=
  match l.findIdx? (fun v => (ofF32 v).isNan) with
  | some i => i
  | none => (l.findIdx? (fun v => l.all (fun u => ! (ofF32 v).lt (ofF32 u)))).getD 0

def zip2 (f : Nat → Nat → Nat) (a b : List Nat) : List Nat := List.zipWith f a b

/-- 1 / (1 + exp(-x)). -/
def f32sigma (x : Nat) : Nat := f32div f32one (f32add f32one (f32exp (f32neg x)))
/-- x / (1 + exp(-x)). -/
def f32silu (x : Nat) : Nat := f32div x (f32add f32one (f32exp (f32neg x)))
/-- σ · (1 + (x · (1 − σ))). -/
def siluSlope (x : Nat) : Nat :=
  let g := f32sigma x
  f32mul g (f32add f32one (f32mul x (f32sub f32one g)))
/-- erf(x · 1/√2). -/
def erfArg (x : Nat) : Nat := f32erf (f32mul x 0x3F3504F3)
/-- b · (Φ + (x · φ)). -/
def geluBack (x b : Nat) : Nat :=
  let p := f32mul f32half (f32add f32one (erfArg x))
  let q := f32mul (f32exp (f32neg (f32mul (f32mul x x) f32half))) 0x3ECC422A
  f32mul b (f32add p (f32mul x q))

/-- An elementwise operation: the element of Y, of C as updated, and of Z (R149). In SGD_MOM and ADAMW the y that follows an
updated m or v uses it as the FP32 value that was computed, before it is narrowed into a BF16 C or Z: R149 does not say which
(DESIGN CHOICE, log 188). -/
def elemOp (op : Nat) (p : Nat → Nat) (x b c z : Nat) : Nat × Nat × Nat :=
  match op with
  | 0x08 => (f32add x b, 0, 0)
  | 0x09 => (f32mul x b, 0, 0)
  | 0x0A => (f32fma x b c, 0, 0)
  | 0x0B => (f32add (f32mul (p 0) x) (f32mul (p 1) b), 0, 0)
  | 0x0C => (f32max x b, 0, 0)
  | 0x14 => (if (ofF32 x).isNan then fmtFP32.nan else if (ofF32 x).pos then x else 0, 0, 0)
  | 0x15 => (f32mul (f32mul x f32half) (f32add f32one (erfArg x)), 0, 0)
  | 0x16 => (f32silu x, 0, 0)
  | 0x17 => (f32mul (f32silu x) b, 0, 0)
  | 0x1C => (if (ofF32 x).pos then toF32 (ofF32 b) else 0, 0, 0)
  | 0x1D => (geluBack x b, 0, 0)
  | 0x1E => (f32mul b (siluSlope x), 0, 0)
  | 0x1F => (f32mul (f32mul c b) (siluSlope x), 0, f32mul c (f32mul x (f32sigma x)))
  | 0x30 =>
    let g := f32add b (f32mul (p 2) x)
    let m := f32add (f32mul (p 1) c) g
    (f32sub x (f32mul (p 0) m), m, 0)
  | 0x31 =>
    let m := f32add (f32mul (p 1) c) (f32mul (f32sub f32one (p 1)) b)
    let v := f32add (f32mul (p 2) z) (f32mul (f32sub f32one (p 2)) (f32mul b b))
    let u := f32div (f32mul m (p 5)) (f32add (f32sqrt (f32mul v (p 6))) (p 3))
    (f32sub x (f32mul (p 0) (f32add u (f32mul (p 4) x))), m, v)
  | 0x32 =>
    let k := f32add (f32mul (p 1) c) (f32mul (f32sub f32one (p 1)) b)
    let m := f32add (f32mul (p 2) c) (f32mul (f32sub f32one (p 2)) b)
    (f32sub x (f32mul (p 0) (f32add (f32sign k) (f32mul (p 4) x))), m, 0)
  | _ => (toF32 (ofF32 x), 0, 0)

/-- A row operation: the row of Y and the row of Z. `mask` tells masked columns; `st` are the two statistics of
the row (R149). -/
def rowOp (op : Nat) (p0 : Nat) (mask : Nat → Bool) (xs bs cs st : List Nat) : List Nat × List Nat :=
  let n := f32ofNat xs.length
  let mu := st.getD 0 0
  let sd := st.getD 1 0
  match op with
  | 0x20 => ([rowSum xs], [])
  | 0x21 => ([rowMax xs], [])
  | 0x22 => ([rowSum (xs.map (fun x => f32mul x x))], [])
  | 0x24 => ([f32ofNat (rowArgmax xs)], [])
  | 0x28 =>
    let m := f32div (rowSum xs) n
    let v := f32div (rowSum (xs.map (fun x => f32mul (f32sub x m) (f32sub x m)))) n
    let s := f32rsqrt (f32add v p0)
    (zip2 f32add (zip2 f32mul (xs.map (fun x => f32mul (f32sub x m) s)) bs) cs, [m, s])
  | 0x29 =>
    let s := f32rsqrt (f32add (f32div (rowSum (xs.map (fun x => f32mul x x))) n) p0)
    (zip2 f32mul (xs.map (fun x => f32mul x s)) bs, [0, s])
  | 0x2A =>
    let xh := xs.map (fun x => f32mul (f32sub x mu) sd)
    let g := zip2 f32mul bs cs
    let c1 := f32div (rowSum g) n
    let c2 := f32div (rowSum (zip2 f32mul g xh)) n
    (zip2 (fun gi xi => f32mul (f32sub (f32sub gi c1) (f32mul xi c2)) sd) g xh, [])
  | 0x2B =>
    let xh := xs.map (fun x => f32mul x sd)
    let g := zip2 f32mul bs cs
    let c2 := f32div (rowSum (zip2 f32mul g xh)) n
    (zip2 (fun gi xi => f32mul (f32sub gi (f32mul xi c2)) sd) g xh, [])
  | 0x2C =>
    let ps := xs.zipIdx.map (fun q => (f32mul p0 q.1, mask q.2))
    let live := ps.filter (fun q => ! q.2)
    if live.isEmpty then (xs.map (fun _ => 0), [0, 0])
    else
      let m := rowMax (live.map Prod.fst)
      let e := ps.map (fun q => if q.2 then 0 else f32exp (f32sub q.1 m))
      let s := rowSum e
      (e.zipIdx.map (fun q => if mask q.2 then 0 else f32div q.1 s), [m, s])
  | 0x2D =>
    let q := xs.zipIdx.map (fun r => if mask r.2 || (ofF32 sd).isZero then 0
      else f32div (f32exp (f32sub (f32mul p0 r.1) mu)) sd)
    let c := rowSum (zip2 f32mul bs q)
    (zip2 (fun qi bi => f32mul (f32mul qi (f32sub bi c)) p0) q bs, [])
  | _ => (xs.map (fun x => f32mul (f32sub x mu) sd), [])

/-- Dot product by the tree of R147. -/
def f32dot (a b : List Nat) : Nat := rowSum (zip2 f32mul a b)

/-- Subtract from `v` its projections on the vectors found so far, in order. -/
def orthoSub (v : List Nat) : List (List Nat) → List Nat
  | [] => v
  | q :: qs => let d := f32dot v q; orthoSub (zip2 (fun vi qi => f32sub vi (f32mul d qi)) v q) qs

/-- R150: the orthonormal vectors, in order; `done` are those found so far. -/
def orthoGo (p0 : Nat) : List (List Nat) → List (List Nat) → List (List Nat)
  | [], done => done
  | v :: vs, done =>
    let r := orthoSub v done
    let nrm := f32sqrt (f32dot r r)
    let q := if (ofF32 p0).lt (ofF32 nrm) && ! (ofF32 nrm).isNan && ! ((ofF32 p0).isZero && (ofF32 nrm).isZero)
      then r.map (fun x => f32div x nrm) else r.map (fun _ => 0)
    orthoGo p0 vs (done ++ [q])

/-- Rows of a tile as FP32 bits. -/
def Tile.vals (t : Tile) (m : Mem) : List (List Nat) :=
  (t.readAll m).map (fun r => r.map (fun e =>
    if t.fmt = 11 then (Wide.decode (leBytes 32 e.1)).toF32 else elemF32 t.fmt e.1 e.2))

/-- Element (r, c) of an operand with the broadcasts of R145. -/
def pickB (t : Tile) (rows : List (List Nat)) (r c : Nat) : Nat :=
  (rows.getD (if t.rows = 1 then 0 else r) []).getD (if t.cols = 1 then 0 else c) 0

/-- Element (r, c) of a list of rows. -/
def rowsAt (rows : List (List Nat)) (r c : Nat) : Nat := (rows.getD r []).getD c 0

/-- What a vector command writes: FP32 rows of Y, of C and of Z; an empty list where nothing is written. -/
structure VecOut where
  y : List (List Nat) := []
  c : List (List Nat) := []
  z : List (List Nat) := []
  deriving DecidableEq, Repr

/-- Operations computed element by element (R151's groups). -/
def isElem (op : Nat) : Bool :=
  [0x08, 0x09, 0x0A, 0x0B, 0x0C, 0x10, 0x14, 0x15, 0x16, 0x17, 0x1C, 0x1D, 0x1E, 0x1F, 0x30, 0x31, 0x32].contains op

/-- C is updated in place. -/
def updatesC (op : Nat) : Bool := op = 0x30 || op = 0x31 || op = 0x32

/-- The results of a command on the memory as it stands. -/
def VecCmd.compute (k : VecCmd) (m : Mem) : VecOut :=
  let A := k.a.vals m
  let B := k.b.vals m
  let C := k.c.vals m
  let Z := k.z.vals m
  let p := fun i => k.ps.getD i 0
  if isElem k.op then
    let e := fun r c => elemOp k.op p (rowsAt A r c) (pickB k.b B r c) (pickB k.c C r c) (rowsAt Z r c)
    let tab := (List.range k.a.rows).map (fun r => (List.range k.a.cols).map (fun c => e r c))
    { y := tab.map (fun r => r.map (fun v => v.1))
      c := if updatesC k.op then tab.map (fun r => r.map (fun v => v.2.1)) else []
      z := if k.op = 0x31 || k.op = 0x1F then tab.map (fun r => r.map (fun v => v.2.2)) else [] }
  else if k.op = 0x23 then
    { y := [A.foldl (fun acc xs => zip2 f32add acc xs) ((k.y.vals m).getD 0 [])] }
  else if k.op = 0x25 then
    { y := [(A.zip B).foldl (fun acc q => (List.range acc.length).map (fun c =>
        f32fma (q.1.getD c 0) (q.2.getD c 0) (acc.getD c 0))) ((k.y.vals m).getD 0 [])] }
  else if k.op = 0x34 then
    let g := k.seg + 1
    let vs := (groupsOf g A.length A).map (fun rows => rows.flatten)
    { y := (orthoGo (p 0) vs []).flatMap (fun v => groupsOf k.a.cols g v) }
  else if k.op = 0x38 then {}
  else
    let norm := k.op = 0x28 || k.op = 0x29
    let rs := A.zipIdx.map (fun q => rowOp k.op (p 0)
      (fun c => k.mask && decide (k.a.rowOrg + q.2 < k.a.colOrg + c)) q.1
      (if norm then B.getD 0 [] else B.getD q.2 []) (C.getD 0 []) (Z.getD q.2 []))
    { y := rs.map Prod.fst
      z := if norm || k.op = 0x2C then rs.map Prod.snd else [] }

end Sys2Proof.Machine
end

