-- ==== Sys2Proof/Machine/Vector.lean ====
section
/-! DEFINITION. Vector command words at issue (R142 to R146, R149, R153): SET_PARAM and the operations. Their start
and completion stand in VecEvents. -/
namespace Sys2Proof.Machine

/-- SET_PARAM: writes a parameter register at issue and completes (R143). -/
def execSetParam (d c t : Nat) (w : W64) (s : State) : Host.Outcome State Fault Refusal :=
  .next (s.issue d c t w 2 1 (fun s o =>
    s.checked d o [(! bodyOk w (maskOf 45 40 ||| maskOf 31 0) || wTicket w ≠ 0, Code.vecDecode)]
      ((s.modDie d (fun x => x.modVec c (fun v => { v with params := v.params.put (wField w 45 40) (wField w 31 0) }))).countTag
        d o)))

/-- Which tiles an operation names and in what part (R149): 0 not used, 1 input, 2 output, 3 state updated in place,
4 statistics read, 5 statistics written. -/
structure VecUse where
  b : Nat := 0
  c : Nat := 0
  y : Nat := 2
  z : Nat := 0
  /-- Index of the highest parameter used, plus one. -/
  params : Nat := 0
  mask : Bool := false
  seg : Bool := false
  deriving DecidableEq, Repr

def vecUse (op : Nat) : VecUse :=
  match op with
  | 0x08 | 0x09 | 0x0C | 0x17 | 0x1C | 0x1D | 0x1E => { b := 1 }
  | 0x0A => { b := 1, c := 1 }
  | 0x0B => { b := 1, params := 2 }
  | 0x1F => { b := 1, c := 1, z := 2 }
  | 0x23 => { y := 3 }
  | 0x25 => { b := 1, y := 3 }
  | 0x28 => { b := 1, c := 1, z := 5, params := 1 }
  | 0x29 => { b := 1, z := 5, params := 1 }
  | 0x2A | 0x2B => { b := 1, c := 1, z := 4 }
  | 0x2C => { z := 5, params := 1, mask := true }
  | 0x2D => { b := 1, z := 4, params := 1, mask := true }
  | 0x2E => { z := 4 }
  | 0x30 => { b := 1, c := 3, params := 3 }
  | 0x31 => { b := 1, c := 3, z := 3, params := 7 }
  | 0x32 => { b := 1, c := 3, params := 5 }
  | 0x34 => { params := 1, seg := true }
  | 0x38 => { y := 0 }
  | _ => {}

/-- V2 operations (R149). -/
def isV2 (op : Nat) : Bool := op = 0x24 || op = 0x32

/-- Y has one column, or one row (R149; for ROW_MAX and ROW_SUMSQ log 81). -/
def yColumn (op : Nat) : Bool := op = 0x20 || op = 0x21 || op = 0x22 || op = 0x24
def yRow (op : Nat) : Bool := op = 0x23 || op = 0x25

/-- BODY bits that an operation uses (R142). -/
def vecMask (op : Nat) : Nat :=
  let u := vecUse op
  maskOf 45 41 ||| (if u.b ≠ 0 then maskOf 40 36 else 0) ||| (if u.c ≠ 0 then maskOf 35 31 else 0) |||
    (if u.y ≠ 0 then maskOf 30 26 ||| maskOf 14 12 else 0) ||| (if u.z ≠ 0 then maskOf 25 21 else 0) |||
    (if u.params ≠ 0 then maskOf 20 15 else 0) ||| (if u.mask then maskOf 11 11 else 0) ||| (if u.seg then maskOf 10 5 else 0)

/-- R149 makes Y FP32: the row sums, the row argmax and the column accumulations. -/
def yFp32 (op : Nat) : Bool := op = 0x20 || op = 0x24 || yRow op

/-- A tile in a part has an illegal format (R144, R149). A tile whose shape is not set has no format yet. -/
def badFmt (op part : Nat) (isA : Bool) (t : Tile) : Bool :=
  t.shapeSet && (match part with
    | 0 => false
    | 1 => t.fmt = 11 && ! (isA && op = 0x10)
    | 2 => if yFp32 op then decide (t.fmt ≠ 10) else t.fmt = 7 || t.fmt = 11
    | 3 => if yRow op then decide (t.fmt ≠ 10) else t.fmt ≠ 10 && t.fmt ≠ 8
    | _ => decide (t.fmt ≠ 10))

/-- B or C of an elementwise operation fits A, by equal shape or a broadcast (R145). -/
def fitsBroadcast (a t : Tile) : Bool := (t.rows = a.rows || t.rows = 1) && (t.cols = a.cols || t.cols = 1)
def sameShape (a t : Tile) : Bool := t.rows = a.rows && t.cols = a.cols
def isRowOf (a t : Tile) : Bool := t.rows = 1 && t.cols = a.cols

/-- The shapes of the operands break R145, R149 or R150. -/
def badShape (op seg : Nat) (a b c y z : Tile) : Bool :=
  let u := vecUse op
  let bBad := u.b ≠ 0 && (if op = 0x28 || op = 0x29 then ! isRowOf a b
    else if isElem op then ! fitsBroadcast a b else ! sameShape a b)
  let cBad := u.c ≠ 0 && (if u.c = 3 then ! sameShape a c
    else if isElem op then ! fitsBroadcast a c else ! isRowOf a c)
  let yBad := u.y ≠ 0 && (if yColumn op then ! (y.rows = a.rows && y.cols = 1)
    else if yRow op then ! isRowOf a y else ! sameShape a y)
  let zBad := u.z ≠ 0 && (if 4 ≤ u.z then ! (z.rows = a.rows && z.cols = 2) else ! sameShape a z)
  let gBad := op = 0x34 && (a.rows % (seg + 1) ≠ 0 || decide (512 < a.rows / (seg + 1)))
  bBad || cBad || yBad || zBad || gBad

/-- A written tile meets another operand otherwise than identically (R146): `w` with its part, against `t` with its
part. Only Y and tiles written in place may be identical to an input. -/
def badOverlap (wPart : Nat) (w : Tile) (tPart : Nat) (t : Tile) : Bool :=
  tPart ≠ 0 && extentsMeet w.extent t.extent &&
    ! (w.same t && wPart ≠ 5 && (tPart = 1 || tPart = 4))

/-- The tiles of a command with their parts, the written ones against every other (R146). The second output Z of SWIGLU_BWD may
not be identical to an input, and neither may a statistics tile that is written: R146 allows it of Y and of tiles written in
place, R155 speaks of written tiles (DESIGN CHOICE, log 84). -/
def anyOverlap (op : Nat) (a b c y z : Tile) : Bool :=
  let u := vecUse op
  let l := [(1, a), (u.b, b), (u.c, c), (u.y, y), (u.z, z)].zipIdx
  l.any (fun p => (p.1.1 = 2 || p.1.1 = 3 || p.1.1 = 5) &&
    l.any (fun q => q.2 ≠ p.2 && badOverlap (if p.2 = 4 && p.1.1 = 2 then 5 else p.1.1) p.1.2 q.1.1 q.1.2))

/-- The rules that a vector operation breaks (R142 to R150, R153, R473). -/
def State.vecBroken (s : State) (d c : Nat) (w : W64) (op : Nat) : List (Bool × Nat) :=
  let x := s.die d
  let u := vecUse op
  let A := x.tile c (wField w 45 41)
  let B := x.tile c (wField w 40 36)
  let C := x.tile c (wField w 35 31)
  let Y := x.tile c (wField w 30 26)
  let Z := x.tile c (wField w 25 21)
  let used := [(1, A), (u.b, B), (u.c, C), (u.y, Y), (u.z, Z)].filter (fun p => p.1 ≠ 0)
  [(isV2 op && ! x.featureEnable.testBit 1, Code.courseDecode),
   (! bodyOk w (vecMask op) || decide (64 < wField w 20 15 + u.params), Code.vecDecode),
   (badFmt op 1 true A || badFmt op u.b false B || badFmt op u.c false C || badFmt op u.y false Y || badFmt op u.z false Z,
    Code.vecFmtIllegal),
   (used.any (fun p => ! p.2.valid || ! p.2.inPantry), Code.vecTileRange),
   (badShape op (wField w 10 5) A B C Y Z, Code.vecShape),
   (anyOverlap op A B C Y Z, Code.vecOverlap),
   ((wBit w 12 || op = 0x38) && x.sieve.ringBlocks = 0, Code.sivNoRing)]

/-- The command of a vector operation: its tiles and parameters as they stand at issue (R142, R143, R146). -/
def Die.vecCmd (x : Die) (c : Nat) (w : W64) (op key : Nat) (o : Origin) : VecCmd :=
  { key := key, org := o, op := op
    a := x.tile c (wField w 45 41), b := x.tile c (wField w 40 36), c := x.tile c (wField w 35 31)
    y := x.tile c (wField w 30 26), z := x.tile c (wField w 25 21)
    ps := (List.range (vecUse op).params).map (fun i => (x.vec c).params.getD (wField w 20 15 + i) 0)
    sr := wBit w 14, sat := wBit w 13, digest := wBit w 12 || op = 0x38, mask := wBit w 11, seg := wField w 10 5 }

/-- A vector operation at issue (R142 to R153): it is checked, copies its tiles and parameters, and enters the
command queue. -/
def State.issueVec (s : State) (d c t : Nat) (w : W64) (op : Nat) : State :=
  s.issue d c t w 2 op (fun s o =>
    let x := s.die d
    s.checked d o (s.vecBroken d c w op)
      (let (key, x1) := x.freshKey
       s.setDie d (x1.modVec c (fun v => { v with queue := v.queue ++ [x.vecCmd c w op key o] }))))

/-- ADD: y := x + b. -/
def execAdd (d c t : Nat) (w : W64) (s : State) : Host.Outcome State Fault Refusal :=
  .next (s.issueVec d c t w 0x08)

/-- MUL: y := x × b. -/
def execMul (d c t : Nat) (w : W64) (s : State) : Host.Outcome State Fault Refusal :=
  .next (s.issueVec d c t w 0x09)

/-- FMA: y := fma(x, b, c). -/
def execFma (d c t : Nat) (w : W64) (s : State) : Host.Outcome State Fault Refusal :=
  .next (s.issueVec d c t w 0x0A)

/-- AXPBY: y := (p0 × x) + (p1 × b). -/
def execAxpby (d c t : Nat) (w : W64) (s : State) : Host.Outcome State Fault Refusal :=
  .next (s.issueVec d c t w 0x0B)

/-- MAX. -/
def execMax (d c t : Nat) (w : W64) (s : State) : Host.Outcome State Fault Refusal :=
  .next (s.issueVec d c t w 0x0C)

/-- CONVERT: A narrowed to Y's format; A may be WIDE. -/
def execConvert (d c t : Nat) (w : W64) (s : State) : Host.Outcome State Fault Refusal :=
  .next (s.issueVec d c t w 0x10)

/-- RELU. -/
def execRelu (d c t : Nat) (w : W64) (s : State) : Host.Outcome State Fault Refusal :=
  .next (s.issueVec d c t w 0x14)

/-- GELU. -/
def execGelu (d c t : Nat) (w : W64) (s : State) : Host.Outcome State Fault Refusal :=
  .next (s.issueVec d c t w 0x15)

/-- SILU. -/
def execSilu (d c t : Nat) (w : W64) (s : State) : Host.Outcome State Fault Refusal :=
  .next (s.issueVec d c t w 0x16)

/-- SWIGLU. -/
def execSwiglu (d c t : Nat) (w : W64) (s : State) : Host.Outcome State Fault Refusal :=
  .next (s.issueVec d c t w 0x17)

/-- RELU_BWD. -/
def execReluBwd (d c t : Nat) (w : W64) (s : State) : Host.Outcome State Fault Refusal :=
  .next (s.issueVec d c t w 0x1C)

/-- GELU_BWD. -/
def execGeluBwd (d c t : Nat) (w : W64) (s : State) : Host.Outcome State Fault Refusal :=
  .next (s.issueVec d c t w 0x1D)

/-- SILU_BWD. -/
def execSiluBwd (d c t : Nat) (w : W64) (s : State) : Host.Outcome State Fault Refusal :=
  .next (s.issueVec d c t w 0x1E)

/-- SWIGLU_BWD: writes Y and Z. -/
def execSwigluBwd (d c t : Nat) (w : W64) (s : State) : Host.Outcome State Fault Refusal :=
  .next (s.issueVec d c t w 0x1F)

/-- ROW_SUM. -/
def execRowSum (d c t : Nat) (w : W64) (s : State) : Host.Outcome State Fault Refusal :=
  .next (s.issueVec d c t w 0x20)

/-- ROW_MAX. -/
def execRowMax (d c t : Nat) (w : W64) (s : State) : Host.Outcome State Fault Refusal :=
  .next (s.issueVec d c t w 0x21)

/-- ROW_SUMSQ. -/
def execRowSumsq (d c t : Nat) (w : W64) (s : State) : Host.Outcome State Fault Refusal :=
  .next (s.issueVec d c t w 0x22)

/-- COL_SUM_ACC, in place. -/
def execColSumAcc (d c t : Nat) (w : W64) (s : State) : Host.Outcome State Fault Refusal :=
  .next (s.issueVec d c t w 0x23)

/-- ROW_ARGMAX, a V2 operation. -/
def execRowArgmax (d c t : Nat) (w : W64) (s : State) : Host.Outcome State Fault Refusal :=
  .next (s.issueVec d c t w 0x24)

/-- COL_DOT_ACC, in place. -/
def execColDotAcc (d c t : Nat) (w : W64) (s : State) : Host.Outcome State Fault Refusal :=
  .next (s.issueVec d c t w 0x25)

/-- LAYERNORM, statistics (μ, s) into Z. -/
def execLayernorm (d c t : Nat) (w : W64) (s : State) : Host.Outcome State Fault Refusal :=
  .next (s.issueVec d c t w 0x28)

/-- RMSNORM, statistics (0, s) into Z. -/
def execRmsnorm (d c t : Nat) (w : W64) (s : State) : Host.Outcome State Fault Refusal :=
  .next (s.issueVec d c t w 0x29)

/-- LAYERNORM_BWD. -/
def execLayernormBwd (d c t : Nat) (w : W64) (s : State) : Host.Outcome State Fault Refusal :=
  .next (s.issueVec d c t w 0x2A)

/-- RMSNORM_BWD. -/
def execRmsnormBwd (d c t : Nat) (w : W64) (s : State) : Host.Outcome State Fault Refusal :=
  .next (s.issueVec d c t w 0x2B)

/-- SOFTMAX, statistics (m, S) into Z. -/
def execSoftmax (d c t : Nat) (w : W64) (s : State) : Host.Outcome State Fault Refusal :=
  .next (s.issueVec d c t w 0x2C)

/-- SOFTMAX_BWD. -/
def execSoftmaxBwd (d c t : Nat) (w : W64) (s : State) : Host.Outcome State Fault Refusal :=
  .next (s.issueVec d c t w 0x2D)

/-- NORM_XHAT. -/
def execNormXhat (d c t : Nat) (w : W64) (s : State) : Host.Outcome State Fault Refusal :=
  .next (s.issueVec d c t w 0x2E)

/-- SGD_MOM: C updated in place. -/
def execSgdMom (d c t : Nat) (w : W64) (s : State) : Host.Outcome State Fault Refusal :=
  .next (s.issueVec d c t w 0x30)

/-- ADAMW: C and Z updated in place. -/
def execAdamw (d c t : Nat) (w : W64) (s : State) : Host.Outcome State Fault Refusal :=
  .next (s.issueVec d c t w 0x31)

/-- LION, a V2 operation: C updated in place. -/
def execLion (d c t : Nat) (w : W64) (s : State) : Host.Outcome State Fault Refusal :=
  .next (s.issueVec d c t w 0x32)

/-- ORTHO: modified Gram–Schmidt (R150). -/
def execOrtho (d c t : Nat) (w : W64) (s : State) : Host.Outcome State Fault Refusal :=
  .next (s.issueVec d c t w 0x34)

/-- DIGEST_FEED: A passes to the sieve, nothing is written. -/
def execDigestFeed (d c t : Nat) (w : W64) (s : State) : Host.Outcome State Fault Refusal :=
  .next (s.issueVec d c t w 0x38)

end Sys2Proof.Machine
end

