-- ==== Sys2Proof/Machine/LadleOps.lean ====
section
/-! DEFINITION. Descriptors of the ladle (R200 to R206): their fields, walks, spans, checks, and the hand-over of
reads and writes. -/
namespace Sys2Proof.Machine

/-! ### Global addresses (R175, R176) -/

def gRank (a : Nat) : Nat := bits a 63 50
def gDie (a : Nat) : Nat := bits a 49 44
def gSpace (a : Nat) : Nat := bits a 43 40
def gOffset (a : Nat) : Nat := a % 2 ^ 40

/-- A logical die number that R25 admits. -/
def dieNumberOk (n : Nat) : Bool := decide (n < 52) && n ≠ 12 && n ≠ 25 && n ≠ 38 && n ≠ 51

/-- The address breaks R175: a reserved SPACE or an excluded DIE. -/
def badGlobal (a : Nat) : Bool := decide (2 ≤ gSpace a) || ! dieNumberOk (gDie a)

/-- The die serves a global address itself (R176). -/
def Die.servedLocally (x : Die) (a : Nat) : Bool :=
  x.fab.selfValid && gRank a = x.fab.rank && gDie a = x.standsFor

/-- Put requests into the remote access unit in order; each waits for injection. -/
def Die.addReqs (x : Die) (l : List Req) : Die :=
  l.foldl (fun x r => { x with
    rem := { x.rem with reqs := x.rem.reqs ++ [{ r with id := x.rem.nextReq }], nextReq := x.rem.nextReq + 1 }
    fab := { x.fab with handoff := x.fab.handoff ++ [.req x.rem.nextReq] } }) x

/-! ### Descriptor fields (R200) -/

abbrev Desc := Bytes
namespace Desc
def src (b : Desc) : Nat := leAt b 0x00 8
def dst (b : Desc) : Nat := leAt b 0x08 8
def kind (b : Desc) : Nat := bits (leAt b 0x10 4) 3 0
def srcGlobal (b : Desc) : Bool := bitAt (leAt b 0x10 4) 4
def dstGlobal (b : Desc) : Bool := bitAt (leAt b 0x10 4) 5
def order (b : Desc) : Bool := bitAt (leAt b 0x10 4) 6
def len0 (b : Desc) : Nat := leAt b 0x14 4
def len1m1 (b : Desc) : Nat := leAt b 0x18 2
def len2m1 (b : Desc) : Nat := leAt b 0x1A 2
def len3m1 (b : Desc) : Nat := leAt b 0x1C 2
def s32 (b : Desc) (off : Nat) : Int := signed 32 (leAt b off 4)
def table (b : Desc) : Nat := leAt b 0x20 8
def ostride (b : Desc) : Int := s32 b 0x28
end Desc

/-- One side of a descriptor: start with v applied, row, plane and volume strides (R201). -/
structure Side where
  isGlobal : Bool := false
  /-- RANK, DIE and SPACE bits of a global side. -/
  top : Nat := 0
  start : Int := 0
  st1 : Int := 0
  st2 : Int := 0
  st3 : Int := 0
  deriving DecidableEq, Repr

/-- The side at offset `off` of its address, with its strides and delta; a global address that the die serves itself
becomes local (R176). -/
def Die.sideOf (x : Die) (b : Desc) (v : Int) (isSrc : Bool) : Side :=
  let a := if isSrc then b.src else b.dst
  let g := if isSrc then b.srcGlobal else b.dstGlobal
  let o := if isSrc then 0 else 4
  let isG := g && ! x.servedLocally a
  { isGlobal := isG
    top := a / 2 ^ 40
    start := (if g then (gOffset a : Int) else (a : Int)) + 64 * v * b.s32 (if isSrc then 0x38 else 0x3C)
    st1 := b.s32 (0x20 + o), st2 := b.s32 (0x28 + o), st3 := b.s32 (0x30 + o) }

/-- Start of row (i1, i2, i3) of a side. -/
def Side.row (d : Side) (i1 i2 i3 : Nat) : Int := d.start + i1 * d.st1 + i2 * d.st2 + i3 * d.st3

/-- The lowest and the highest byte of a side's walk (R202). -/
def Side.span (d : Side) (b : Desc) : Int × Int :=
  let e1 := (b.len1m1 : Int) * d.st1
  let e2 := (b.len2m1 : Int) * d.st2
  let e3 := (b.len3m1 : Int) * d.st3
  (d.start + min 0 e1 + min 0 e2 + min 0 e3, d.start + max 0 e1 + max 0 e2 + max 0 e3 + b.len0 - 1)

/-- The rows of a walk in order (R201). -/
def walkRows (b : Desc) (f : Nat → Nat → Nat → α) : List α :=
  (List.range (b.len3m1 + 1)).flatMap (fun i3 => (List.range (b.len2m1 + 1)).flatMap (fun i2 =>
    (List.range (b.len1m1 + 1)).map (fun i1 => f i1 i2 i3)))

/-! ### Checks (R202) -/

/-- A span of bytes as start and length, when it lies within the 40-bit map. -/
def natSpan (p : Int × Int) : Option (Nat × Nat) :=
  if 0 ≤ p.1 && p.2 < 2 ^ 40 then some (p.1.toNat, (p.2 - p.1 + 1).toNat) else none

/-- LDL_ADDR on one side. -/
def Side.badAddr (d : Side) (b : Desc) (global : Bool) (addr : Nat) : Bool :=
  match natSpan (d.span b) with
  | none => true
  | some (a, n) =>
    if global && (badGlobal addr || gSpace addr = 1) then true
    else if d.isGlobal then false else (spanPlace a n).isNone

/-- LDL_REGION on one local side. -/
def MemUnit.badRegion (m : MemUnit) (a n : Nat) : Bool := placeOf a ≠ .pantry && (m.regionOf a n).isNone

/-- The list and the output of a GATHER as (start, span) with v applied (R196). -/
def gatherList (b : Desc) (v : Int) : Int := (b.src : Int) + 64 * v * b.s32 0x38
def gatherOut (b : Desc) (v : Int) : Int := (b.dst : Int) + 64 * v * b.s32 0x3C

def spansMeet (p q : Int × Int) : Bool := decide (p.1 ≤ q.2) && decide (q.1 ≤ p.2)

def inPlace (pl : Place) (a : Int) : Bool := decide (0 ≤ a) && placeOf a.toNat = pl

/-- Rule 1 of R202 for the fields that COPY and FILL share. -/
def badDecode (b : Desc) (stride4 : Bool) : Bool :=
  bits (leAt b 0x10 4) 31 7 ≠ 0 || leAt b 0x1E 2 ≠ 0 || b.len0 = 0 || decide (16777216 < b.len0) ||
  (! stride4 && (b.len2m1 ≠ 0 || b.len3m1 ≠ 0 || b.s32 0x28 ≠ 0 || b.s32 0x2C ≠ 0 || b.s32 0x30 ≠ 0 || b.s32 0x34 ≠ 0)) ||
  (b.kind = 1 && b.srcGlobal)

/-- Rule 1 of R202 for GATHER. -/
def badGather (b : Desc) (v : Int) : Bool :=
  bits (leAt b 0x10 4) 31 7 ≠ 0 || leAt b 0x1E 2 ≠ 0 || b.len0 % 32 ≠ 0 || b.len0 = 0 || decide (4096 < b.len0) ||
  ! allZero (sliceAt b 0x2C 12) || b.len2m1 ≠ 0 || b.len3m1 ≠ 0 || b.srcGlobal || b.dstGlobal ||
  ! (placeOf b.src = .pantry) || ! (placeOf b.dst = .pantry) || ! (placeOf b.table = .larder) ||
  inPlace .hbm (gatherList b v) || inPlace .larder (gatherList b v) ||
  inPlace .hbm (gatherOut b v) || inPlace .larder (gatherOut b v)

/-- Span of a GATHER's output rows. -/
def gatherOutSpan (b : Desc) (v : Int) : Int × Int :=
  let e := (b.len1m1 : Int) * b.ostride
  (gatherOut b v + min 0 e, gatherOut b v + max 0 e + b.len0 - 1)
def gatherListSpan (b : Desc) (v : Int) : Int × Int := (gatherList b v, gatherList b v + 4 * b.len1m1 + 3)

/-- The span lies in the pantry. -/
def panSpan (p : Int × Int) : Bool :=
  match natSpan p with
  | some (a, n) => spanPlace a n = some .pantry
  | none => false

/-- The broken rules of a descriptor, as (broken, code) (R202). -/
def Die.descRules (x : Die) (b : Desc) (v : Int) : List (Bool × Nat) :=
  if 3 ≤ b.kind then [(true, Code.ldlDecode)]
  else if b.kind = 2 then
    let out := gatherOutSpan b v
    [(badGather b v, Code.ldlDecode),
     (! panSpan (gatherListSpan b v) || ! panSpan out, Code.ldlAddr),
     (! (x.mem.regions.any (fun p => p.2.gather && p.2.holds b.table 1)), Code.ldlRegion),
     ((match natSpan out with
       | some (a, n) => x.mem.frozen a n
       | none => false), Code.ldlFrozen),
     (spansMeet (gatherListSpan b v) out, Code.ldlOverlap)]
  else
    let sd := x.sideOf b v true
    let td := x.sideOf b v false
    let isCopy := b.kind = 0
    let loc := fun (d : Side) => if d.isGlobal then none else natSpan (d.span b)
    [(badDecode b (x.featureEnable.testBit 2), Code.ldlDecode),
     ((isCopy && sd.badAddr b b.srcGlobal b.src) || td.badAddr b b.dstGlobal b.dst, Code.ldlAddr),
     ((isCopy && (match loc sd with
        | some (a, n) => x.mem.badRegion a n
        | none => false)) ||
      (match loc td with
        | some (a, n) => x.mem.badRegion a n
        | none => false), Code.ldlRegion),
     ((match loc td with
        | some (a, n) => x.mem.frozen a n
        | none => false), Code.ldlFrozen),
     (isCopy && ! sd.isGlobal && ! td.isGlobal && spansMeet (sd.span b) (td.span b), Code.ldlOverlap)]

/-! ### Leave of a descriptor (R205, R372) -/

def descBytes (b : Desc) : Nat := b.len0 * (b.len1m1 + 1) * (b.len2m1 + 1) * (b.len3m1 + 1)

/-- Tiers of the die that a descriptor reads and writes: none for the pantry and for a remote side. -/
def Die.descTiers (x : Die) (b : Desc) (v : Int) : Option Place × Option Place :=
  let tier := fun (p : Place) => if p = .hbm || p = .larder then some p else none
  if b.kind = 2 then (some .larder, none)
  else
    let sd := x.sideOf b v true
    let td := x.sideOf b v false
    (if b.kind = 1 || sd.isGlobal then none else tier (placeOf sd.start.toNat),
     if td.isGlobal then none else tier (placeOf td.start.toNat))

def Die.descHeavy (x : Die) (b : Desc) (v : Int) : Bool :=
  let t := x.descTiers b v
  decide (16384 < descBytes b) && (t.1.isSome || t.2.isSome)

def Die.descCost (x : Die) (b : Desc) (v : Int) : Nat :=
  let t := x.descTiers b v
  (if t.1 = some .hbm || t.2 = some .hbm then 12 else 0) + (if t.1 = some .larder || t.2 = some .larder then 6 else 0)

/-- Number that a descriptor's leave request goes by. -/
def descKey (run index : Nat) : Nat := run * 2 ^ 21 + index

/-! ### Reads and writes of a walk -/

/-- Cut a row at 4 KiB boundaries of its source: (source, destination, length); at most `k` parts. -/
def cutRow : Nat → Nat → Nat → Nat → List (Nat × Nat × Nat)
  | 0, _, _, _ => []
  | k + 1, s, t, n =>
    if n = 0 then [] else
    let m := min n (4096 - s % 4096)
    (s, t, m) :: cutRow k (s + m) (t + m) (n - m)

def cutRowAll (s t n : Nat) : List (Nat × Nat × Nat) := cutRow (n / 4096 + 2) s t n

/-- What the reads of a walk's pieces give (R193, R195, R206): the pieces before the first that fails, its address and code, and
the later pieces that can be written while its block waits for re-reads, for they write none of the bytes that a failing
piece writes. -/
structure Reads where
  early : List (Nat × Bytes) := []
  bad : Option (Nat × Nat) := none
  late : List (Nat × Bytes) := []
  deriving DecidableEq, Repr

/-- The later pieces, apart from those that write bytes of a failing one; `held` are the spans that failing pieces write. -/
def MemUnit.laterPieces (m : MemUnit) (u : Consumer) : List (Nat × Nat) → List (Nat × Nat × Nat) → List (Nat × Bytes)
  | _, [] => []
  | held, (s, t, n) :: l =>
    match m.verifiedRead u s n with
    | .bytes bs =>
      if held.any (fun h => decide (h.1 < t + n) && decide (t < h.1 + h.2)) then m.laterPieces u ((t, n) :: held) l
      else (t, bs) :: m.laterPieces u held l
    | _ => m.laterPieces u ((t, n) :: held) l

/-- Read pieces in walk order (R193, R195, R206). -/
def MemUnit.readPieces (m : MemUnit) (u : Consumer) : List (Nat × Nat × Nat) → Reads
  | [] => {}
  | (s, t, n) :: l =>
    match (m.verifiedRead u s n).fault Code.ldlRegion with
    | .inr e => { bad := some e, late := m.laterPieces u [(t, n)] l }
    | .inl bs =>
      let r := m.readPieces u l
      { r with early := (t, bs) :: r.early }

/-- Cut pieces at the block borders of their destination. -/
def cutPieces (ps : List (Nat × Bytes)) : List (Nat × Nat × Bytes) :=
  ps.flatMap (fun p => (blocksOf p.1 p.2).flatMap (fun b => b.2.map (fun q => (b.1, q.1, q.2))))

/-- Group consecutive pieces of one block into one write (R201). -/
def groupRuns (o : KilnOwner) : List (Nat × Nat × Bytes) → List KilnReq
  | [] => []
  | (b, off, bs) :: l =>
    match groupRuns o l with
    | [] => [{ owner := o, block := b, pieces := [(off, bs)] }]
    | r :: rs => if r.block = b then { r with pieces := (off, bs) :: r.pieces } :: rs
                 else { owner := o, block := b, pieces := [(off, bs)] } :: r :: rs

/-- Write pieces to a local destination: the pantry at once, HBM and the larder through the kiln. The count is that of
the kiln writes handed over. -/
def Die.writePieces (x : Die) (o : KilnOwner) (ps : List (Nat × Bytes)) : Die × Nat :=
  let pan := ps.filter (fun p => placeOf p.1 = .pantry)
  let rs := groupRuns o (cutPieces (ps.filter (fun p => placeOf p.1 ≠ .pantry)))
  let x1 := pan.foldl (fun x p => x.panStore p.1 p.2) x
  ({ x1 with mem := rs.foldl MemUnit.kilnPush x1.mem }, rs.length)

/-- Write runs of pieces, each by itself (R201). -/
def Die.writeRuns (x : Die) (o : KilnOwner) (runs : List (List (Nat × Bytes))) : Die × Nat :=
  runs.foldl (fun r ps => let w := r.1.writePieces o ps; (w.1, r.2 + w.2)) (x, 0)

/-- Cut a run of bytes into packets of at most 220 (R306): (offset, length). -/
def cut220 : Nat → Nat → Nat → List (Nat × Nat)
  | 0, _, _ => []
  | k + 1, o, n => if n = 0 then [] else (o, min n 220) :: cut220 k (o + 220) (n - 220)

def packets220 (n : Nat) : List (Nat × Nat) := cut220 (n / 220 + 1) 0 n

/-- The bytes of a fill at `t`: byte k lies at place (t + k) mod 8 of the pattern (R201). -/
def fillBytes (pat t n : Nat) : Bytes :=
  let ps := leBytes 8 pat
  (List.range n).map (fun k => ps.getD ((t + k) % 8) 0)

/-- Change the descriptor in progress with this key. -/
def Chan.modActive (c : Chan) (key : Nat) (f : LdlActive → LdlActive) : Chan :=
  { c with active := c.active.map (fun a => if a.key = key then f a else a) }

/-- The channel's head descriptor: its entry, its run, its bytes. -/
def Die.headDesc (x : Die) (ch : Nat) : Option (LdlFetched × LdlRun × Desc) :=
  (x.chan ch).head.bind (fun h => ((x.chan ch).cq.find? (fun r => r.key = h.entry.run)).map (fun r => (h.entry, r, h.desc)))

/-- A channel without a head takes the next fetched descriptor from its queue (R214). -/
def Die.takeDesc (x : Die) (ch : Nat) : Die :=
  match (x.chan ch).head, (x.chan ch).dq, (x.queue ch).takeHead with
  | none, f :: dq, some (b, q) => (x.modChan ch (fun c => { c with dq := dq, head := some { entry := f, desc := b } })).setQueue ch q
  | _, _, _ => x

/-- The head descriptor starts, or falls away, and the next one is taken; `turn` is the current turn, for leave that it was
granted and has not used (R377). -/
def Die.popDesc (x : Die) (ch turn : Nat) (started : Bool) : Die :=
  let l := match (x.chan ch).head with
    | some h => if started then x.leave else x.leave.drop turn (11 + ch) (descKey h.entry.run h.entry.index)
    | none => x.leave
  (({ x with leave := l } : Die).modChan ch (fun c => { c with head := none })).takeDesc ch

/-- Of the requests of a stopped descriptor, those that have not been injected fall away. -/
def Die.dropUnsent (x : Die) (ch key : Nat) : Die :=
  let mine := fun (r : Req) => ! r.sent && (match r.owner with
    | .ladle h k _ => h = ch && k = key
    | .thread _ => false)
  let gone := (x.rem.reqs.filter mine).map Req.id
  let y : Die := { x with
    rem := { x.rem with reqs := x.rem.reqs.filter (fun r => ! mine r) }
    fab := { x.fab with handoff := x.fab.handoff.filter (fun h => match h with
      | .req i => ! gone.contains i
      | .pkt .. => true) } }
  y.modChan ch (fun c => c.modActive key (fun a => { a with stopped := true, walked := true, requests := a.requests - gone.length }))

/-- A fault of a descriptor in progress: it stops (R206) and the course is stopped. -/
def State.stopDesc (s : State) (d ch key : Nat) (o : Origin) (addr code : Nat) : State :=
  let s1 := s.modDie d (fun x => x.dropUnsent ch key)
  if code = Code.glazeFault || code = Code.gatherFault then s1.ladleFault d o addr code else s1.raise d o code

/-- 64-byte units moved (R475). -/
def units64 (ps : List (Nat × Bytes)) : Nat := ((ps.map (fun p => p.2.length)).foldl (· + ·) 0 + 63) / 64

/-- Deliver runs of read pieces to the destination of descriptor `key`, count what moved, and stop it after a failure. -/
def State.deliver (s : State) (d ch key : Nat) (o : Origin) (runs : List (List (Nat × Bytes))) (bad : Option (Nat × Nat)) : State :=
  let w := (s.die d).writeRuns (.ladle ch key) runs
  let x := (w.1.bumpBoth evLines (units64 runs.flatten)).modChan ch (fun c => c.modActive key (fun a =>
    { a with kilnWrites := a.kilnWrites + w.2, walked := true }))
  let s1 := s.setDie d x
  match bad with
  | some (a, code) => s1.stopDesc d ch key o a code
  | none => s1

/-- Of the writes of stopped descriptors that wait at a kiln, each descriptor's first stays: the block that it is writing. -/
def keepFirst (seen : List KilnOwner) : List KilnReq → List KilnReq
  | [] => []
  | q :: l =>
    match q.owner with
    | .ladle _ _ => if seen.contains q.owner then keepFirst seen l else q :: keepFirst (q.owner :: seen) l
    | _ => q :: keepFirst seen l

/-- Kiln writes of descriptor `key` of channel `ch` that wait. -/
def MemUnit.kilnOf (m : MemUnit) (ch key : Nat) : Nat :=
  ((m.hbmKiln ++ m.larKiln).filter (fun q => q.owner = .ladle ch key)).length

/-- R206: a stop of the menu discards the channel's queued runs and descriptors; a descriptor in progress finishes the block
that it is writing and stops. Its requests that have not been injected are dropped. -/
def Die.discardLadle (x : Die) (turn : Nat) : Die :=
  [0, 1, 2, 3].foldl (fun x ch =>
    let c := x.chan ch
    let mine := fun (r : Req) => match r.owner with
      | .ladle h _ _ => h = ch
      | _ => false
    let gone := (x.rem.reqs.filter (fun r => mine r && ! r.sent)).map Req.id
    let keep := x.rem.reqs.filter (fun r => ! gone.contains r.id)
    let l := ((c.head.map LdlHead.entry).toList ++ c.dq).foldl (fun l f => l.drop turn (11 + ch) (descKey f.run f.index)) x.leave
    let y : Die := { x with
      leave := l
      mem := { x.mem with hbmKiln := keepFirst [] x.mem.hbmKiln, larKiln := keepFirst [] x.mem.larKiln }
      rem := { x.rem with reqs := keep }
      fab := { x.fab with handoff := x.fab.handoff.filter (fun h => match h with
        | .req i => ! gone.contains i
        | _ => true) } }
    let y := y.modChan ch (fun c => { c with cq := [], dq := [], head := none, active := c.active.map (fun a =>
      { a with stopped := true, walked := true, kilnWrites := y.mem.kilnOf ch a.key
               requests := (keep.filter (fun r => match r.owner with
                 | .ladle h k _ => h = ch && k = a.key
                 | _ => false)).length }) })
    if (y.queue ch).cells = 0 then y else y.setQueue ch (y.queue ch).flush) x

end Sys2Proof.Machine
end

