-- ==== Sys2Proof/Machine/Ladle.lean ====
section
/-! DEFINITION. Commands of the ladle, verified reads and the queue pool (chapters 06 and 07). -/
namespace Sys2Proof.Machine

/-! ### LDL_RUN and the fetch of descriptors -/

/-- LDL_RUN (R198). -/
def execLdlRun (d c t : Nat) (w : W64) (s : State) : Host.Outcome State Fault Refusal :=
  .next (s.issue d c t w 3 1 (fun s o =>
    let x := s.die d
    let ch := wField w 45 44
    let first := wField w 43 24
    let n := wField w 23 12 + 1
    let ctr := (((x.seq c).thread t).ctr).getD (wField w 11 9) 0
    s.checked d o [(! bodyOk w (maskOf 45 8) || decide (x.ladle.descCount < first + n), Code.ldlDecode)]
      (s.setDie d (x.modChan ch (fun k => { k with
        nextKey := k.nextKey + 1
        cq := k.cq ++ [{ key := k.nextKey, org := o, first := first, count := n,
                         v := if wBit w 8 then signed 32 ctr else 0 }] })))))

/-- The run whose next descriptor the channel fetches. -/
def Chan.toFetch (c : Chan) : Option LdlRun := c.cq.find? (fun r => decide (r.fetched < r.count))

/-- LDL_DESC_FETCH: the fetch-ahead of a descriptor into its cell completes and is verified, or is held as failed
(R197); it is not due while 32 descriptors are held. The pool takes a free cell for it, or refuses it and counts that (R217). -/
def execLdlDescFetch (d ch : Nat) (s : State) : Host.Outcome State Fault Refusal :=
  .next (let x := s.die d
    let c := x.chan ch
    let k := s.fresh
    match c.toFetch with
    | none => s
    | some r =>
      let i := r.first + r.fetched
      let a := x.ladle.descBase * 4096 + 64 * i
      let adm := x.admission ch 1 (r.key, i) k.1
      if 4 ≤ ch || 32 ≤ (x.queue ch).cells then s
      else if adm.2 ≠ .admitted then s.setDie d adm.1
      else
        let code := match (x.mem.verifiedRead (.ladle ch) a 64).fault Code.ldlRegion with
          | .inl _ => 0
          | .inr e => e.2
        let x1 := adm.1.readDone (.ladle ch) (some r.org.core) [(a, 64)]
        let x2 := x1.setQueue ch (((x1.queue ch).fillPart (r.key, i) (fun _ => x.mem.cells.readN a 64)).partWritten (r.key, i))
        k.2.setDie d (x2.modChan ch (fun c => { c with
          cq := c.cq.map (fun q => if q.key = r.key then { q with fetched := q.fetched + 1 } else q)
          dq := c.dq ++ [{ run := r.key, index := i, failCode := code }] })))

/-! ### COPY, FILL, GATHER -/

/-- Rows of a walk as (source, destination, length). -/
def rowsOf (b : Desc) (sd td : Side) : List (Nat × Nat × Nat) :=
  walkRows b (fun i1 i2 i3 => ((sd.row i1 i2 i3).toNat, (td.row i1 i2 i3).toNat, b.len0))

/-- Requests that write a row of `n` bytes to the global side; `bytes` supplies fixed contents, else the packets read
the local source when they are formed (R305). -/
def storeReqs (own : ReqOwner) (td : Side) (s t n : Nat) (bytes : Option Bytes) : List Req :=
  (packets220 n).map (fun p =>
    { owner := own, kind := .store, rank := td.top / 1024, die := td.top / 16 % 64, addr := td.top % 16 * 2 ^ 40 + (t + p.1)
      src := s + p.1, len := p.2
      fixed := bytes.map (fun bs => sliceAt bs p.1 p.2) })

/-- Hand over the writes of pieces that have been read: to this die, or as STORE packets with fixed contents. -/
def State.handPieces (s : State) (d ch key : Nat) (o : Origin) (td : Side) (runs : List (List (Nat × Bytes)))
    (bad : Option (Nat × Nat)) : State :=
  let ps := runs.flatten
  if ! td.isGlobal then s.deliver d ch key o runs bad
  else
    let rs := ps.flatMap (fun p => storeReqs (.ladle ch key o) td 0 p.1 p.2.length (some p.2))
    let x := (((s.die d).addReqs rs).bumpBoth evLines (units64 ps)).modChan ch (fun c => c.modActive key (fun a =>
      { a with requests := a.requests + rs.length, walked := true }))
    let s1 := s.setDie d x
    match bad with
    | some (a, code) => s1.stopDesc d ch key o a code
    | none => s1

/-- A copy whose source is local: it reads verified pieces in walk order and hands over the writes; toward another die
its packets read the source as they are formed. When a block fails all its reads, the earlier pieces stand, and how many of the
later ones had been handed over by then is free (R206, log 19). -/
def State.copyLocal (s : State) (d ch key : Nat) (o : Origin) (b : Desc) (sd td : Side) : State :=
  let x := s.die d
  let rows := rowsOf b sd td
  let cut := rows.flatMap (fun r => cutRowAll r.1 r.2.1 r.2.2)
  if td.isGlobal then
    let rs := rows.flatMap (fun r => storeReqs (.ladle ch key o) td r.1 r.2.1 r.2.2 none)
    let n := ((rows.map (fun r => r.2.2)).foldl (· + ·) 0 + 63) / 64
    s.setDie d (((x.addReqs rs).bumpBoth evLines n).modChan ch (fun c => c.modActive key (fun a =>
      { a with requests := a.requests + rs.length, walked := true })))
  else
    let s1 := if placeOf sd.start.toNat = .pantry then s.panScans d o (cut.map (fun p => (p.1, p.2.2))) else s
    let r := (s1.die d).mem.readPieces (.ladle ch) cut
    let k := s1.fresh
    let s2 := (if r.bad.isSome then k.2 else s1).modDie d (fun x =>
      x.readDone (.ladle ch) (some o.core) (cut.map (fun p => (p.1, p.2.2))))
    s2.deliver d ch key o [r.early, r.late.take (Config.freeLate k.1 % (r.late.length + 1))] r.bad

/-- A copy from another die asks for every block that its source span touches (R306). -/
def State.copyRemote (s : State) (d ch key : Nat) (o : Origin) (b : Desc) (sd : Side) : State :=
  let p := sd.span b
  let lo := p.1.toNat / 4096
  let hi := p.2.toNat / 4096
  let rs : List Req := (List.range (hi + 1 - lo)).map (fun i =>
    { owner := .ladle ch key o, kind := .blockRead, rank := sd.top / 1024, die := sd.top / 16 % 64,
      addr := (lo + i) * 4096, len := 4108 })
  s.setDie d (((s.die d).addReqs rs).modChan ch (fun c => c.modActive key (fun a => { a with requests := rs.length })))

/-- A FILL (R201). -/
def State.fillRun (s : State) (d ch key : Nat) (o : Origin) (b : Desc) (td : Side) : State :=
  let ps := (rowsOf b {} td).map (fun r => (r.2.1, fillBytes b.src r.2.1 r.2.2))
  s.handPieces d ch key o td [ps] none

/-- Rows of a GATHER from row `r` on: the pieces read, and the address and code of a failure (R196). -/
def MemUnit.gatherRowsGo (m : MemUnit) (u : Consumer) (b : Desc) (reg : Region) (list out : Nat) :
    Nat → Nat → List (Nat × Bytes) × Option (Nat × Nat)
  | 0, _ => ([], none)
  | k + 1, r =>
    let row := b.table + leNat 4 (m.cells.readN (list + 4 * r) 4) * b.len0
    if ! reg.holds row b.len0 then ([], some (row, Code.gatherIndex))
    else match (m.verifiedRead u row b.len0).fault Code.ldlRegion with
      | .inr e => ([], some e)
      | .inl bs =>
        let rest := m.gatherRowsGo u b reg list out k (r + 1)
        ((((out : Int) + r * b.ostride).toNat, bs) :: rest.1, rest.2)

/-- A GATHER (R196). -/
def State.gatherRun (s : State) (d ch key : Nat) (o : Origin) (b : Desc) (v : Int) : State :=
  let list := (gatherList b v).toNat
  let s1 := (s.panLoad d o list (4 * (b.len1m1 + 1))).1
  let m := (s1.die d).mem
  match m.regions.find? (fun p => p.2.gather && p.2.holds b.table 1) with
  | none => s1
  | some (_, reg) =>
    let r := m.gatherRowsGo (.ladle ch) b reg list (gatherOut b v).toNat (b.len1m1 + 1) 0
    let rows := (List.range r.1.length).map (fun i => (b.table + leNat 4 (m.cells.readN (list + 4 * i) 4) * b.len0, b.len0))
    let s2 := (s1.modDie d (fun x => (x.readDone (.ladle ch) (some o.core) rows).forget (.ladle ch) reg.start
      (reg.stop - reg.start))).deliver d ch key o [r.1] r.2
    s2.modDie d (fun x => { x with mem := { x.mem with gatherRows := satAdd 32 x.mem.gatherRows r.1.length } })

/-- The head descriptor of channel `ch` as `kind`: a failed fetch raises its code once every earlier descriptor has
completed (R197); the checks of R202; the order of R203; leave when heavy (R205); then its reads and writes. -/
def State.descStart (s : State) (d ch kind : Nat) : State :=
  let x := s.die d
  match x.headDesc ch with
  | none => s
  | some (f, run, b) =>
    let act := (x.chan ch).active
    if f.failCode ≠ 0 then
      if ! act.isEmpty then s
      else
        let s1 := s.setDie d (x.popDesc ch s.turn false)
        if f.failCode = Code.ldlRegion then s1.raise d run.org Code.ldlRegion
        else s1.ladleFault d run.org ((x.ladle.descBase * 4096 + 64 * f.index) / 4096 * 4096) f.failCode
    else if b.kind ≠ kind && decide (b.kind ≤ 2) then s
    else match lowestCode (x.descRules b run.v) with
      | some code => (s.setDie d (x.popDesc ch s.turn false)).raise d run.org code
      | none =>
        if (b.order && ! act.isEmpty) || act.any (fun a => ! a.walked) then s
        else if x.descHeavy b run.v && ! x.leave.granted (11 + ch) (descKey f.run f.index) then s
        else
          let key := descKey f.run f.index
          let s1 := s.setDie d ((x.popDesc ch s.turn true).modChan ch (fun c => { c with
            curDesc := f.index
            active := c.active ++ [{ key := key, run := f.run, index := f.index, org := run.org, desc := b, v := run.v }] }))
          let sd := x.sideOf b run.v true
          let td := x.sideOf b run.v false
          if b.kind = 0 then
            if sd.isGlobal then s1.copyRemote d ch key run.org b sd else s1.copyLocal d ch key run.org b sd td
          else if b.kind = 1 then s1.fillRun d ch key run.org b td
          else s1.gatherRun d ch key run.org b run.v

/-- COPY. -/
def execCopy (d ch : Nat) (s : State) : Host.Outcome State Fault Refusal := .next (s.descStart d ch 0)
/-- FILL. -/
def execFill (d ch : Nat) (s : State) : Host.Outcome State Fault Refusal := .next (s.descStart d ch 1)
/-- GATHER. -/
def execGather (d ch : Nat) (s : State) : Host.Outcome State Fault Refusal := .next (s.descStart d ch 2)

/-- LDL_DESC_COMPLETE: the oldest descriptor in progress has had every write accepted (R204); the last of a run counts
the run's tag, unless it was stopped (R206). -/
def execLdlDescComplete (d ch : Nat) (s : State) : Host.Outcome State Fault Refusal :=
  .next (let x := s.die d
    match (x.chan ch).active with
    | [] => s
    | a :: rest =>
      if ! a.walked || a.kilnWrites ≠ 0 || a.requests ≠ 0 then s
      else
        let s1 := (s.setDie d (x.modChan ch (fun c => { c with active := rest }))).releaseLeave d (11 + ch) a.key
        if a.stopped then s1
        else match (x.chan ch).cq.find? (fun r => r.key = a.run) with
          | none => s1
          | some r =>
            let last := decide (r.count ≤ r.doneN + 1)
            let s2 := s1.modDie d (fun x => x.modChan ch (fun c => { c with
              cq := if last then c.cq.filter (fun q => q.key ≠ a.run)
                    else c.cq.map (fun q => if q.key = a.run then { q with doneN := q.doneN + 1 } else q) }))
            if last then s2.countTag d r.org else s2)

/-! ### Reads of blocks, granules and pantry words -/

/-- A read of a unit of memory as delivered: `upset` changes one byte of the data or, past them, of the check bytes. -/
def upsetBytes (bs : Bytes) (upset : Option (Nat × Byte)) : Bytes :=
  match upset with
  | none => bs
  | some (i, v) => setAt bs i ((bs.getD i 0) ^^^ v)

/-- The next descriptor that channel `ch` fetches lies in the block at `a`. -/
def Die.fetchesFrom (x : Die) (ch a : Nat) : Bool :=
  match (x.chan ch).toFetch with
  | none => false
  | some r => (x.ladle.descBase * 4096 + 64 * (r.first + r.fetched)) / 4096 * 4096 = a

/-- The head descriptor of channel `ch` reads from the `n` bytes at `a`: its local source, or its gather region. -/
def Die.headReads (x : Die) (ch a n : Nat) : Bool :=
  match x.headDesc ch with
  | none => false
  | some (_, run, b) =>
    if b.kind = 2 then x.mem.regions.any (fun p => p.2.gather && p.2.holds b.table 1 && p.2.holds a n)
    else
      let sd := x.sideOf b run.v true
      b.kind = 0 && ! sd.isGlobal && match natSpan (sd.span b) with
        | some (t, k) => decide (t < a + n) && decide (a < t + k)
        | none => false

/-- A consumer has the `n` bytes at `a` to read: the ladle for a fetch or for its head descriptor, a kiln for a write that it
holds. What the other consumers read is left to the command (log 94). -/
def Die.consumes (x : Die) (u : Consumer) (a n : Nat) : Bool :=
  match u with
  | .ladle ch => x.fetchesFrom ch (a / 4096 * 4096) || x.headReads ch a n
  | .kiln => (x.mem.hbmKiln ++ x.mem.larKiln).any (fun q => q.block = a / 4096 * 4096)
  | _ => true

/-- What follows a read that matched or not, for consumer `u` (R193): the count of failed reads and the count of re-reads. The
consumers act on a block that has failed three times in their own rows. -/
def State.readOutcome (s : State) (d : Nat) (u : Consumer) (a : Nat) (good : Bool) : State :=
  let x := s.die d
  let n := x.mem.failCount u a
  let core := match u with
    | .sequencer c => some c
    | .ladle ch => ((x.headDesc ch).map (fun h => h.2.1.org.core))
    | _ => none
  let rereads := fun (x : Die) => if n = 0 then x else match core with
    | some c => x.bump c evReread 1
    | none => x
  if good then
    let y : Die := rereads { x with mem := x.mem.setFail u a 0 }
    match u with
    | .ladle _ => s.setDie d { y with ladle := { y.ladle with rereads := satAdd 32 y.ladle.rereads (if n = 0 then 0 else 1) } }
    | _ => s.setDie d y
  else
    s.setDie d (rereads { x with mem := x.mem.setFail u a (min 3 (n + 1)) })

/-- The stack that holds an HBM block counts the ECC events that it reports with a read: how many is free (R182, log 189). -/
def State.stackReports (s : State) (d a : Nat) : State :=
  if placeOf a ≠ .hbm then s else
  let i := a / 4096 % 2
  let k := s.fresh
  k.2.modDie d (fun x => { x with mem := { x.mem with
    hbmCorrected := x.mem.hbmCorrected.put i (satAdd 32 (x.mem.hbmCorrected.getD i 0) (Config.freeEcc k.1 0))
    hbmUncorrected := x.mem.hbmUncorrected.put i (satAdd 16 (x.mem.hbmUncorrected.getD i 0) (Config.freeEcc k.1 1)) } })

/-- GLAZE_BLOCK_READ: a read of a block and its tag completes (R192, R193), whatever its stack reports of it (R182). -/
def execGlazeBlockRead (d : Nat) (u : Consumer) (addr : Nat) (upset : Option (Nat × Byte)) (s : State) :
    Host.Outcome State Fault Refusal :=
  .next (let x := s.die d
    match x.mem.regionOf addr 4096 with
    | none => s
    | some r =>
      if addr % 4096 ≠ 0 || placeOf addr = .pantry || r.gather || x.mem.failCount u addr = 3 || ! x.consumes u addr 4096 then s
      else
        let got := upsetBytes (x.mem.cells.readN addr 4096 ++ x.mem.cells.readN (tagAddr addr) 8) upset
        (s.stackReports d addr).readOutcome d u addr (got.drop 4096 == tagFor r addr (got.take 4096)))

/-- GATHER_GRANULE_READ: a read of a granule and its CRC-16 completes (R195). -/
def execGatherGranuleRead (d : Nat) (u : Consumer) (addr : Nat) (upset : Option (Nat × Byte)) (s : State) :
    Host.Outcome State Fault Refusal :=
  .next (let x := s.die d
    match x.mem.regionOf addr 32 with
    | none => s
    | some r =>
      if addr % 32 ≠ 0 || placeOf addr = .pantry || ! r.gather || x.mem.failCount u addr = 3 || ! x.consumes u addr 32 then s
      else
        let got := upsetBytes (x.mem.cells.readN addr 32 ++
          x.mem.cells.readN (r.crcBase * 4096 + 2 * ((addr - r.start) / 32)) 2) upset
        s.readOutcome d u addr (leNat 2 (got.drop 32) == crc16 (got.take 32)))

/-- The word `w` of the pantry has `flips` more of its bits changed. One changed bit is corrected whenever the word is read;
more make it uncorrectable, and it then reads as it is: which of its 64 bits have changed is free (R180; `k` is the number of
the free value). -/
def MemUnit.upsetWord (m : MemUnit) (w flips k : Nat) : MemUnit :=
  if flips = 0 then m
  else if flips = 1 && ! m.panSingle.contains w && ! m.panBad.contains w then { m with panSingle := insertNat w m.panSingle }
  else
    let old := leNat 8 (m.cells.readN (8 * w) 8)
    { m with
      cells := m.cells.write (8 * w) (leBytes 8 (old ^^^ Config.freeFlips k))
      panBad := insertNat w m.panBad, panSingle := m.panSingle.filter (· ≠ w) }

/-- PANTRY_READ: a granted read of the word at `addr` by a unit of core `c` finds `flips` bits of it changed. One is
corrected and counted, and the stored word keeps its error; more are uncorrectable, delivered as read, counted and
raised against the course of the core (R180). -/
def execPantryRead (d c addr flips : Nat) (s : State) : Host.Outcome State Fault Refusal :=
  .next (if placeOf addr ≠ .pantry then s else
    let k := s.fresh
    let x := s.die d
    let w := addr / 8
    let q := x.seq c
    let r := (x.mem.upsetWord w flips k.1).panScan (8 * w) 8
    let s1 := k.2.setDie d { x with mem := r.1 }
    if r.2 then s1.raiseAt d c Code.panUncorrectable q.off 0xFF 0xFFFFFFFF else s1)

/-! ### The queue pool -/

/-- A thread that waits in TAKE on queue `q` takes the head item (R214, R325): one that is too large stays and stops
the course. -/
def State.serveTake (s : State) (d q : Nat) : State :=
  let x := s.die d
  let waiting := [0, 1].flatMap (fun c => (List.range 16).filterMap (fun t =>
    match ((x.seq c).thread t).wait with
    | .take k pan n own word => if k = q then some (c, t, pan, n, own, word) else none
    | _ => none))
  match waiting with
  | [] => s
  | (c, t, pan, n, own, word) :: _ =>
    match (x.queue q).items with
    | [] => s
    | i :: _ =>
      let o : Origin := { core := c, thread := t, word := word, off := (x.seq c).off, tag := own }
      if n * 64 < i.data.length then s.raise d o Code.qplItemSize
      else match (x.queue q).takeHead with
        | none => s
        | some (item, q2) =>
          let s1 := s.setDie d ((x.setQueue q q2).panStore (pantryBase + 64 * pan) item)
          ((s1.modThread d c t (fun th => { th with wait := .ready })).countTag d o).runOff d c t

/-- What follows the completion of an item: a ladle channel without a head takes its descriptor (R214); a UNIT or HEARTH
consumer is signalled when DEPTH reaches BATCH (R222); a TAKE that waits takes the item. -/
def State.itemIn (s : State) (d q : Nat) : State :=
  if q < 4 then s.modDie d (fun x => x.takeDesc q)
  else
    let k := (s.die d).queue q
    if k.consumer ≠ 0 && decide (k.batch ≤ k.depth) then s.modDie d (fun x => x.setQueue q k.serveUnit)
    else s.serveTake d q

/-- QPL_ITEM_COMPLETE: the item of the queue whose last cell was written first counts in DEPTH (R213). -/
def execQplItemComplete (d q : Nat) (s : State) : Host.Outcome State Fault Refusal :=
  .next (let k := (s.die d).queue q
    if k.written.isEmpty then s else (s.modDie d (fun x => x.setQueue q k.complete)).itemIn d q)

/-- IDLE_TIMER_FIRE: the idle timer of a queue that holds complete items reaches IDLE_TO (R222). A UNIT or HEARTH consumer with
IDLE_ACT wake takes the items that stand. A number `d` above those of the sites names the pool of the hearth that serves: its
notice queue 16 + h wakes, and the notices of hatch h that are not yet sent leave (R227). -/
def execIdleTimerFire (d q : Nat) (s : State) : Host.Outcome State Fault Refusal :=
  .next (if 52 ≤ d then (if 16 ≤ q && q < 32 then s.gatherNotices (q - 16) 1 else s) else
    let x := s.die d
    let k := x.queue q
    if k.idleTo = 0 || k.items.isEmpty || k.fired then s
    else
      let k1 := { k with fired := true, idleEvents := satAdd 16 k.idleEvents 1 }
      let s1 := s.setDie d (x.setQueue q (if k.idleAct = 1 && k.consumer ≠ 0 then k1.serveUnit else k1))
      if k.idleAct = 2 then
        let mh := ((x.seq 0).menu.orElse (fun _ => (x.seq 1).menu)).bind s.menu
        s1.noticeTo (mh.map Menu.noticeHatch) Code.qplIdle (dieSubject x.standsFor) q k.items.length 0
      else s1)

/-- A flush of a ladle descriptor queue outside R206 discards the descriptors that were fetched ahead; the runs stand, and the
channel fetches those descriptors again (DESIGN CHOICE, log 191). -/
def Die.dropFetched (x : Die) (q : Nat) : Die :=
  if 4 ≤ q then x
  else x.modChan q (fun c => { c with
    dq := []
    cq := c.cq.map (fun r => { r with fetched := r.fetched - (c.dq.filter (fun f => f.run = r.key)).length }) })

/-- The flush of one queue (R224). A message whose partial item goes is remembered as discarded, so that its later
parts are acknowledged (R324). -/
def Die.flushQueue (x : Die) (q : Nat) : Die :=
  let y := (x.setQueue q (x.queue q).flush).dropFetched q
  { y with rem := { y.rem with tgt := y.rem.tgt.mapVal (fun _ t =>
      { t with msgs := t.msgs.map (fun m => if m.queue = q then { m with discarded := true } else m) }) } }

/-- FLUSH: a hearth's write of 1 to the queue's FLUSH; queues 36 to 63 ignore it (R226). -/
def execFlush (d q : Nat) (s : State) : Host.Outcome State Fault Refusal :=
  .next (if (36 ≤ q && q < 64) || 1024 ≤ q then s else s.modDie d (fun x => x.flushQueue q))

end Sys2Proof.Machine
end

