-- ==== Sys2Proof/Machine/Packets.lean ====
section
/-! DEFINITION. Bits of the link: link words, packets and flits (R238, R277 to R280), idle frames (R240) and the
FAB_AREA (R266). -/
namespace Sys2Proof
open Machine

/-! ### CRC-32 (R238) -/

/-- CRC-32 of IEEE 802.3. -/
def crc32 (bs : Bytes) : Nat :=
  (bs.foldl (fun c b => crcBitsR 0xEDB88320 8 (c ^^^ b.toNat)) 0xFFFFFFFF) ^^^ 0xFFFFFFFF

/-! ### Link word (R278) -/

def LinkWord.encode (l : LinkWord) : Nat :=
  (l.creditQ % 1024) * 2 ^ 22 + (l.creditN % 64) * 2 ^ 16 + (l.sharedN % 64) * 2 ^ 10 + (if l.usedShared then 2 ^ 9 else 0) +
    (if l.isNull then 2 ^ 8 else 0)

def LinkWord.decode (n : Nat) : LinkWord :=
  { creditQ := bits n 31 22, creditN := bits n 21 16, sharedN := bits n 15 10, usedShared := bitAt n 9, isNull := bitAt n 8 }

/-! ### Routing header (R279) -/

/-- First word of the routing header. -/
def Packet.word0 (p : Packet) : Nat :=
  (p.dstRank % 2 ^ 14) * 2 ^ 50 + (p.dstDie % 64) * 2 ^ 44 + (p.dstCoord % 2 ^ 14) * 2 ^ 30 + (p.srcRank % 2 ^ 14) * 2 ^ 16 +
    (p.srcDie % 64) * 2 ^ 10 + (p.cls % 4) * 2 ^ 8 + (p.phase % 8) * 2 ^ 5 + (if p.mark then 16 else 0)

/-- Second word of the routing header. -/
def Packet.word1 (p : Packet) : Nat :=
  (p.epoch % 2 ^ 16) * 2 ^ 48 + (p.job % 2 ^ 12) * 2 ^ 36 + (p.via % 128) * 2 ^ 29 + (p.ttl % 64) * 2 ^ 23 +
    (p.payload.length % 256) * 2 ^ 15

/-- The 248 bytes of a flit body after its link word (R277). -/
def Packet.encode (p : Packet) : Bytes :=
  leBytes 8 p.word0 ++ leBytes 8 p.word1 ++ sliceAt p.trans 0 12 ++ sliceAt p.payload 0 220

/-- A reserved field of the TRANSPORT bytes or of the payload is not zero (R280, R307, R308, R355). The bits of a BOUNCE that R280
gives no meaning count as reserved (DEDUCED, log 195). -/
def transOdd (trans payload : Bytes) : Bool :=
  let kind := bits (byteAt trans 0) 7 4
  let addr := leAt trans 5 6
  match bits (byteAt trans 0) 3 0 with
  | 5 => bits (byteAt trans 1) 7 3 ≠ 0 || (if kind = 9 then addr / 2 ^ 12 ≠ 0 else if 8 ≤ kind then addr ≠ 0 else addr / 2 ^ 44 ≠ 0) ||
      (decide (8 ≤ kind) && (bitAt (byteAt trans 1) 1 || bitAt (byteAt trans 1) 2)) || (kind ≠ 2 && bitAt (byteAt trans 1) 1) ||
      (decide (kind < 8) && bitAt (byteAt trans 1) 0) ||
      (kind = 3 && (bits (byteAt payload 0) 7 5 ≠ 0 || leAt payload 1 3 ≠ 0))
  | 4 => kind = 0 || decide (10 < kind) || bits (byteAt trans 10) 7 5 ≠ 0
  | 0 => bits (byteAt trans 0) 7 4 ≠ 0 || leAt trans 2 2 / 2 ^ 14 ≠ 0 || byteAt trans 5 / 2 ≠ 0 || leAt trans 6 6 ≠ 0
  | _ => false

/-- Read a packet out of the 248 bytes; `odd` marks a non-zero reserved field or LEN above 220 (R280). -/
def Packet.decode (bs : Bytes) : Packet :=
  let a := leAt bs 0 8
  let b := leAt bs 8 8
  let len := bits b 22 15
  { dstRank := bits a 63 50, dstDie := bits a 49 44, dstCoord := bits a 43 30, srcRank := bits a 29 16, srcDie := bits a 15 10
    cls := bits a 9 8, phase := bits a 7 5, mark := bitAt a 4
    epoch := bits b 63 48, job := bits b 47 36, via := bits b 35 29, ttl := bits b 28 23
    odd := bits a 3 0 ≠ 0 || bits b 14 0 ≠ 0 || decide (220 < len) || transOdd (sliceAt bs 16 12) (sliceAt bs 28 len)
    trans := sliceAt bs 16 12, payload := sliceAt bs 28 len }

/-- The 252-byte BODY of a flit (R277); a NULL flit is zero past its link word (R278). -/
def flitBody (l : LinkWord) (p : Option Packet) : Bytes :=
  leBytes 4 l.encode ++ (match p with
    | some q => q.encode
    | none => List.replicate 248 0)

/-- CRC of a flit: over its sequence number and its body (R238). -/
def flitCrc (seq : Nat) (body : Bytes) : Nat := crc32 (leBytes 2 seq ++ body)

/-! ### Transport header of remote access (R307) -/

/-- TRANSPORT bytes of a remote access packet; the timestamp is the last byte. -/
def raTrans (kind : Nat) (echo flag opn : Bool) (seq addr turn : Nat) : Bytes :=
  leBytes 1 (5 + 16 * kind) ++ leBytes 1 ((if echo then 1 else 0) + (if flag then 2 else 0) + (if opn then 4 else 0)) ++
    leBytes 3 seq ++ leBytes 6 addr ++ leBytes 1 turn

def Packet.owner (p : Packet) : Nat := bits (byteAt p.trans 0) 3 0
def Packet.kind (p : Packet) : Nat := bits (byteAt p.trans 0) 7 4
def Packet.echo (p : Packet) : Bool := bitAt (byteAt p.trans 1) 0
def Packet.flag (p : Packet) : Bool := bitAt (byteAt p.trans 1) 1
def Packet.opn (p : Packet) : Bool := bitAt (byteAt p.trans 1) 2
def Packet.seq (p : Packet) : Nat := leAt p.trans 2 3
def Packet.addr (p : Packet) : Nat := leAt p.trans 5 6
def Packet.tstamp (p : Packet) : Nat := byteAt p.trans 11
/-- The age of a remote access or whisk packet exceeds 8 turns (R311, R355). -/
def tooOld (turn : Nat) (q : Packet) : Bool := (q.owner = 5 || q.owner = 4) && decide (8 < (turn + 256 - q.tstamp) % 256)
/-- Key of the source session or entry: 64 · rank + die. -/
def Packet.srcKey (p : Packet) : Nat := 64 * p.srcRank + p.srcDie

/-! ### Idle frames (R240) -/

/-- The flag bits of an idle frame. -/
def IdleFrame.flags (f : IdleFrame) : Nat :=
  (if f.nak then 1 else 0) + (if f.replay then 2 else 0) + (if f.hasBeacon then 4 else 0) + (if f.pauseReq then 8 else 0) +
    (if f.pauseAck then 16 else 0) + (if f.laneReq then 32 else 0) + (if f.laneSet then 64 else 0)

/-- The first 508 bytes of an idle frame. -/
def IdleFrame.encode (f : IdleFrame) : Bytes :=
  leBytes 2 1 ++ leBytes 2 f.txNext ++ leBytes 2 f.ackSeq ++ leBytes 2 f.nakSeq ++ leBytes 4 f.flags ++ leBytes 4 0 ++
    sliceAt f.beacon 0 10 ++ List.replicate 6 0 ++ leBytes 6 f.pauseTurn ++ leBytes 1 f.pauseLen ++ List.replicate 9 0 ++
    leBytes 2 f.laneNext ++ leBytes 2 f.laneNow ++ List.replicate 4 0 ++ leBytes 6 f.laneTurn ++ List.replicate 2 0 ++
    sliceAt f.fab 0 256 ++ List.replicate 188 0

/-- Read a frame of 512 bytes; none when its CRC fails or its FRAME_FMT is not 0x0001. -/
def IdleFrame.decode (bs : Bytes) : Option IdleFrame :=
  if bs.length ≠ 512 || leAt bs 0x1FC 4 ≠ crc32 (bs.take 508) || leAt bs 0 2 ≠ 1 then none
  else
    let g := leAt bs 8 4
    some { txNext := leAt bs 2 2, ackSeq := leAt bs 4 2, nakSeq := leAt bs 6 2
           nak := bitAt g 0, replay := bitAt g 1, hasBeacon := bitAt g 2, pauseReq := bitAt g 3, pauseAck := bitAt g 4
           laneReq := bitAt g 5, laneSet := bitAt g 6
           beacon := sliceAt bs 0x10 10, pauseTurn := leAt bs 0x20 6, pauseLen := leAt bs 0x26 1
           laneNext := leAt bs 0x30 2, laneNow := leAt bs 0x32 2, laneTurn := leAt bs 0x38 6, fab := sliceAt bs 0x40 256 }

end Sys2Proof
end

