-- ==== Sys2Proof/Machine/OpticsOps.lean ====
section
/-! DEFINITION. Sites, ports and pairs (R24, R38, R39), what darkens a pair (R244), presence and ring state of the
fabric (R267 to R272), and the idle frame that a pair sends. -/
namespace Sys2Proof.Machine

/-! ### Striping -/

def rowOf (d : Nat) : Nat := d / 13
def colOf (d : Nat) : Nat := d % 13
/-- Stripe set of a site (R38). -/
def stripeOf (d : Nat) : Nat := (rowOf d + colOf d) % 4

/-- The port of pair `p` of a site; p = 2 · engine + position (R38, R259). -/
def portOf (d p : Nat) : Nat :=
  ((match stripeOf d with
    | 0 => [0, 3, 4, 6]
    | 1 => [1, 2, 5, 7]
    | 2 => [0, 2, 5, 7]
    | _ => [1, 3, 4, 6]) : List Nat).getD p 8

/-- The pair of a site on a port. -/
def pairOn (d port : Nat) : Option Nat := (List.range 4).find? (fun p => portOf d p = port)

def isSpare (d : Nat) : Bool := colOf d = 12

/-- Sites of a port in the order of its pair numbers (R39). -/
def sitesOf (port : Nat) : List Nat :=
  let l := (List.range 52).filter (fun d => (pairOn d port).isSome)
  l.filter (fun d => ! isSpare d) ++ l.filter isSpare

/-- Fibre pair number of a site within a port (R39). -/
def pairNumber (d port : Nat) : Nat := ((sitesOf port).findIdx? (· = d)).getD 0x1F

/-! ### Access -/

def Die.pair (x : Die) (p : Nat) : Pair := x.pairs.getD p {}
def Die.modPair (x : Die) (p : Nat) (f : Pair → Pair) : Die := { x with pairs := x.pairs.put p (f (x.pair p)) }
def State.pair (s : State) (d p : Nat) : Pair := (s.die d).pair p
def State.modPair (s : State) (d p : Nat) (f : Pair → Pair) : State := s.modDie d (fun x => x.modPair p f)
def Panel.port (p : Panel) (n : Nat) : Port := p.ports.getD n {}
def State.port (s : State) (n : Nat) : Port := s.panel.port n
def State.modPort (s : State) (n : Nat) (f : Port → Port) : State :=
  { s with panel := { s.panel with ports := s.panel.ports.put n (f (s.port n)) } }
def State.bay (s : State) (b : Nat) : Bay := s.panel.bays.getD b {}
def State.modBay (s : State) (b : Nat) (f : Bay → Bay) : State :=
  { s with panel := { s.panel with bays := s.panel.bays.put b (f (s.bay b)) } }

/-- The site is in state ACTIVE in the live map (R41, R42). -/
def State.activeSite (s : State) (d : Nat) : Bool :=
  match s.live.find d with
  | some e => e.state = .active
  | none => false

def State.activeSites (s : State) : List Nat := (List.range 52).filter s.activeSite
/-- The fabric interface of a die sends and accepts packets: STANDS_FOR names a number (R48), and no reset of the die waits for its
registers to be rewritten (R436). -/
def State.carries (s : State) (d : Nat) : Bool := (s.die d).standsFor ≠ 0x3F && (s.panel.restarts.find d).isNone

/-- The die of an ACTIVE site whose fabric interface and mesh router have power and carry packets (R37, R48, R290, R369). -/
def State.meshSite (s : State) (d : Nat) : Bool := s.activeSite d && (s.die d).power.good.testBit 27 && s.carries d
/-- Apply a change to every ACTIVE die. -/
def State.onActive (s : State) (f : Die → Die) : State := s.activeSites.foldl (fun s d => s.modDie d f) s

/-- The pair is in RUN or PAUSED. -/
def Pair.lit (k : Pair) : Bool := k.state = .run || k.state = .paused

/-- The pair serves its port: it is lit, and not treated as absent (R267). -/
def Pair.serves (k : Pair) : Bool := k.lit && ! k.mismatch

/-- A port is not treated as absent by R267 or R268. -/
def Port.faces (p : Port) : Bool := ! p.misPort && ! p.conflict

/-- Hellos and transit are enabled from the end of step 11 of bring-up (R442). -/
def State.transit (s : State) : Bool := decide (12 ≤ s.panel.bring.step)

/-- A drop is counted (R276, R311): 1 FOREIGN, 2 STALE, 3 EVICTED_SRC, else AGED. -/
def Die.countDrop (x : Die) (why : Nat) : Die :=
  let f := x.fab
  match why with
  | 1 => { x with fab := { f with foreign := satAdd 16 f.foreign 1 } }
  | 2 => { x with fab := { f with stale := satAdd 16 f.stale 1 } }
  | 3 => { x with fab := { f with evictedSrc := satAdd 16 f.evictedSrc 1 } }
  | _ => { x with rem := { x.rem with aged := satAdd 16 x.rem.aged 1 } }

/-- The pairs of a port as (site, pair). -/
def pairsOf (port : Nat) : List (Nat × Nat) := (sitesOf port).filterMap (fun d => (pairOn d port).map (fun p => (d, p)))

/-- Event 1 of R244; without power the gates of an engine are closed (R230). -/
def State.darkens (s : State) (d p : Nat) : Bool :=
  let port := s.port (portOf d p)
  port.state ≠ 2 || ! port.contact || ! s.activeSite d || port.feed.isNone || s.panel.laserOff ||
    ! (s.die d).power.good.testBit (23 + p / 2)

/-! ### Presence and ring state (R263, R267 to R272) -/

/-- The opposite of a local port; a global port accepts any global port. -/
def oppositeOk (port far : Nat) : Bool :=
  if port < 6 then far = (if port % 2 = 0 then port + 1 else port - 1) else far = 6 || far = 7

/-- A port is present when one of its pairs is RUN or PAUSED and it is not treated as absent (R271). -/
def State.portPresent (s : State) (port : Nat) : Bool :=
  (s.port port).faces && (pairsOf port).any (fun q => (s.pair q.1 q.2).serves)

/-- Coordinates of a coordinate word (R265): group, x, y, z. -/
def cGroup (c : Nat) : Nat := bits c 13 7
def cX (c : Nat) : Nat := bits c 6 5
def cY (c : Nat) : Nat := bits c 4 3
def cZ (c : Nat) : Nat := bits c 2 0
def cOf (g x y z : Nat) : Nat := (g % 128) * 128 + (x % 4) * 32 + (y % 4) * 8 + z % 8

/-- Size of a dimension: 0 X, 1 Y, 2 Z. -/
def dimSize (dim : Nat) : Nat := if dim = 2 then 8 else 4
/-- Coordinate of a word in a dimension. -/
def cDim (c dim : Nat) : Nat := if dim = 0 then cX c else if dim = 1 then cY c else cZ c
/-- A coordinate word stepped along a dimension by `k`, modulo its size. -/
def cStep (c dim k : Nat) : Nat :=
  let v := (cDim c dim + k) % dimSize dim
  if dim = 0 then cOf (cGroup c) v (cY c) (cZ c) else if dim = 1 then cOf (cGroup c) (cX c) v (cZ c)
  else cOf (cGroup c) (cX c) (cY c) v

/-- The neighbour's coordinates stepped one place against the axis direction of local port `port` (R268): the neighbour
on the − port at x gives x + 1. -/
def derivedCoord (port far : Nat) : Nat :=
  if port % 2 = 1 then cStep far (port / 2) 1 else cStep far (port / 2) (dimSize (port / 2) - 1)

/-- First bit of a dimension in the RING field (R266). -/
def ringBase (dim : Nat) : Nat := 4 * dim

/-- The state of link j of a dimension as the module's hearth forms it (R272): its own two links directly, the others
from the neighbour that reaches them in fewer hops along present links, ties to the + neighbour. -/
def ringLink (coord old : Nat) (present : Nat → Bool) (nbRing : Nat → Nat) (dim j : Nat) : Bool :=
  let n := dimSize dim
  let me := cDim coord dim
  let up := (j + n - me) % n
  let down := (me + n - 1 - j) % n
  let plus := 2 * dim
  let minus := 2 * dim + 1
  let clear := fun (a k : Nat) => (List.range k).all (fun i => ! bitAt old (ringBase dim + (a + i) % n))
  if up = 0 then ! present plus
  else if down = 0 then ! present minus
  else
    let viaPlus := present plus && clear me up
    let viaMinus := present minus && clear (j + 1) down
    if viaPlus && (up ≤ down || ! viaMinus) then bitAt (nbRing plus) (ringBase dim + j)
    else if viaMinus then bitAt (nbRing minus) (ringBase dim + j)
    else true

/-- The ring state word (R272); without coordinates every link is absent. -/
def State.ringNow (s : State) : Nat :=
  let f := s.panel.fabric
  if ! f.coordValid then 0xFFFF else
  [(0, 4), (1, 4), (2, 8)].foldl (fun w q => (List.range q.2).foldl (fun w j =>
    if ringLink f.coord f.ring s.portPresent (fun p => (s.port p).farRing) q.1 j then w + 2 ^ (ringBase q.1 + j) else w) w) 0

/-- Bits of the present ports (R299). -/
def State.presentBits (s : State) : Nat :=
  (List.range 8).foldl (fun w p => if s.portPresent p then w + 2 ^ p else w) 0

/-- The hearth writes coordinates, presence and ring state into every ACTIVE die (R271). -/
def State.topology (s : State) : State :=
  let r := s.ringNow
  let b := s.presentBits
  let f := s.panel.fabric
  ({ s with panel := { s.panel with fabric := { f with ring := r } } }).onActive (fun x =>
    { x with fab := { x.fab with coordValid := f.coordValid, coord := f.coord, present := b, ring := r } })

/-- FAB_NEIGHBOUR_CHANGE, at most once per port per turn (R269). -/
def State.neighbourNotice (s : State) (port : Nat) : State :=
  if (s.port port).noticeTurn = some s.turn then s
  else (s.modPort port (fun p => { p with noticeTurn := some s.turn })).notice Code.fabNeighbourChange
    (subjectOf 0xFF port 0xFF 0xFF 0xFF) 0 0 0

/-- The subject of a pair event (R262): die, port, pair. -/
def State.pairSubject (s : State) (d p : Nat) : Nat :=
  subjectOf (s.die d).standsFor (portOf d p) (pairNumber d (portOf d p)) 0xFF 0xFF

/-- What a hello (R266) says, as a port's neighbour entry holds it. -/
def Port.heard (q : Port) (a : Bytes) : Port :=
  { q with known := true, serial := leAt a 8 8, farPort := bits (byteAt a 2) 3 0, farValid := bitAt (byteAt a 3) 0
           farCoord := leAt a 4 2 % 2 ^ 14, farRing := leAt a 6 2 }

/-- A pair of the port names another SERIAL or PORT than the port's neighbour: it is treated as absent (R267). -/
def State.facePair (s : State) (port : Nat) (q : Nat × Nat) : State :=
  let e := s.port port
  let k := s.pair q.1 q.2
  if e.runs.head? = some q.1 || ! e.known || k.named.isEmpty then s
  else if leAt k.named 8 8 = e.serial && bits (byteAt k.named 2) 3 0 = e.farPort then
    s.modPair q.1 q.2 (fun k => { k with mismatch := false })
  else if k.mismatch then s
  else (s.modPair q.1 q.2 (fun k => { k with mismatch := true })).notice Code.fabCableMismatch (s.pairSubject q.1 q.2) 0 0 0

/-- A port's neighbour is the hello of the first of its pairs to reach RUN (R267). -/
def State.facePort (s : State) (port : Nat) : State :=
  let lit := (pairsOf port).filter (fun q => (s.pair q.1 q.2).lit)
  let sites := lit.map Prod.fst
  let old := (s.port port).runs.filter sites.contains
  let runs := old ++ sites.filter (fun d => ! old.contains d)
  let s1 := s.modPort port (fun q => { q with runs := runs })
  match runs.head? with
  | none => s1.modPort port (fun q => { q with known := false, misPort := false, conflict := false })
  | some d =>
    let a := (s1.pair d ((pairOn d port).getD 0)).named
    if a.isEmpty || ! s1.transit then s1.modPort port (fun q => { q with known := false })
    else
      let s2 := s1.modPort port (fun q => q.heard a)
      let s3 := s2.modPair d ((pairOn d port).getD 0) (fun k => { k with mismatch := false })
      let mis := ! oppositeOk port (s3.port port).farPort
      let s4 := s3.modPort port (fun q => { q with misPort := mis })
      let s5 := if mis && ! (s.port port).misPort then s4.notice Code.fabCableMismatch (subjectOf 0xFF port 0xFF 0xFF 0xFF) 0 0 0 else s4
      lit.foldl (fun s q => s.facePair port q) s5

/-- The hearth derives or checks the module's coordinates (R268). A port in conflict is checked again with the others, so that
it comes back when the coordinates agree (DEDUCED, log 197). -/
def State.derive (s : State) : State :=
  let f := s.panel.fabric
  if f.coordValid then
    (List.range 6).foldl (fun s p =>
      let q := s.port p
      if q.known && ! q.misPort && q.farValid then
        if derivedCoord p q.farCoord = f.coord then s.modPort p (fun q => { q with conflict := false })
        else if q.conflict then s
        else (s.modPort p (fun q => { q with conflict := true })).notice Code.fabCoordConflict (subjectOf 0xFF p 0xFF 0xFF 0xFF) 0 0 0
      else s) s
  else match (List.range 6).find? (fun p => s.portPresent p && (s.port p).known && (s.port p).farValid) with
    | none => s
    | some p => { s with panel := { s.panel with fabric := { f with coordValid := true, coord := derivedCoord p (s.port p).farCoord } } }

/-- STATE of FAB_NEIGHBOURn (R300). -/
def State.nbCode (s : State) (p : Nat) : Nat :=
  let q := s.port p
  if ! (pairsOf p).any (fun r => (s.pair r.1 r.2).serves) then 0 else if q.misPort then 2 else if q.conflict then 3 else 1

/-- After a change of a pair or of a hello, the hearth brings the neighbour table, the coordinates when a hello has changed,
the notices of R269 (a port is present from the moment at which its first pair reaches RUN, R271), and presence and ring state up to
date (R267 to R272). `s0` is the state before the change. -/
def State.settlePorts (s0 s : State) (hello : Bool) : State :=
  let s1 := (List.range 8).foldl State.facePort s
  let s2 := if hello && s1.transit then s1.derive else s1
  let s3 := (List.range 8).foldl (fun t p =>
    let t1 := t.modPort p (fun q => { q with nbState := t.nbCode p })
    if (s0.portPresent p ≠ t1.portPresent p || (s0.port p).serial ≠ (t1.port p).serial ||
        (s0.port p).farPort ≠ (t1.port p).farPort) then t1.neighbourNotice p else t1) s2
  if s3.transit then s3.topology else s3

/-- A refresh of an unchanged hello: the ring state takes in what the neighbours report by now, until it has settled (R272). -/
def State.refreshRing (s : State) : State := if s.transit && s.ringNow ≠ s.panel.fabric.ring then s.topology else s

/-- A pair has come up or gone down, or its die has lost power. -/
def State.presenceChanged (s0 s : State) : State := s0.settlePorts s false

/-! ### Idle frames sent -/

/-- The FAB_AREA of a module (R266); until hellos are enabled (R442) it is empty. -/
def State.fabArea (s : State) (port : Nat) : Bytes :=
  let f := s.panel.fabric
  if ! s.transit then [] else
  leBytes 2 1 ++ leBytes 1 port ++ leBytes 1 ((if f.coordValid then 1 else 0) + (if f.origin then 2 else 0)) ++
    leBytes 2 f.coord ++ leBytes 2 f.ring ++ leBytes 8 s.panel.serial

/-- Sequence number of the next data flit that the pair sends: during a replay that of the kept flit at its place (R240). -/
def Pair.nextSeq (k : Pair) : Nat :=
  match k.resend.bind (fun i => k.kept[i]?) with
  | some f => f.seq
  | none => k.txNext % 65536

/-- The map that the last announcement of a direction leads to. -/
def lastMap (l : List (Nat × Nat)) (now : Nat) : Nat := (l.getLast?.map Prod.fst).getD now

/-- Announce a map for a turn: of two announcements in a row for the same turn the later one stands (R247). -/
def announce (l : List (Nat × Nat)) (m turn : Nat) : List (Nat × Nat) :=
  (if (l.getLast?.map Prod.snd) = some turn then l.dropLast else l) ++ [(m, turn)]

/-- An idle frame with the fields that every frame carries (R240). -/
def State.idleOf (s : State) (d p : Nat) : IdleFrame :=
  let k := s.pair d p
  let set := k.txSet.getLast?
  { txNext := k.nextSeq, ackSeq := (k.expected + 65535) % 65536, laneNow := k.txLanes,
    pauseReq := k.pauseMine && k.pause.isSome && ! k.pauseAgreed,
    pauseTurn := (k.pause.getD (0, 0)).1, pauseLen := (k.pause.getD (0, 0)).2,
    laneReq := k.rxWant.isSome && set.isNone,
    laneSet := set.isSome,
    laneNext := match set with
      | some m => m.1
      | none => k.rxWant.getD 0
    laneTurn := (set.getD (0, 0)).2, fab := s.fabArea (portOf d p) }

/-- The receiver measures its lanes once in a training; which it accepts is free (R245, log 207). -/
def State.measureLanes (s : State) (d p : Nat) : State :=
  if (s.pair d p).state ≠ .light || (s.pair d p).rxWant.isSome then s
  else
    let v := s.fresh
    v.2.modPair d p (fun k => { k with rxWant := some (Config.freeLanes v.1 % 65536) })

/-- Send an idle frame. -/
def State.sendIdle (s : State) (d p : Nat) (f : IdleFrame → IdleFrame) : State :=
  ({ s with outbox := s.outbox ++ [.idle d p (f (s.idleOf d p))] } : State).modPair d p (fun k => { k with sinceIdle := 0 })

/-- The link layer as a pair enters RUN from LIGHT (R241, R292). -/
def Pair.fresh (k : Pair) : Pair :=
  { k with txNext := 0, kept := [], resend := none, expected := 0, discarding := false, skip := 0, replays := 0
           spent := [], sharedSpent := 0, owe := [], oweShared := 0, sinceIdle := 0
           rxWant := none, asked := none, trained := none }

/-- A pair leaves the lit states: agreements between the two ends end with the link, and the numbers of the next one start at 0
(R241). -/
def Pair.unlink (k : Pair) : Pair :=
  { k with txNext := 0, expected := 0, kept := [], resend := none, discarding := false, skip := 0, replays := 0, txSet := [], rxSet := [], rxWant := none, asked := none
           pause := none, pauseMine := false, pauseAgreed := false, windows := [], unlocked := false
           hello := [], helloRun := 0, named := [], mismatch := false, trained := none
           txLanes := 0, rxLanes := 0 }

end Sys2Proof.Machine
end

