-- ==== Sys2Proof/Machine/Optics.lean ====
section
/-! DEFINITION. Commands of the pairs, the link layer and the laser sources (chapter 08). -/
namespace Sys2Proof.Machine

/-! ### Pair states (R244) -/

/-- Event 1: the gate closes, and everything that the two ends had agreed ends. -/
def State.goDark (s : State) (d p : Nat) : State :=
  if ! s.darkens d p || (s.pair d p).state = .dark then s
  else s.presenceChanged (s.modPair d p (fun k => { k.unlink with state := .dark, emission := .none, answered := false }))

/-- PAIR_GO_DARK: event 1. -/
def execPairGoDark (d p : Nat) (s : State) : Host.Outcome State Fault Refusal := .next (s.goDark d p)

/-- PAIR_ENTER_SAFE: event 2; the phase of the first CALL is set. -/
def execPairEnterSafe (d p callPhase : Nat) (s : State) : Host.Outcome State Fault Refusal :=
  .next (if s.darkens d p || (s.pair d p).state ≠ .dark then s
    else s.modPair d p (fun k => { k with state := .safe, emission := .none, answered := false, callPhase := callPhase }))

/-- A pair falls back to SAFE by event 7 or 8: its counter gives the phase of its next CALL, which is free (R248, log 198). -/
def State.fallSafe (s : State) (d p : Nat) (f : Pair → Pair) : State :=
  let k := s.fresh
  k.2.modPair d p (fun q => { f q.unlink with state := .safe, emission := .none, answered := false, callPhase := Config.freePhase k.1 })

/-- CALL: event 3. A pair that emits ANSWER as its CALL time comes makes no CALL then (DESIGN CHOICE, log 209). -/
def execCall (d p : Nat) (s : State) : Host.Outcome State Fault Refusal :=
  .next (let k := s.pair d p
    if s.darkens d p || k.state ≠ .safe || k.emission ≠ .none then s else s.modPair d p (fun k => { k with emission := .call }))

/-- CALL_END: the 2 ms of a CALL end. -/
def execCallEnd (d p : Nat) (s : State) : Host.Outcome State Fault Refusal :=
  .next (if (s.pair d p).emission ≠ .call then s else s.modPair d p (fun k => { k with emission := .none }))

/-- LIGHT_PRESENT: event 4. A pair that event 1 darkens answers nothing (R232, R244). ANSWER takes the place of a CALL that is
under way (DESIGN CHOICE, log 209). -/
def execLightPresent (d p : Nat) (s : State) : Host.Outcome State Fault Refusal :=
  .next (s.modPair d p (fun k =>
    if k.state = .safe && ! s.darkens d p then { k with light := true, emission := .answer, answered := true }
    else { k with light := true }))

/-- ANSWER_HEARD: event 5, on ANSWER while emitting or on FULL within 2 ms of the own ANSWER. -/
def execAnswerHeard (d p : Nat) (full : Bool) (s : State) : Host.Outcome State Fault Refusal :=
  .next (let k := s.pair d p
    if s.darkens d p || k.state ≠ .safe || ! (if full then k.answered else k.emission ≠ .none) then s
    else s.modPair d p (fun k => { k with state := .light, emission := .none, answered := false, light := true }))

/-- TRAINING_COMPLETE: event 6 (R245). The sender has adopted the map that the far end asked for, and a good frame has come on the
final map of the other direction, whose lanes this receiver has accepted. A direction without a lane does not complete training,
and no retired wavelength is in the transmit map. -/
def execTrainingComplete (d p txMap rxMap : Nat) (s : State) : Host.Outcome State Fault Refusal :=
  .next (let port := portOf d p
    let k := s.pair d p
    if s.darkens d p || k.state ≠ .light || txMap % 65536 = 0 || rxMap % 65536 = 0 ||
        (txMap &&& (s.port port).retired) ≠ 0 || k.asked ≠ some (txMap % 65536) || k.trained ≠ some (rxMap % 65536) ||
        rxMap % 65536 &&& k.rxWant.getD 0 ≠ rxMap % 65536 then s
    else
      let s1 := s.modPair d p (fun k => { k.fresh with
        state := .run, txLanes := txMap % 65536, rxLanes := rxMap % 65536, trainFails := 0, trainNoticed := false })
      s.settlePorts s1 (! k.named.isEmpty))

/-- TRAINING_TIMEOUT: event 7; the third failure in a row raises LINK_TRAIN_FAIL once. -/
def execTrainingTimeout (d p : Nat) (s : State) : Host.Outcome State Fault Refusal :=
  .next (let k := s.pair d p
    if k.state ≠ .light || s.darkens d p then s
    else
      let say := decide (3 ≤ k.trainFails + 1) && ! k.trainNoticed
      let s1 := s.fallSafe d p (fun k => { k with
        trainFails := k.trainFails + 1, trainFailCount := satAdd 16 k.trainFailCount 1, trainNoticed := k.trainNoticed || say })
      if say then s1.notice Code.linkTrainFail (s.pairSubject d p) 0 0 0 else s1)

/-- LOSS_OF_LIGHT: event 8, unless event 1 darkens the pair. -/
def execLossOfLight (d p : Nat) (s : State) : Host.Outcome State Fault Refusal :=
  .next (let k := s.pair d p
    if k.state = .dark || s.darkens d p then s.modPair d p (fun k => { k with light := false })
    else if k.state = .safe then
      s.modPair d p (fun k => { k with light := false, emission := if k.emission = .answer then .none else k.emission })
    else
      let s1 := s.fallSafe d p (fun q => { q with
        light := false
        safetyTrips := satAdd 16 q.safetyTrips 1
        linkLosts := if k.lit then satAdd 16 q.linkLosts 1 else q.linkLosts })
      s.presenceChanged (if k.lit then s1.notice Code.linkLost (s.pairSubject d p) 0 0 0 else s1))

/-- Event 9: the replay buffer is discarded and the pair trains again. -/
def State.linkExhausted (s : State) (d p : Nat) : State :=
  s.presenceChanged ((s.modPair d p (fun k => { k.unlink with state := .light, linkLosts := satAdd 16 k.linkLosts 1 })).notice
    Code.linkReplayExhausted (s.pairSubject d p) 0 0 0)

/-- LINK_REPLAY_EXHAUSTED: event 9, after eight replays without progress. -/
def execLinkReplayExhausted (d p : Nat) (s : State) : Host.Outcome State Fault Refusal :=
  .next (let k := s.pair d p
    if k.state ≠ .run || k.replays < 8 || s.darkens d p then s else s.linkExhausted d p)

/-- A quiet window is current: its turn has come and its end has not. Overlapping windows make one (R255). -/
def quietNow (w : Nat × Nat × Bool) (turn : Nat) : Bool := turnCome w.1 turn && ! turnCome (turnPlus w.1 w.2.1) turn
def Pair.quiet (k : Pair) (turn : Nat) : Bool := k.windows.any (fun w => quietNow w turn)

/-- PAUSE_START: event 10, at the tick of an agreed PAUSE_TURN. In a window of the far end its light is interrupted, and the
receiver loses its lock (R246, R252). -/
def execPauseStart (d p : Nat) (s : State) : Host.Outcome State Fault Refusal :=
  .next (let k := s.pair d p
    if k.state = .run && k.quiet s.turn && ! s.darkens d p then
      s.modPair d p (fun k => { k with state := .paused, unlocked := k.windows.any (fun w => w.2.2 && quietNow w s.turn) })
    else s)

/-- The announced maps whose turn has come take effect, in their order; the map in use and those that remain (R247). -/
def applyMaps (turn now : Nat) (l : List (Nat × Nat)) : Nat × List (Nat × Nat) :=
  (lastMap (l.filter (fun m => turnCome m.2 turn)) now, l.filter (fun m => ! turnCome m.2 turn))

/-- The transmit map, or the receive map, takes the announced changes whose turn has come. -/
def Pair.applyTx (k : Pair) (turn : Nat) : Pair :=
  let m := applyMaps turn k.txLanes k.txSet
  { k with txLanes := m.1, txSet := m.2 }
def Pair.applyRx (k : Pair) (turn : Nat) : Pair :=
  let m := applyMaps turn k.rxLanes k.rxSet
  { k with rxLanes := m.1, rxSet := m.2 }

/-- PAUSE_END: event 11, at the tick of PAUSE_TURN + PAUSE_LEN; a lane change whose turn fell inside the window takes effect
(R255). A window that this end has asked for and whose turn is still to come is kept (R252). A receiver that has not relocked takes
event 9 (R246). -/
def execPauseEnd (d p : Nat) (s : State) : Host.Outcome State Fault Refusal :=
  .next (let k := s.pair d p
    if k.state ≠ .paused || k.quiet s.turn || s.darkens d p then s
    else if k.unlocked then s.linkExhausted d p
    else s.modPair d p (fun k =>
      let past := k.pause.any (fun w => turnCome w.1 s.turn)
      ({ k with
        state := .run, pause := if past then none else k.pause, pauseMine := k.pauseMine && ! past
        pauseAgreed := k.pauseAgreed && ! past
        windows := k.windows.filter (fun w => ! turnCome w.1 s.turn) }.applyTx s.turn).applyRx s.turn))

/-- A window of the far end begins while the pair is PAUSED already: its light is interrupted and the receiver loses its lock
(R246, R255). -/
def Pair.interrupt (k : Pair) (turn : Nat) : Pair :=
  if k.state = .paused && k.windows.any (fun w => w.2.2 && decide (w.1 = turn)) then { k with unlocked := true } else k

/-- PRESENCE_CHANGE: the contact of a port opens or closes. An open contact holds every gate of the port CLOSED (R232), and HOST
dark (R257). -/
def execPresenceChange (port : Nat) (closed : Bool) (s : State) : Host.Outcome State Fault Refusal :=
  .next (let s1 := s.modPort port (fun p => { p with contact := closed, up := p.up && closed })
    (pairsOf port).foldl (fun s q => s.goDark q.1 q.2) s1)

/-- RELOCK_COMPLETE: idle frames resume; a receiver that relocks past its quiet window takes event 9 (R246). -/
def execRelockComplete (d p : Nat) (inWindow : Bool) (s : State) : Host.Outcome State Fault Refusal :=
  .next (if ! (s.pair d p).lit || s.darkens d p then s
    else if inWindow then (s.modPair d p (fun k => { k with unlocked := false })).sendIdle d p (fun f => f)
    else s.linkExhausted d p)

/-! ### The link layer (R241) -/

/-- Queue number of a packet's place at a transmitter, for round robin (R288, R293). -/
def Arrival.number : Arrival → Nat
  | .inject => 0
  | .pair p v _ => 1 + 32 * p + v
  | .mesh d q _ => 200 + 576 * d + q

/-- A slot frees: its credit waits to return to the same kind (R292). -/
def Die.freeSlot (x : Die) (a : Arrival) : Die :=
  match a with
  | .pair p v sh => x.modPair p (fun k => if sh then { k with oweShared := k.oweShared + 1 } else { k with owe := k.owe.put v (k.owe.getD v 0 + 1) })
  | _ => x

/-- Channel v of a packet on its next fibre link (R281). -/
def Held.outV (h : Held) : Nat := 8 * h.pkt.cls + (match h.route with
  | some r => r.phase
  | none => 0)

/-- A credit for channel `v` is available: reserved, else shared (R291, R292). -/
def Pair.credit (k : Pair) (v : Nat) : Option Bool :=
  if k.spent.getD v 0 < 156 then some false else if k.sharedSpent < 2112 then some true else none

/-- The queue that a held packet waits in: one per place it came by, reserved and shared slots alike (R291, R292). -/
def Held.queue (h : Held) : Nat × Nat := (h.from_.number, h.pkt.cls)

/-- The packet at place `i` heads its queue. -/
def Die.headsQueue (x : Die) (i : Nat) (h : Held) : Bool := ! x.fab.held.zipIdx.any (fun g => decide (g.2 < i) && g.1.queue = h.queue)

/-- The packets that may leave over pair `p` of site `d` now, each the first of its queue (R293); while FENCED the die sends none
of its own (R460). -/
def Die.eligible (x : Die) (d p : Nat) : List (Nat × Held) :=
  let port := portOf d p
  if (x.pair p).mismatch then [] else
  (x.fab.held.zipIdx.filter (fun h => (match h.1.route with
      | some r => r.exit = port && r.site = d
      | none => false) && ((x.pair p).credit h.1.outV).isSome && x.headsQueue h.2 h.1 && ! (h.1.from_ = .inject && x.fab.fenced))).map
    (fun h => (h.2, h.1))

/-- Weight of a class (R293). -/
def Fabric.weight (f : Fabric) (c : Nat) : Nat :=
  if c = 3 then f.arbCtl else if c = 2 then f.arbCol else if c = 1 then f.arbRsp else f.arbReq

/-- Weighted round robin over classes: the class served and the round's state after it, trying at most `k` classes. R293 gives the
round no order and no start: the model takes REQ, RSP, COL, CTL, from REQ (DESIGN CHOICE, log 214). -/
def arbClass (w : Nat → Nat) (has : Nat → Bool) : Nat → Nat → Nat → Option (Nat × Nat)
  | 0, _, _ => none
  | k + 1, c, left =>
    if left ≠ 0 && has c then some (c, left - 1) else arbClass w has k ((c + 1) % 4) (w ((c + 1) % 4))

/-- Within a class the higher phase goes first, then round robin among queues after the one served last. -/
def pickWithin (phase : Held → Nat) (last : Nat) (l : List (Nat × Held)) : Option (Nat × Held) :=
  let top := (l.map (fun h => phase h.2)).foldl max 0
  let c := l.filter (fun h => phase h.2 = top)
  let key := fun (h : Nat × Held) => (h.2.from_.number + 4096 - (last + 1) % 4096) % 4096
  c.foldl (fun b h => match b with
    | none => some h
    | some g => if key h < key g then some h else some g) none

/-- The link word that returns what is owed, and the pair after it (R278). -/
def Pair.returns (k : Pair) : LinkWord × Pair :=
  let sh := min k.oweShared 63
  match k.owe.find? (fun e => e.2 ≠ 0) with
  | some (q, n) =>
    let m := min n 63
    ({ creditQ := q, creditN := m, sharedN := sh },
     { k with owe := if n = m then k.owe.del q else k.owe.put q (n - m), oweShared := k.oweShared - sh })
  | none => ({ sharedN := sh }, { k with oweShared := k.oweShared - sh })

/-- Count the flits and bytes of a pair (R480). -/
def Die.countPort (x : Die) (p : Nat) (f : PortCnt → PortCnt) : Die :=
  { x with obs := { x.obs with ports := x.obs.ports.put p (f (x.obs.ports.getD p {})) } }

/-- Send one flit: number it, keep it, and put it on the fibre. -/
def State.putFlit (s : State) (d p : Nat) (l : LinkWord) (b : Option Packet) : State :=
  let seq := (s.pair d p).txNext
  let s1 := s.modPair d p (fun k => { k with
    txNext := (seq + 1) % 65536, kept := k.kept ++ [{ seq := seq, link := l, body := b }], sinceIdle := k.sinceIdle + 1 })
  let s2 := match b with
    | some q => s1.modDie d (fun x => x.countPort p (fun c => { c with txFlits := c.txFlits + 1, txBytes := c.txBytes + q.payload.length }))
    | none => s1
  { s2 with outbox := s2.outbox ++ [.flit d p seq l b] }

/-- FLIT_SEND: the next flit of a replay, or the packet that the arbitration of R293 picks, or a NULL flit when credits wait to
return. An idle frame goes out when there is none of these, when the replay buffer is full, when 1,024 data flits have gone out
without one, in place of data in a quiet window, and during training (R240, R241, R245); in the gap of a source change the fibre
carries nothing. No packet leaves over a port treated as absent (R267, R268), or a die that carries none (R48). A packet that has grown too old in an ingress buffer is dropped as it leaves (R311). -/
def execFlitSend (d p : Nat) (s : State) : Host.Outcome State Fault Refusal :=
  .next (let x := s.die d
    let k := x.pair p
    if k.state = .light || k.state = .paused then
      (if (s.port (portOf d p)).gap then s else (s.measureLanes d p).sendIdle d p (fun f => f))
    else if k.state ≠ .run then s
    else if 1024 ≤ k.sinceIdle then s.sendIdle d p (fun f => f)
    else match k.resend with
      | some i =>
        match k.kept[i]? with
        | some f =>
          let s1 := s.modPair d p (fun k => { k with
            resend := if i + 1 < k.kept.length then some (i + 1) else none, sinceIdle := k.sinceIdle + 1 })
          let s2 := match f.body with
            | some q => s1.modDie d (fun x => x.countPort p (fun c => { c with txFlits := c.txFlits + 1, txBytes := c.txBytes + q.payload.length }))
            | none => s1
          { s2 with outbox := s2.outbox ++ [.flit d p f.seq f.link f.body] }
        | none => s.modPair d p (fun k => { k with resend := none })
      | none =>
        if 8192 ≤ k.kept.length then s.sendIdle d p (fun f => f)
        else
          let el := if s.carries d && (s.port (portOf d p)).faces then x.eligible d p else []
          let a := x.fab.arb.getD p (0, x.fab.weight 0)
          match arbClass x.fab.weight (fun c => el.any (fun h => h.2.pkt.cls = c)) 5 a.1 a.2 with
          | none =>
            if k.owe.any (fun e => e.2 ≠ 0) || k.oweShared ≠ 0 then
              let r := k.returns
              (s.modPair d p (fun _ => r.2)).putFlit d p { r.1 with isNull := true } none
            else s.sendIdle d p (fun f => f)
          | some (c, left) =>
            match pickWithin (fun h => h.outV % 8) (x.fab.exitRr.getD (100 + 4 * p + c) 0) (el.filter (fun h => h.2.pkt.cls = c)) with
            | none => s
            | some (i, h) =>
              if tooOld s.turn h.pkt && h.from_ ≠ .inject then
                s.setDie d ((({ x with fab := { x.fab with held := x.fab.held.eraseIdx i } } : Die).freeSlot h.from_).countDrop 4)
              else
              let shared := (k.credit h.outV).getD false
              let r := k.returns
              let k1 := if shared then { r.2 with sharedSpent := r.2.sharedSpent + 1 }
                else { r.2 with spent := r.2.spent.put h.outV (r.2.spent.getD h.outV 0 + 1) }
              let x1 := (x.modPair p (fun _ => k1)).freeSlot h.from_
              let x2 : Die := { x1 with fab := { x1.fab with
                held := x1.fab.held.eraseIdx i, arb := x1.fab.arb.put p (c, left)
                exitRr := x1.fab.exitRr.put (100 + 4 * p + c) h.from_.number } }
              let x3 := if shared then x2.bumpBoth evShared 1 else x2
              (s.setDie d x3).putFlit d p { r.1 with usedShared := shared }
                (some { h.pkt with phase := h.outV % 8, ttl := h.pkt.ttl - 1 }))

/-- Mark a REQ packet that joins a queue which already holds MARK_TH packets or more (R295). -/
def Die.marked (x : Die) (a : Arrival) (q : Packet) : Bool :=
  q.cls = clsReq && decide (x.fab.markTh ≤ (x.fab.held.filter (fun h => h.from_.number = a.number && h.pkt.cls = q.cls)).length)

/-- A packet joins a buffer of the die. -/
def Die.enqueue (x : Die) (a : Arrival) (port : Nat) (q : Packet) : Die :=
  let m := x.marked a q
  let y : Die := { x with fab := { x.fab with held := x.fab.held ++ [{ pkt := { q with mark := q.mark || m }, from_ := a, port := port }] } }
  if m then y.bumpBoth evMarked 1 else y

/-- A delivered flit body at the fabric interface (R241, R278, R280). A die that carries no packets takes none: what comes is lost, and
its slot frees (R48, R436, log 210). -/
def Die.takeBody (x : Die) (d p : Nat) (carries : Bool) (bs : Bytes) : Die :=
  let l := LinkWord.decode (leAt bs 0 4)
  let x1 := x.modPair p (fun k => { k with
    spent := if l.creditN = 0 then k.spent else k.spent.put l.creditQ (k.spent.getD l.creditQ 0 - l.creditN)
    sharedSpent := k.sharedSpent - l.sharedN })
  if l.isNull then x1
  else
    let q := Packet.decode (bs.drop 4)
    let a : Arrival := .pair p (8 * q.cls + q.phase) l.usedShared
    let x2 := x1.countPort p (fun c => { c with rxFlits := c.rxFlits + 1, rxBytes := c.rxBytes + q.payload.length })
    if ! carries then x2.freeSlot a
    else if q.odd then ({ x2 with fab := { x2.fab with foreign := satAdd 16 x2.fab.foreign 1 } } : Die).freeSlot a
    else x2.enqueue a (portOf d p) q

/-- FLIT_RECEIVE: a flit with the symbols its codewords corrected and the codewords that could not be (R239, R241). -/
def execFlitReceive (d p : Nat) (flit : Bytes) (corrected uncorrectable : Nat) (s : State) : Host.Outcome State Fault Refusal :=
  .next (let k := s.pair d p
    if ! k.lit || flit.length ≠ 256 then s
    else
      let s1 := s.modPair d p (fun k => { k with fecCorrected := satAdd 32 k.fecCorrected corrected
                                                 fecUncorrectable := satAdd 16 k.fecUncorrectable uncorrectable })
      if k.discarding then s1
      else
        let body := flit.take 252
        let seq := (k.expected + 65536 - k.skip) % 65536
        if uncorrectable ≠ 0 || leAt flit 252 4 ≠ flitCrc seq body then
          (s1.modPair d p (fun k => { k with discarding := true })).sendIdle d p (fun f => { f with nak := true, nakSeq := k.expected })
        else if k.skip ≠ 0 then s1.modPair d p (fun k => { k with skip := k.skip - 1 })
        else
          let s2 := s1.modDie d (fun x => x.takeBody d p (s.carries d) body)
          s2.modPair d p (fun k => { k with expected := (k.expected + 1) % 65536 }))

/-- Free kept flits up to and including `ack` (R241). -/
def Pair.acked (k : Pair) (ack : Nat) : Pair :=
  match k.kept.head? with
  | none => k
  | some f =>
    let n := (ack + 65536 - f.seq) % 65536 + 1
    if k.kept.length < n then k
    else { k with kept := k.kept.drop n, replays := 0
                  resend := k.resend.bind (fun i => if i < n then (if n < k.kept.length then some 0 else none) else some (i - n)) }

/-- Start a replay from sequence number `first` (R241): of the kept flits from it on, or of none when it is the next new flit. -/
def State.replayFrom (s : State) (d p first : Nat) : State :=
  (s.modPair d p (fun k => { k with
    resend := k.kept.findIdx? (fun f => f.seq = first), replays := k.replays + 1
    replayCount := satAdd 16 k.replayCount 1 })).sendIdle d p (fun f => { f with replay := true, txNext := first })

/-- A quiet window that the far end asks for is accepted, beside this end's own (R252, R255). A request whose turn has begun is
ignored (DESIGN CHOICE, log 208). -/
def State.takePause (s : State) (d p : Nat) (f : IdleFrame) : State :=
  let k := s.pair d p
  if f.pauseReq && ! turnCome f.pauseTurn s.turn && decide (1 ≤ f.pauseLen) && decide (f.pauseLen ≤ 16) then
    (s.modPair d p (fun k => { k with windows := if k.windows.contains (f.pauseTurn, f.pauseLen, true) then k.windows
      else k.windows ++ [(f.pauseTurn, f.pauseLen, true)] })).sendIdle d p
      (fun g => { g with pauseReq := false, pauseAck := true, pauseTurn := f.pauseTurn, pauseLen := f.pauseLen })
  else if f.pauseAck && k.pauseMine && ! k.pauseAgreed && k.pause = some (f.pauseTurn, f.pauseLen) then
    s.modPair d p (fun k => { k with pauseAgreed := true, windows := k.windows ++ [(f.pauseTurn, f.pauseLen, false)] })
  else s

/-- Lane requests and announcements (R247): a request is answered with an announcement four turns ahead, also when the map asked for
was announced before and no such announcement is still to come; during training it is adopted (R245). The receiver of a void
announcement asks for its map, so that the sender announces again (log 211). A map has 1 to 16 lanes (R234): a change that would leave none is not made, so that no change of a map takes a
direction down (DESIGN CHOICE, log 199). -/
def State.takeLanes (s : State) (d p : Nat) (f : IdleFrame) : State :=
  let k := s.pair d p
  let m := f.laneNext &&& (0xFFFF - (s.port (portOf d p)).retired)
  let s1 := if ! f.laneReq || m = 0 then s
    else if k.state = .light then s.modPair d p (fun k => { k with asked := some m, txLanes := m })
    else if m = lastMap k.txSet k.txLanes && k.txSet.any (fun a => ! turnCome a.2 s.turn) then s
    else (s.modPair d p (fun k => { k with txSet := announce k.txSet m (turnPlus s.turn 4) })).sendIdle d p (fun g => g)
  if k.state = .light then s1.modPair d p (fun k => { k with trained := some f.laneNow })
  else if ! f.laneSet || f.laneNext = 0 then s1
  else if ! turnCome f.laneTurn s.turn then
    s1.modPair d p (fun k => { k with rxSet := announce k.rxSet f.laneNext f.laneTurn
                                      rxWant := if k.rxWant = some f.laneNext then none else k.rxWant })
  else if f.laneNext = lastMap k.rxSet k.rxLanes then s1
  else s1.modPair d p (fun k => { k with rxWant := some f.laneNext })

/-- The beacon of a frame that arrives over a pair, with the stamps of R60: its own TURN and PHASE, its arrival, and those of the
last beacon that this end sent over the pair. -/
def Beacon.of (f : IdleFrame) (d p turn stamp : Nat) (own : Option (Nat × Nat)) (far : Nat) : Beacon :=
  { turn := leAt f.beacon 0 6, phase := leAt f.beacon 6 2, hops := byteAt f.beacon 8, group := byteAt f.beacon 9
    arrTurn := turn, arrPhase := stamp, site := d, pair := p, own := own, far := far }

/-- A frame's FAB_AREA: when the fourth in a row names something new, the pair's hello changes (R267). -/
def State.hear (s : State) (d p : Nat) (a : Bytes) : State :=
  if leAt a 0 2 ≠ 1 then s
  else
    let k := s.pair d p
    let run := if k.hello = a then k.helloRun + 1 else 1
    let s1 := s.modPair d p (fun k => { k with hello := a, helloRun := min run 4 })
    if run < 4 then s1 else if k.named = a then s1.refreshRing else s.settlePorts (s1.modPair d p (fun k => { k with named := a })) true

/-- IDLE_FRAME_RECEIVE: a good frame frees acknowledged flits, starts or ends a replay, and carries beacons, quiet
windows, lane maps and the hello; a bad one counts as a failed flit and is answered at once (R240, R241). Frames come during
training too (R245). What the decoder corrected in its codewords is free (R259, log 200). -/
def execIdleFrameReceive (d p : Nat) (frame : Bytes) (stamp : Nat) (s : State) : Host.Outcome State Fault Refusal :=
  .next (let k := s.pair d p
    let v := s.fresh
    if ! (k.lit || k.state = .light) then s
    else
      let s0 := v.2.modPair d p (fun k => { k with fecCorrected := satAdd 32 k.fecCorrected (Config.freeFec v.1 0)
                                                   fecUncorrectable := satAdd 16 k.fecUncorrectable (Config.freeFec v.1 1) })
      match IdleFrame.decode frame with
      | none => if k.lit then s0.sendIdle d p (fun f => f) else s0
      | some f =>
        let s1 := s0.modPair d p (fun k => k.acked f.ackSeq)
        let s2 := if f.nak && k.lit then s1.replayFrom d p f.nakSeq else s1
        let s3 := if f.replay && k.lit then s2.modPair d p (fun k =>
            { k with skip := (k.expected + 65536 - f.txNext) % 65536, discarding := false }) else s2
        let s4 := if ! f.hasBeacon || ! k.lit then s3 else
          { s3 with panel := { s3.panel with time := { s3.panel.time with
              beacons := s3.panel.time.beacons.put (portOf d p)
                (Beacon.of f d p s.turn stamp (s3.panel.time.sent.find (8 * d + p)) v.1) } } }
        let s5 := if k.lit then s4.takePause d p f else s4
        (s5.takeLanes d p f).hear d p f.fab)

/-- REPLAY_TIMEOUT: 16 µs without acknowledgement progress while flits are kept (R241). -/
def execReplayTimeout (d p : Nat) (s : State) : Host.Outcome State Fault Refusal :=
  .next (let k := s.pair d p
    match k.kept.head? with
    | none => s
    | some f => if k.state ≠ .run then s else s.replayFrom d p f.seq)

/-- NAK_RESEND: 16 µs of discarding without a replay frame (R241). -/
def execNakResend (d p : Nat) (s : State) : Host.Outcome State Fault Refusal :=
  .next (let k := s.pair d p
    if ! k.lit || ! k.discarding then s else s.sendIdle d p (fun f => { f with nak := true, nakSeq := k.expected }))

/-- LANE_MAP_CHANGE: the announced map of a direction takes effect after the tick of its turn, or at the end of a quiet
window that covers it (R247, R255). -/
def execLaneMapChange (d p : Nat) (rx : Bool) (s : State) : Host.Outcome State Fault Refusal :=
  .next (if (s.pair d p).state ≠ .run then s
    else s.modPair d p (fun k => if rx then k.applyRx s.turn else k.applyTx s.turn))

/-- LANE_DROP: the receiver asks that a lane above the threshold for 1,000 turns leave the map (R247), unless it is the map's
last (log 199). -/
def execLaneDrop (d p lane : Nat) (s : State) : Host.Outcome State Fault Refusal :=
  .next (let k := s.pair d p
    let m := setBit (k.rxWant.getD (lastMap k.rxSet k.rxLanes)) lane false
    if ! k.lit || ! k.rxLanes.testBit lane || m = 0 then s
    else (s.modPair d p (fun k => { k with rxWant := some m })).sendIdle d p
      (fun f => { f with laneReq := true, laneSet := false, laneNext := m }))

/-! ### Laser sources (R250 to R254, R258, R492) -/

/-- The spare bay that is free for a port (R252): STANDBY and not chosen for another port, the lower number; HOST has bay 11,
or bay 10 back. -/
def State.freeSpare (s : State) (port : Nat) : Option Nat :=
  ((if port = 8 then [10, 11] else [8, 9]) : List Nat).find? (fun b => (s.bay b).state = 2 &&
    (List.range 8).all (fun n => n = port || ((s.port n).switching.map Switchover.spare) ≠ some b))

/-- A pair announces a transmit map, unless its last announcement leads there. -/
def State.setLanes (s : State) (d p m : Nat) : State :=
  let k := s.pair d p
  if ! k.lit || m = 0 || m = lastMap k.txSet k.txLanes then s
  else (s.modPair d p (fun k => { k with txSet := announce k.txSet m (turnPlus s.turn 4) })).sendIdle d p (fun f => f)

/-- The bay that a port is fed by becomes the source `b` (R250), and the port's pairs get their full lane maps back (R253);
`old` is the state the replaced bay takes. -/
def State.feedFrom (s : State) (port b old : Nat) : State :=
  let s1 := match (s.port port).feed with
    | some o => s.modBay o (fun y => { y with state := old, low := 0 })
    | none => s
  let s2 := (s1.modBay b (fun y => { y with state := 3 })).modPort port (fun p =>
    { p with feed := some b, retired := 0, switching := none, noSpare := false, gap := false })
  let s3 := if port = 8 then s2 else (pairsOf port).foldl (fun s q => s.setLanes q.1 q.2 0xFFFF) s2
  s3.notice Code.lsmSwitchover (subjectOf 0xFF port 0xFF 0xFF 0xFF) 0 0 0

/-- Ask every pair of the port in RUN for a quiet window of four turns (R252). An earlier window that has been agreed stands beside
it (R255). -/
def State.askPause (s : State) (port turn : Nat) : State :=
  (pairsOf port).foldl (fun s q =>
    if (s.pair q.1 q.2).state ≠ .run then s
    else (s.modPair q.1 q.2 (fun k => { k with pause := some (turn, 4), pauseMine := true, pauseAgreed := false })).sendIdle q.1 q.2
      (fun f => f)) s

/-- This end gives up the window that it has asked for. -/
def Pair.dropPause (k : Pair) : Pair :=
  if ! k.pauseMine then k
  else { k with
    pause := none, pauseMine := false, pauseAgreed := false
    windows := match k.pause with
      | some (t, n) => k.windows.filter (fun w => w ≠ (t, n, false))
      | none => k.windows }

/-- The beacon of this turn has left over the pair, or the light did not let it (R242). -/
def State.beaconDone (s : State) (d p : Nat) : Bool :=
  (s.panel.time.sent.find (8 * d + p)).map Prod.fst = some s.turn || s.panel.time.missed.find (8 * d + p) = some s.turn

/-- The light is interrupted: a beacon that has not left in this turn is not sent late (R242). -/
def State.missBeacon (s : State) (d p : Nat) : State :=
  if s.beaconDone d p then s
  else { s with panel := { s.panel with time := { s.panel.time with missed := s.panel.time.missed.put (8 * d + p) s.turn } } }

/-- Begin a switchover of a port to bay `b` (R252): for HOST it is made at once (R258). -/
def State.beginSwitch (s : State) (port b : Nat) (keepOld service : Bool) : State :=
  if port = 8 then s.feedFrom 8 b (if service then 5 else if keepOld then 2 else 4)
  else
    let t := turnPlus s.turn 16
    (s.modPort port (fun p => { p with switching := some { spare := b, turn := t, keepOld := keepOld, service := service } })).askPause
      port t

/-- A switchover ends without a change: its windows are given up. -/
def State.endSwitch (s : State) (port : Nat) : State :=
  (pairsOf port).foldl (fun s q => s.modPair q.1 q.2 Pair.dropPause) (s.modPort port (fun p => { p with switching := none, gap := false }))

/-- A port that a spare feeds moves back to its own bay once that is STANDBY and no switchover is under way, and one with no
source takes it at once (R253, R254). -/
def State.moveBack (s : State) (port : Nat) : State :=
  let own := if port = 8 then 10 else port
  let p := s.port port
  if (s.bay own).state ≠ 2 || p.switching.isSome then s
  else match p.feed with
    | none => s.feedFrom port own 4
    | some f => if f = own then s else s.beginSwitch port own true false

/-- SWITCHOVER_WINDOW_CHECK: at the tick of T − 2 the window stands when every pair asked has answered; else T + 16 is
proposed, and the fourth refusal ends in a change without a window (R252 step 3). -/
def execSwitchoverWindowCheck (port : Nat) (s : State) : Host.Outcome State Fault Refusal :=
  .next (match (s.port port).switching with
    | none => s
    | some w =>
      if w.stands || w.forced || ! turnCome w.turn (turnPlus s.turn 2) then s
      else
        let asked := (pairsOf port).filter (fun q => (s.pair q.1 q.2).lit && (s.pair q.1 q.2).pauseMine)
        if asked.all (fun q => (s.pair q.1 q.2).pauseAgreed) then
          s.modPort port (fun p => { p with switching := some { w with stands := true } })
        else
          let s1 := (pairsOf port).foldl (fun s q => s.modPair q.1 q.2 Pair.dropPause) s
          if w.refusals + 1 = 4 then
            (s1.modPort port (fun p => { p with switching := some { w with forced := true, refusals := 4 } })).notice Code.pauseFailed
              (subjectOf 0xFF port 0xFF 0xFF 0xFF) 0 0 0
          else
            (s1.modPort port (fun p => { p with switching := some { w with turn := turnPlus w.turn 16, refusals := w.refusals + 1 } })).askPause
              port (turnPlus w.turn 16))

/-- SOURCE_SWITCH: the controller begins the change 5.12 µs after the tick of T + 1; the feed goes dark (R252 step 5). -/
def execSourceSwitch (port : Nat) (s : State) : Host.Outcome State Fault Refusal :=
  .next (match (s.port port).switching with
    | none => s
    | some w =>
      if (w.stands && turnCome (turnPlus w.turn 1) s.turn) || w.forced then s.modPort port (fun p => { p with gap := true }) else s)

/-- The press of a bay's service button (R492). -/
def State.press (s : State) (bay : Nat) : State :=
  let y := s.bay bay
  if s.panel.laserOff then s
  else if y.state = 2 then s.modBay bay (fun y => { y with state := 5 })
  else if y.state ≠ 3 then s
  else match (List.range 9).find? (fun n => (s.port n).feed = some bay) with
    | none => s
    | some port =>
      match s.freeSpare port with
        | none => (s.modBay bay (fun y => { y with refused := some s.turn })).notice Code.lsmServiceRefused noSubject 0 0 0
        | some b => s.beginSwitch port b false true

/-- A switchover involves the bay: it feeds the port, or takes it over (R492). -/
def State.baySwitching (s : State) (b : Nat) : Bool :=
  (List.range 9).any (fun n => match (s.port n).switching with
    | some w => decide ((s.port n).feed = some b) || decide (w.spare = b)
    | none => false)

/-- SERVICE_BUTTON_PRESS. A press during a switchover that involves the bay waits for its end. -/
def execServiceButtonPress (bay : Nat) (s : State) : Host.Outcome State Fault Refusal :=
  .next (if s.baySwitching bay then s.modBay bay (fun y => { y with pressed := true }) else s.press bay)

/-- A switchover has ended, in whichever way: the presses held for its bays are applied, and the port moves back to its own bay where
it can (R253, R492). -/
def State.afterSwitch (s : State) (port : Nat) : State :=
  ((List.range 12).foldl (fun s b =>
    if (s.bay b).pressed && ! s.baySwitching b then (s.modBay b (fun y => { y with pressed := false })).press b else s) s).moveBack port

/-- SOURCE_SWITCH_DONE: the change completes; the replaced source goes to FAILED, or to OFF after a press of its button,
or back to STANDBY when it was a spare that the own bay replaces (R252, R253, R492). A source that has failed or gone during the
change is not fed from: the port takes another free spare at once, or has no source (R254). A beacon that the gap has held back is
not sent late (R242). -/
def execSourceSwitchDone (port : Nat) (s : State) : Host.Outcome State Fault Refusal :=
  .next (match (s.port port).switching with
    | none => s
    | some w =>
      if ! (s.port port).gap then s
      else
        let old := (s.port port).feed
        let after := if w.service then 5 else if w.keepOld then 2 else 4
        let s1 := if (s.bay w.spare).state = 2 then s.feedFrom port w.spare after
          else match s.freeSpare port with
            | some b => s.feedFrom port b after
            | none =>
              let s2 := match old with
                | some o => s.modBay o (fun y => { y with state := after, low := 0 })
                | none => s
              (s2.endSwitch port).modPort port (fun p => { p with feed := none })
        ((pairsOf port).foldl (fun s q => s.missBeacon q.1 q.2) s1).afterSwitch port)

/-- LSM_INSERT: an inserted module is QUALIFY (R253). -/
def execLsmInsert (bay : Nat) (l1h : Bool) (s : State) : Host.Outcome State Fault Refusal :=
  .next (if (s.bay bay).seated || 12 ≤ bay then s
    else s.modBay bay (fun _ => { seated := true, state := 1, typeOk := l1h = decide (10 ≤ bay) }))

/-- LSM_QUALIFIED: a QUALIFY bay of the right type becomes STANDBY; a port that a spare feeds moves back to its own bay,
and one with no source takes it (R253, R254). -/
def execLsmQualified (bay : Nat) (s : State) : Host.Outcome State Fault Refusal :=
  .next (if (s.bay bay).state ≠ 1 || ! (s.bay bay).typeOk then s
    else
      let s1 := s.modBay bay (fun y => { y with state := 2 })
      let port := if bay = 10 then 8 else bay
      if bay < 8 || bay = 10 then
        (if (s1.port port).feed = some bay then s1.modBay bay (fun y => { y with state := 3 }) else s1.moveBack port)
      else match (if bay = 11 then [8] else List.range 8 : List Nat).find? (fun n => (s1.port n).feed.isNone) with
        | some n => s1.feedFrom n bay 4
        | none => s1)

/-- A source has Failed (R251, R254): LSM_FAILED when it feeds a port, and that port switches to a free spare at once, else to its
own bay when that is STANDBY, or has no source. A switchover to it that the controller has not begun is given up. -/
def State.sourceFailed (s : State) (bay after : Nat) : State :=
  let s0 := (List.range 8).foldl (fun s n => match (s.port n).switching with
    | some w => if w.spare = bay && ! (s.port n).gap then (s.endSwitch n).afterSwitch n else s
    | none => s) (s.modBay bay (fun y => { y with state := after }))
  match (List.range 9).find? (fun n => (s.port n).feed = some bay) with
  | none => s0
  | some port =>
    let s1 := (s0.notice Code.lsmFailed (subjectOf 0xFF port 0xFF 0xFF 0xFF) 0 0 0).endSwitch port
    (match s1.freeSpare port with
      | some b => s1.feedFrom port b after
      | none => s1.modPort port (fun p => { p with feed := none })).afterSwitch port

/-- LSM_FAILED: the bay's presence is lost, or the module reports an internal fault (R254). -/
def execLsmFailed (bay : Nat) (pulled : Bool) (s : State) : Host.Outcome State Fault Refusal :=
  .next (let st := (s.bay bay).state
    if ! (s.bay bay).seated || (! pulled && (st = 0 || st = 4)) then s
    else
      let t := if st = 0 || st = 4 || st = 5 then s else s.sourceFailed bay 4
      if pulled then t.modBay bay (fun _ => {}) else t)

/-- HOST_LINK_CHANGE: the link of HOST comes up or fails (R258, R260). It is dark until the hearth enables it, and while
its contact is open or no bay feeds it (R257). -/
def execHostLinkChange (up : Bool) (s : State) : Host.Outcome State Fault Refusal :=
  .next (if up && (! (s.port 8).enabled || ! (s.port 8).contact || (s.port 8).feed.isNone || s.panel.laserOff) then s
    else s.modPort 8 (fun p => { p with up := up }))

/-! ### Fade, once per turn (R251) -/

/-- The average of the readings of the last 64 turns. -/
def averageOf (l : List Int) : Int := if l.isEmpty then 0 else (l.foldl (· + ·) 0) / (l.length : Int)

/-- One wavelength's reading of the source that feeds a port. R251 averages the last 64 turns: before 64 readings exist the model
averages those taken so far (DESIGN CHOICE, log 103). -/
def Bay.reading (y : Bay) (i : Nat) (v : Int) : Bay :=
  let h := (v :: y.history.getD i []).take 64
  { y with history := y.history.put i h, fade := y.fade.put i (averageOf h) }

/-- A wavelength at Retire while no switch is possible leaves the port's maps (R251, R247), except from a map that has no other
lane (log 199). -/
def State.retire (s : State) (port i : Nat) : State :=
  let s1 := s.modPort port (fun p => { p with retired := setBit p.retired i true })
  let s2 := (pairsOf port).foldl (fun s q =>
    let k := s.pair q.1 q.2
    s.setLanes q.1 q.2 (setBit (lastMap k.txSet k.txLanes) i false)) s1
  s2.notice Code.lanesRetired (subjectOf 0xFF port 0xFF 0xFF 0xFF) 0 0 0

/-- The levels of one wavelength after its reading (R251). -/
def State.fadeLevel (s : State) (port b i : Nat) : State :=
  let v := (s.bay b).fade.getD i 0
  let s1 :=
    if v ≤ -40 && ! (s.bay b).warn.testBit i then
      (s.modBay b (fun y => { y with warn := setBit y.warn i true })).notice Code.lsmFadeWarn (subjectOf 0xFF port 0xFF 0xFF 0xFF)
        0 0 0
    else if -30 ≤ v && (s.bay b).warn.testBit i then s.modBay b (fun y => { y with warn := setBit y.warn i false })
    else s
  let s2 := if v ≤ -60 then s1.modBay b (fun y => { y with low := setBit y.low i true }) else s1
  let idle := (s2.port port).switching.isNone && (s2.port port).feed = some b
  let s3 := if v ≤ -60 && idle then
      match s2.freeSpare port with
      | some c => s2.beginSwitch port c false false
      | none => if (s2.port port).noSpare then s2
                else (s2.modPort port (fun p => { p with noSpare := true })).notice Code.lsmNoSpare (subjectOf 0xFF port 0xFF 0xFF 0xFF) 0 0 0
    else s2
  if v ≤ -90 && port ≠ 8 && (s3.port port).switching.isNone && (s3.port port).feed = some b && (s3.freeSpare port).isNone &&
      ! (s3.port port).retired.testBit i then s3.retire port i
  else s3

/-- The monitor readings of one turn: (port, wavelength, power relative to nominal in 0.05 dB), of sources that feed. Eight or more readings of
one source at −6.0 dB or below make it Failed. Ports are served in bay order (R252). The primary hearth evaluates them: until the
outputs are enabled at step 9, and while no hearth serves, nothing is (R251, R442). -/
def State.lightReadings (s : State) (l : List (Nat × Nat × Int)) : State :=
  if s.panel.bring.step ≤ 9 || s.panel.server.isNone then s else
  let fed := (List.range 12).filterMap (fun b => ((List.range 9).find? (fun n => (s.port n).feed = some b)).map (fun n => (b, n)))
  fed.foldl (fun s q =>
    let b := q.1
    let port := q.2
    if (s.port port).feed ≠ some b || (s.bay b).state ≠ 3 then s
    else
      let mine := l.filter (fun e => e.1 = port && decide (e.2.1 < 16))
      let s1 := s.modBay b (fun y => mine.foldl (fun y e => y.reading e.2.1 e.2.2) y)
      if 8 ≤ (mine.filter (fun e => decide (e.2.2 ≤ -120))).length then s1.sourceFailed b 4
      else mine.foldl (fun s e => if (s.port port).feed = some b then s.fadeLevel port b e.2.1 else s) s1) s

end Sys2Proof.Machine
end

