-- ==== Sys2Proof/Machine/Routing.lean ====
section
/-! DEFINITION. Routes (R281 to R290): dimension order over the torus, gateways, intermediate groups and the mesh. -/
namespace Sys2Proof.Machine

/-! ### The mesh (R290) -/

def meshDist (a b : Nat) : Nat :=
  (max (rowOf a) (rowOf b) - min (rowOf a) (rowOf b)) + (max (colOf a) (colOf b) - min (colOf a) (colOf b))

/-- The next site of a row-then-column leg. -/
def legNext (a b : Nat) : Nat :=
  if colOf a < colOf b then a + 1 else if colOf b < colOf a then a - 1
  else if rowOf a < rowOf b then a + 13 else if rowOf b < rowOf a then a - 13 else a

/-- A leg passes only ACTIVE sites; at most `k` hops. -/
def legOk (act : Nat → Bool) : Nat → Nat → Nat → Bool
  | 0, a, b => a = b && act a
  | k + 1, a, b => act a && (a = b || legOk act k (legNext a b) b)

/-- The turning site of the route from `a` to `b`: none for a single leg (R290). -/
def meshVia (act : Nat → Bool) (a b : Nat) : Option (Option Nat) :=
  if legOk act 16 a b then some none
  else
    let c := (List.range 52).filter (fun m => act m && legOk act 16 a m && legOk act 16 m b)
    (c.foldl (fun (best : Option Nat) m => match best with
      | none => some m
      | some k => if meshDist a m + meshDist m b < meshDist a k + meshDist k b then some m else some k) none).map some

/-- Hops of the route, when there is one. -/
def meshHops (act : Nat → Bool) (a b : Nat) : Option Nat :=
  (meshVia act a b).map (fun v => match v with
    | none => meshDist a b
    | some m => meshDist a m + meshDist m b)

/-- The hearth computes the mesh routes and raises FAB_MESH_SPLIT once for each pair of ACTIVE sites that has none. -/
def State.meshRoutes (s : State) : State :=
  let act := (List.range 52).filter s.meshSite
  let bad := act.flatMap (fun a => (act.filter (fun b => (meshVia s.meshSite a b).isNone)).map (fun b => (a, b)))
  let s1 := { s with panel := { s.panel with fabric := { s.panel.fabric with split := bad } } }
  bad.foldl (fun s q => s.notice Code.fabMeshSplit (dieSubject (s.die q.1).standsFor) q.1 q.2 0) s1

/-! ### The torus (R281 to R283) -/

/-- Where a packet goes next from a module. -/
inductive Hop where
  | eject
  | port (exit phase : Nat)
  | unroutable
  /-- The named global port is absent (R285): group and gateway port. -/
  | bounce (group gport : Nat)
  deriving DecidableEq, Repr

/-- Links of a dimension from coordinate `me` in a direction for `k` hops are present. -/
def pathClear (ring dim me : Nat) (plus : Bool) (k : Nat) : Bool :=
  let n := dimSize dim
  (List.range k).all (fun i => ! bitAt ring (ringBase dim + (if plus then (me + i) % n else (me + 2 * n - 1 - i) % n)))

/-- One hop within a local segment whose channels start at `seg`, toward `tgt` (R281, R282). -/
def localHop (f : Fabric) (tgt seg arrPort arrPhase : Nat) : Hop :=
  match ([0, 1, 2] : List Nat).find? (fun dim => cDim f.coord dim ≠ cDim tgt dim) with
  | none => .unroutable
  | some dim =>
    let n := dimSize dim
    let me := cDim f.coord dim
    let t := cDim tgt dim
    let up := (t + n - me) % n
    let down := (me + n - t) % n
    let moving := arrPort / 2 = dim && decide (arrPort < 6) && arrPhase / 3 = seg / 3 && (arrPhase = seg || arrPhase = seg + 1)
    let go := fun (plus : Bool) =>
      let dateline := if plus then decide (me + 1 = n) else decide (me = 0)
      Hop.port (2 * dim + (if plus then 0 else 1)) (seg + if dateline || (moving && arrPhase = seg + 1) then 1 else 0)
    if moving then
      let plus := arrPort % 2 = 1
      if pathClear f.ring dim me plus 1 then go plus else .unroutable
    else
      let first := decide (up ≤ down)
      if pathClear f.ring dim me first (if first then up else down) then go first
      else if pathClear f.ring dim me (! first) (if first then down else up) then go (! first)
      else .unroutable

/-- Torus hops between two coordinate words of a group. -/
def torusHops (a b : Nat) : Nat :=
  ([0, 1, 2] : List Nat).foldl (fun k dim => let n := dimSize dim
    k + min ((cDim b dim + n - cDim a dim) % n) ((cDim a dim + n - cDim b dim) % n)) 0

/-- Entry `e` of a gateway word (R299). -/
def gwEntry (w e : Nat) : Nat := bits w (16 * e + 15) (16 * e)
def gwCoord (group ent : Nat) : Nat := cOf group (bits ent 7 6) (bits ent 5 4) (bits ent 3 1)

/-- The gateway for a group: usable entries, fewest hops, lower index (R283). -/
def Fabric.gateway (f : Fabric) (g : Nat) : Option Nat :=
  let w := f.gw.getD g 0
  let ok := ([0, 1, 2, 3] : List Nat).filter (fun e => bitAt (gwEntry w e) 15 && (f.gwExcluded.find (4 * g + e)).isNone)
  (ok.foldl (fun (b : Option Nat) e => match b with
    | none => some e
    | some c => if torusHops f.coord (gwCoord (cGroup f.coord) (gwEntry w e)) < torusHops f.coord (gwCoord (cGroup f.coord) (gwEntry w c))
        then some e else some c) none).map (fun e => gwEntry w e)

/-- Toward a gateway for group `g` in the local segment `seg`, leaving on the global channel `gphase`. -/
def Fabric.towardGroup (f : Fabric) (g seg gphase arrPort arrPhase : Nat) : Hop :=
  match f.gateway g with
  | none => .unroutable
  | some ent =>
    let c := gwCoord (cGroup f.coord) ent
    if c = f.coord then
      if f.present.testBit (6 + ent % 2) then .port (6 + ent % 2) gphase else .bounce g (ent % 2)
    else localHop f c seg arrPort arrPhase

/-- The next hop of a packet that arrived on `port` (8 when injected here) (R281 to R286). A packet for the own rank takes the
mesh only (R275). -/
def Fabric.hop (f : Fabric) (q : Packet) (port : Nat) : Hop :=
  let own := cGroup f.coord
  let dst := cGroup q.dstCoord
  let fresh := decide (8 ≤ port)
  if ! fresh && q.ttl = 0 then .unroutable
  else if fresh && f.selfValid && q.job = f.job && q.dstRank = f.rank then .eject
  else if q.dstCoord = f.coord then .eject
  else if own = dst then
    if fresh || q.phase = 0 || q.phase = 1 then localHop f q.dstCoord 0 port q.phase
    else localHop f q.dstCoord 6 port (if q.phase = 6 || q.phase = 7 then q.phase else 8)
  else if fresh || q.phase = 0 || q.phase = 1 then
    f.towardGroup (if q.via ≠ 0x7F && q.via ≠ own then q.via else dst) 0 2 port (if fresh then 8 else q.phase)
  else if q.phase = 2 && q.via = own then f.towardGroup dst 3 5 port 8
  else if q.phase = 3 || q.phase = 4 then f.towardGroup dst 3 5 port q.phase
  else .unroutable

/-! ### Choice of the intermediate group (R284) -/

/-- Search for an intermediate group: at most `k` steps of the pointer. -/
def viaSearch (usable : Nat → Bool) : Nat → Nat → Nat × Nat
  | 0, p => (0x7F, p)
  | k + 1, p => let q := (p + 1) % 127; if usable q then (q, q) else viaSearch usable k q

/-- VIA of a new packet, and the pointer after it. -/
def Die.chooseVia (x : Die) (q : Packet) : Nat × Nat :=
  let f := x.fab
  let own := cGroup f.coord
  let dst := cGroup q.dstCoord
  if dst = own || q.cls ≠ clsReq then (0x7F, f.viaPtr)
  else
    let m := popCount (f.marks.getD dst 0) 64
    let exitOf := fun (p : Packet) => match f.hop p 8 with
      | .port e _ => some e
      | _ => none
    let first := exitOf { q with via := 0x7F }
    let depth := (f.held.filter (fun h => h.from_ = .inject && h.pkt.cls = clsReq && first.isSome && exitOf h.pkt = first)).length
    if (f.nmMarks ≠ 0 && decide (f.nmMarks ≤ m)) || (f.nmDepth ≠ 0 && decide (f.nmDepth < depth)) then
      viaSearch (fun g => g ≠ own && g ≠ dst && f.viaMask.testBit g && (f.viaExcluded.find g).isNone && (f.gateway g).isSome) 127 f.viaPtr
    else (0x7F, f.viaPtr)

end Sys2Proof.Machine
end

