-- ==== Sys2Proof/Machine/RemoteOps.lean ====
section
/-! DEFINITION. The remote access unit's shared operations (chapter 10): requests and their completion, injection
windows and sessions (R296, R309), packets as they are formed (R275, R305 to R308), and target sessions (R310, R312). -/
namespace Sys2Proof.Machine

/-! ### Requests of the source -/

/-- The global address of a request. -/
def Req.global (r : Req) : Nat := r.rank * 2 ^ 50 + r.die * 2 ^ 44 + r.addr
def Req.org (r : Req) : Origin := match r.owner with
  | .thread o => o
  | .ladle _ _ o => o

def Die.modReq (x : Die) (id : Nat) (f : Req → Req) : Die :=
  { x with rem := { x.rem with reqs := x.rem.reqs.map (fun r => if r.id = id then f r else r) } }

/-- Drop a request and what waits of it at the fabric interface. -/
def Die.dropReq (x : Die) (id : Nat) : Die :=
  { x with rem := { x.rem with reqs := x.rem.reqs.filter (fun r => r.id ≠ id) }
           fab := { x.fab with handoff := x.fab.handoff.filter (fun h => h ≠ .req id) } }

/-- FAB_REMOTE_FAULT and FAB_REMOTE_CODE (R332). -/
def Die.remoteFault (x : Die) (addr code : Nat) : Die := { x with rem := { x.rem with faultAddr := addr, faultCode := code } }

/-- Requests outstanding to a destination (R296). -/
def Die.outstanding (x : Die) (key : Nat) : Nat := (x.rem.reqs.filter (fun r => r.sent && r.key = key)).length

/-- A request has ended: the last packet of a thread's command counts its tag and wakes a waiting LOAD or ATOMIC; a
ladle descriptor has one request fewer (R204, R305). -/
def State.reqDone (s : State) (d : Nat) (r : Req) : State :=
  let s1 := s.modDie d (fun x => x.dropReq r.id)
  match r.owner with
  | .ladle ch key _ => s1.modDie d (fun x => x.modChan ch (fun c => c.modActive key (fun a => { a with requests := a.requests - 1 })))
  | .thread o =>
    if (s1.die d).rem.reqs.any (fun q => q.cmd = r.cmd && (match q.owner with
        | .thread _ => true
        | _ => false)) then s1
    else
      let s2 := s1.countTag d o
      if (r.kind = .load || r.kind = .atomic) && decide (o.core < 2) then
        (s2.modThread d o.core o.thread (fun th => if th.wait = .reply then { th with wait := .ready } else th)).runOff d o.core o.thread
      else s2

/-- A request has been refused with a code: the code is recorded and raised against its course (R315); a ladle
descriptor stops (R202). -/
def State.reqRefused (s : State) (d : Nat) (r : Req) (code : Nat) : State :=
  let s1 := s.modDie d (fun x => (x.dropReq r.id).remoteFault r.global code)
  match r.owner with
  | .thread o => s1.raise d o code
  | .ladle ch key o =>
    (s1.modDie d (fun x => x.modChan ch (fun c => c.modActive key (fun a => { a with requests := a.requests - 1 })))).stopDesc d
      ch key o r.global code

/-- The rank entry is VALID in the table of the die (R273, R275). -/
def Fabric.rankOk (f : Fabric) (rank : Nat) : Bool := f.selfValid && bitAt (f.ranks.getD rank 0) 15
def Fabric.rankCoord (f : Fabric) (rank : Nat) : Nat := f.ranks.getD rank 0 % 2 ^ 14

/-! ### Windows and sessions -/

/-- The window of a destination; a new one starts at W_INIT (R296). -/
def Die.winOf (x : Die) (key : Nat) : Win :=
  match x.fab.wins.find key with
  | some w => w
  | none => { w := x.fab.wInit, recover := (x.rem.src.getD key {}).next }

/-- A window entry can be had: the destination has one, or one is free, or one with nothing outstanding can go. -/
def Die.winFree (x : Die) (key : Nat) : Bool :=
  (x.fab.wins.find key).isSome || decide (x.fab.wins.length < 4096) || x.fab.wins.any (fun e => x.outstanding e.1 = 0)

/-- Write a window entry, replacing the least recently used one that has nothing outstanding when 4,096 are kept. -/
def Die.putWin (x : Die) (key : Nat) (w : Win) : Die :=
  let f := x.fab
  let old := if (f.wins.find key).isSome || f.wins.length < 4096 then f.wins
    else match (f.wins.filter (fun e => x.outstanding e.1 = 0)).foldl (fun (b : Option (Nat × Win)) e => match b with
        | none => some e
        | some g => if e.2.used < g.2.used then some e else some g) none with
      | some e => f.wins.del e.1
      | none => f.wins
  { x with fab := { f with wins := old.put key { w with used := f.useCtr }, useCtr := f.useCtr + 1 } }

/-- The acknowledgement of a packet with number `seq` moves the window (R296) and the echo history of the target's
group (R295). -/
def Die.ackWindow (x : Die) (key seq : Nat) (echo : Bool) : Die :=
  let w := x.winOf key
  let next := (x.rem.src.getD key {}).next
  let w1 : Win :=
    if echo then
      if (seq + 2 ^ 24 - w.recover) % 2 ^ 24 < 2 ^ 23 then { w with w := max x.fab.wMin (w.w / 2), recover := next } else w
    else if w.w ≤ w.acked + 1 then { w with w := min x.fab.wMax (w.w + 1), acked := 0 }
    else { w with acked := w.acked + 1 }
  let g := cGroup (x.fab.rankCoord (key / 64))
  let y := x.putWin key w1
  { y with fab := { y.fab with marks := y.fab.marks.put g ((y.fab.marks.getD g 0 * 2 + if echo then 1 else 0) % 2 ^ 64) } }

/-- No earlier request of its unit waits: a waiting request holds back its unit (R309). -/
def Die.firstOfUnit (x : Die) (r : Req) : Bool :=
  r.sent || (x.rem.reqs.find? (fun q => ! q.sent && q.sameUnit r)).map Req.id = some r.id

/-- BLOCK_READs of a channel that hold a staging buffer (R317). -/
def Die.stagingUsed (x : Die) (ch : Nat) : Nat :=
  (x.rem.reqs.filter (fun r => r.sent && r.kind = .blockRead && (match r.owner with
    | .ladle h _ _ => h = ch
    | _ => false))).length

/-- A request can be injected now: its window, its session, its response space and the limit of R297 allow it, or it only
repeats. -/
def Die.canInject (x : Die) (r : Req) : Bool :=
  r.sent || (x.fab.rateOpen && (r.numbered || x.sessionOk r.key) && x.winFree r.key && decide (x.outstanding r.key < (x.winOf r.key).w) &&
    decide ((x.rem.reqs.filter (fun q => q.sent)).length < 16384) &&
    (match r.owner with
     | .ladle ch _ _ => r.kind ≠ .blockRead || decide (x.stagingUsed ch < 64)
     | _ => true))

/-! ### Packets of requests -/

def ReqKind.code : ReqKind → Nat
  | .load => 1
  | .store => 2
  | .atomic => 3
  | .send => 4
  | .blockRead => 5

/-- The bytes that a STORE or SEND packet carries, read from their source as the packet is formed (R305), or the address and
the code of the block or granule that failed all its reads (R193, R195). -/
def State.reqBytes (s : State) (d : Nat) (r : Req) : State × (Bytes ⊕ Nat × Nat) :=
  match r.fixed with
  | some bs => (s, .inl bs)
  | none =>
    match r.owner with
    | .thread o => let q := s.panLoad d o r.src r.len; (q.1, .inl q.2)
    | .ladle ch _ o =>
      if placeOf r.src = .pantry then let q := s.panLoad d o r.src r.len; (q.1, .inl q.2)
      else (s.modDie d (fun x => x.readDone (.ladle ch) (some o.core) [(r.src, r.len)]),
        ((s.die d).mem.verifiedRead (.ladle ch) r.src r.len).fault Code.ldlRegion)

/-- Payload of a request's packet (R308). -/
def Req.payload (r : Req) (bs : Bytes) : Bytes :=
  match r.kind with
  | .load => leBytes 2 (r.len - 1)
  | .store => if r.flag then leBytes 4 r.count ++ bs else bs
  | .atomic => leBytes 4 (r.aop + if r.wide then 16 else 0) ++ leBytes 4 r.opid ++ sliceAt bs 0 16
  | .send => leBytes 2 (r.msgLen - 1) ++ leBytes 2 r.part ++ bs
  | .blockRead => []

/-- Stamp a packet for injection (R275). -/
def Die.stamp (x : Die) (rank die cls : Nat) (trans payload : Bytes) : Packet :=
  { dstRank := rank, dstDie := die, dstCoord := x.fab.rankCoord rank, srcRank := x.fab.rank, srcDie := x.standsFor, cls := cls
    epoch := x.fab.epoch, job := x.fab.job, trans := trans, payload := payload }

/-- Give a request its number at its first injection (R309, R319). The parts of a SEND that have none yet get the numbers that
follow (R324). -/
def Die.numberReq (x : Die) (r : Req) : Die × Req :=
  let e := x.rem.src.getD r.key {}
  if r.sent then ({ x with rem := { x.rem with src := x.rem.src.put r.key { e with idle := 0 } } }, r)
  else
    let later := fun (q : Req) => r.kind = .send && q.kind = .send && q.cmd = r.cmd && ! q.numbered
    let n := if r.numbered then 0 else if r.kind = .send then (x.rem.reqs.filter later).length else 1
    let r1 := { r with seq := if r.numbered then r.seq else e.next, numbered := true, sent := true, count := e.storesSent }
    let y := x.putWin r.key (x.winOf r.key)
    let e1 := { e with
      next := (e.next + n) % 2 ^ 24
      idle := 0
      storesSent := if r.kind = .store then (e.storesSent + 1) % 2 ^ 32 else e.storesSent }
    ({ y with
        rem := { y.rem with
          src := y.rem.src.put r.key e1
          reqs := y.rem.reqs.map (fun q => if q.id = r.id then r1
            else if ! r.numbered && later q then { q with numbered := true, seq := (e.next + (q.part - r.part)) % 2 ^ 24 } else q) }
        fab := { y.fab with handed := y.fab.handed + 1 } }, r1)

/-- Put a stamped packet on its way: to the die itself when R176 applies, else into the injection queue with its VIA. -/
def State.launchPacket (s : State) (d : Nat) (q : Packet) : State :=
  let x := s.die d
  let s1 := s.traceFab d 0 8 q.cls q.word0 q.trans
  if q.dstRank = x.fab.rank && q.dstDie = x.standsFor then
    s1.modDie d (fun x => { x with rem := { x.rem with rx := x.rem.rx ++ [q] } })
  else
    let v := x.chooseVia q
    s1.modDie d (fun x => ({ x with fab := { x.fab with viaPtr := v.2 } } : Die).enqueue .inject 8 { q with via := v.1 })

/-- Inject request `r` (R275): the rank check, its number, its bytes, its packet. -/
def State.injectReq (s : State) (d : Nat) (r : Req) : State :=
  let s0 := s.modDie d (fun x => { x with fab := { x.fab with handoff := removeFirst (fun h => h = .req r.id) x.fab.handoff } })
  if ! (s.die d).fab.rankOk r.rank then s0.reqRefused d r Code.fabRankInvalid
  else match s0.reqBytes d r with
    | (s1, .inr (a, code)) =>
      let s2 := s1.modDie d (fun x => x.dropReq r.id)
      match r.owner with
      | .ladle ch key o =>
        (s2.modDie d (fun x => x.modChan ch (fun c => c.modActive key (fun a =>
          { a with requests := a.requests - 1 })))).stopDesc d ch key o a code
      | .thread o => s2.raise d o code
    | (s1, .inl bs) =>
      let n := (s1.die d).numberReq r
      let e := (s1.die d).rem.src.getD r.key {}
      let opn := ! e.zeroAcked
      let q := (s1.die d).stamp r.rank r.die clsReq (raTrans r.kind.code false r.flag opn n.2.seq r.addr (s1.turn % 256)) (n.2.payload bs)
      (s1.setDie d n.1).launchPacket d q

/-! ### Target sessions (R310, R312) -/

/-- Hand the fabric interface a response to packet `q`. -/
def Die.respond (x : Die) (q : Packet) (kind addr : Nat) (payload : Bytes) (turn : Nat) : Die :=
  { x with fab := { x.fab with handoff := x.fab.handoff ++
      [.pkt q.srcRank q.srcDie clsRsp (raTrans kind q.mark false false q.seq addr (turn % 256)) payload] } }

def Die.ackTo (x : Die) (q : Packet) (status turn : Nat) : Die := x.respond q 8 0 (leBytes 2 status) turn

/-- BUSY with its reason, counted in BUSY_SENT. -/
def Die.busyTo (x : Die) (q : Packet) (reason turn : Nat) : Die :=
  ({ x with rem := { x.rem with busySent := satAdd 16 x.rem.busySent 1 } } : Die).respond q 11 0 (leBytes 1 reason) turn

def Die.tgt (x : Die) (k : Nat) : TgtSession := x.rem.tgt.getD k {}
def Die.setTgt (x : Die) (k : Nat) (t : TgtSession) : Die := { x with rem := { x.rem with tgt := x.rem.tgt.put k t } }

/-- Distance of a number from BASE modulo 2^24. -/
def TgtSession.dist (t : TgtSession) (seq : Nat) : Nat := (seq + 2 ^ 24 - t.base) % 2 ^ 24

/-- The number has been applied before. -/
def TgtSession.done (t : TgtSession) (seq : Nat) : Bool := decide (2 ^ 23 ≤ t.dist seq) || t.applied.contains seq

/-- BASE moves past applied numbers; at most `k` steps. -/
def TgtSession.advance : Nat → TgtSession → TgtSession
  | 0, t => t
  | k + 1, t => if t.applied.contains t.base then
      TgtSession.advance k { t with base := (t.base + 1) % 2 ^ 24, applied := t.applied.filter (· ≠ t.base) } else t

/-- Mark a number applied, keep a non-zero status among the last 16, and count a store (R312, R319). -/
def TgtSession.mark (t : TgtSession) (seq status : Nat) (store : Bool) : TgtSession :=
  TgtSession.advance 4096 { t with
    applied := insertNat seq t.applied, progress := t.progress.filter (· ≠ seq)
    status := if status = 0 then t.status else (t.status ++ [(seq, status)]).drop ((t.status.length + 1) - 16)
    storesApplied := if store then (t.storesApplied + 1) % 2 ^ 32 else t.storesApplied }

/-- What the target makes of an arriving request (R312). -/
inductive Taken where
  | gone            -- answered, held or dropped: nothing more to do
  | again           -- applied before
  | fresh
  deriving DecidableEq, Repr

/-- Find or open the entry and decide (R312): the die afterwards and what follows. -/
def Die.take (x : Die) (q : Packet) (turn : Nat) : Die × Taken :=
  if x.rem.quiet ≠ 0 && ! (q.srcRank = x.fab.rank && q.srcDie = x.standsFor) then (x, .gone)
  else
    let k := q.srcKey
    match x.rem.tgt.find k with
    | none =>
      if ! q.opn then (x.ackTo q Code.targetReset turn, .gone)
      else if 16384 ≤ x.rem.tgt.length then (x.busyTo q 0 turn, .gone)
      else if 2 ^ 23 ≤ q.seq then (x.setTgt k {}, .again)
      else if 4096 ≤ q.seq then (x.setTgt k {}, .gone)
      else (x.setTgt k {}, .fresh)
    | some t =>
      let y := x.setTgt k { t with idle := 0 }
      if t.done q.seq then ({ y with rem := { y.rem with duplicates := satAdd 16 y.rem.duplicates 1 } }, .again)
      else if 4096 ≤ t.dist q.seq then (y, .gone)
      else if t.flags.any (fun f => f.seq = q.seq) then (y.busyTo q 2 turn, .gone)
      else if t.progress.contains q.seq then (y, .gone)
      else (y, .fresh)

/-- The status that the first application recorded (R312). -/
def TgtSession.statusOf (t : TgtSession) (seq : Nat) : Nat := ((t.status.find? (fun e => e.1 = seq)).map Prod.snd).getD 0

/-- The target's checks of a span (R315). -/
def MemUnit.targetCheck (m : MemUnit) (a n : Nat) (writes : Bool) : Nat :=
  match spanPlace a n with
  | none => Code.rmtAddr
  | some pl =>
    if pl ≠ .pantry && (m.regionOf a n).isNone then Code.rmtRegion
    else if writes && m.frozen a n then Code.rmtFrozen
    else 0

/-- Apply pending kiln writes to the blocks of a span first, so that a read-modify-write sees them (R191). -/
def MemUnit.pendingTouches (m : MemUnit) (a n : Nat) : Bool :=
  (m.hbmKiln ++ m.larKiln).any (fun q => decide (q.block < a + n) && decide (a < q.block + 4096))

/-- The first packet of a kind that waits to be consumed, and the die without it. Requests of remote access are taken in the
order in which they arrived, whatever their kinds (R320). -/
def Die.takeRx (x : Die) (owner : Nat) (kinds : List Nat) : Option (Packet × Die) :=
  let p := fun (q : Packet) => q.owner = owner &&
    (kinds.contains q.kind || (owner = 5 && decide (q.kind < 8) && kinds.all (fun k => decide (k < 8))))
  (x.rem.rx.find? p).bind (fun q =>
    if kinds.contains q.kind then some (q, { x with rem := { x.rem with rx := removeFirst p x.rem.rx } }) else none)

end Sys2Proof.Machine
end

