-- ==== Sys2Proof/Machine/Fabric.lean ====
section
/-! DEFINITION. Commands of the fabric interface (chapter 09). -/
namespace Sys2Proof.Machine

/-! ### Injection (R275) -/

/-- The class of what waits for injection. -/
def Handoff.cls : Handoff → Nat
  | .req _ => clsReq
  | .pkt _ _ c _ _ => c

/-- What waits can be injected now. A die with no number sends nothing (R48); FENCED and the quiet period hold back what leaves
the die (R328, R460); an injection queue holds 2,048 packets of a class (R291). -/
def Die.mayInject (x : Die) (h : Handoff) : Bool :=
  let local_ := fun (rank die : Nat) => x.fab.selfValid && rank = x.fab.rank && die = x.standsFor
  let room := decide ((x.fab.held.filter (fun g => g.from_ = .inject && g.pkt.cls = h.cls)).length < 2048)
  x.standsFor ≠ 0x3F && match h with
  | .req i => match x.rem.reqs.find? (fun r => r.id = i) with
    | none => true
    | some r => x.firstOfUnit r && (! x.fab.rankOk r.rank || x.canInject r && (local_ r.rank r.die || (! x.fab.fenced && x.rem.quiet = 0 && room)))
  | .pkt rank die _ _ _ => ! x.fab.rankOk rank || local_ rank die || (! x.fab.fenced && room)

/-- A packet that a unit formed is stamped, with its time stamp, and injected. -/
def State.injectPkt (s : State) (d rank die cls : Nat) (tr pl : Bytes) : State :=
  let tr1 := if byteAt tr 0 % 16 = 0 then tr else tr.take 11 ++ leBytes 1 s.turn
  s.launchPacket d ((s.die d).stamp rank die cls tr1 pl)

/-! ### Forwarding (R281 to R290) -/

/-- Drop a packet as unroutable (R286). -/
def State.dropUnroutable (s : State) (d : Nat) : State :=
  let s1 := s.modDie d (fun x => { x with fab := { x.fab with unroutable := satAdd 16 x.fab.unroutable 1 } })
  if s1.panel.fabric.unroutTurn = some s1.turn then s1
  else ({ s1 with panel := { s1.panel with fabric := { s1.panel.fabric with unroutTurn := some s1.turn } } }).notice Code.fabUnroutable
    noSubject 0 0 0

/-- The exit die for a port: an ACTIVE site whose pair of the port is lit, fewest mesh hops, round robin on a tie (R289). Before the
first choice site 0 counts as the one served last (DESIGN CHOICE, log 213). -/
def State.exitDie (s : State) (d port : Nat) : Option Nat :=
  let c := (pairsOf port).filterMap (fun q =>
    if (s.port port).faces && (s.pair q.1 q.2).serves && s.meshSite q.1 then (meshHops s.meshSite d q.1).map (fun h => (h, q.1)) else none)
  let last := (s.die d).fab.exitRr.getD port 0
  let key := fun (q : Nat × Nat) => 64 * q.1 + (q.2 + 52 - (last + 1) % 52) % 52
  (c.foldl (fun (b : Option (Nat × Nat)) q => match b with
    | none => some q
    | some r => if key q < key r then some q else some r) none).map Prod.snd

/-- Send BOUNCE to the source die of a packet (R280, R285). The gateway's own rank table gives the way back; without a
valid entry there none is sent. -/
def Die.bounceTo (x : Die) (q : Packet) (group gport : Nat) : Die :=
  if ! x.fab.rankOk q.srcRank then x
  else
    let b := { x.stamp q.srcRank q.srcDie clsCtl (sliceAt ([0, 1] ++ leBytes 2 x.fab.coord ++ leBytes 1 group ++ leBytes 1 gport) 0 12) [] with
      epoch := q.epoch, job := q.job }
    if x.fab.fenced then x else x.enqueue .inject 8 b

/-- Take the held packet at place `i` out of its buffer. -/
def Die.unhold (x : Die) (i : Nat) (a : Arrival) : Die :=
  ({ x with fab := { x.fab with held := x.fab.held.eraseIdx i } } : Die).freeSlot a

/-- Set the route of the packet at place `i`. -/
def Die.setRoute (x : Die) (i : Nat) (r : Option Route) : Die :=
  { x with fab := { x.fab with held := x.fab.held.zipIdx.map (fun h => if h.2 = i then { h.1 with route := r } else h.1) } }

/-- The route over the mesh to the site where the packet leaves. -/
def State.routeTo (s : State) (d exit site phase : Nat) : Route :=
  match meshVia s.meshSite d site with
  | some (some m) => { exit := exit, site := site, phase := phase, via := some m, leg := 0 }
  | _ => { exit := exit, site := site, phase := phase, via := none, leg := 0 }

/-- What the consuming die makes of an ejected packet: 0 delivered, 1 FOREIGN, 2 STALE, 3 EVICTED_SRC, 4 AGED. -/
def Die.ejectCheck (x : Die) (q : Packet) (turn : Nat) : Nat :=
  if tooOld turn q then 4
  else if ! x.fab.selfValid || q.job ≠ x.fab.job then 1
  else if q.epoch ≠ x.fab.epoch then 2
  else if ! x.fab.rankOk q.srcRank then 3
  else if q.dstRank ≠ x.fab.rank || q.dstDie ≠ x.standsFor then 1
  else if q.owner = 5 && ! ([1, 2, 3, 4, 5, 8, 9, 10, 11].contains q.kind) then 1
  else if q.owner ≠ 0 && q.owner ≠ 4 && q.owner ≠ 5 then 1
  else 0

/-- Decide the route of the packet at place `i`: drop it, eject it, or choose its exit die. A packet for a vacant number is
dropped here, by the checks of R276; a number whose die is off or in reset is vacant until the die is back (R439), and one
that the mesh cannot reach is unroutable (DEDUCED, log 196). -/
def State.decideRoute (s : State) (d i : Nat) (h : Held) : State :=
  let x := s.die d
  let gone := s.setDie d (x.unhold i h.from_)
  if tooOld s.turn h.pkt && h.from_ ≠ .inject then
    gone.modDie d (fun x => x.countDrop 4)
  else match x.fab.hop h.pkt h.port with
    | .unroutable => gone.dropUnroutable d
    | .bounce g p =>
      (gone.modDie d (fun x => ({ x with fab := { x.fab with unroutable := satAdd 16 x.fab.unroutable 1 } } : Die).bounceTo h.pkt g p))
    | .eject =>
      match (s.siteOf h.pkt.dstDie).filter s.meshSite with
      | none => gone.modDie d (fun x => x.countDrop (match x.ejectCheck h.pkt s.turn with
        | 2 => 2
        | 3 => 3
        | _ => 1))
      | some t => if (meshVia s.meshSite d t).isNone then gone.dropUnroutable d else s.setDie d (x.setRoute i (some (s.routeTo d 8 t 0)))
    | .port e ph =>
      match s.exitDie d e with
      | none => gone.dropUnroutable d
      | some t =>
        let s1 := s.setDie d ((x.setRoute i (some (s.routeTo d e t ph))))
        let s2 := s1.modDie d (fun x => { x with fab := { x.fab with exitRr := x.fab.exitRr.put e t } })
        if h.from_ = .inject then s2 else s2.traceFab d 2 h.port h.pkt.cls h.pkt.word0 h.pkt.trans

/-- Side of site `b` on which its neighbour `a` lies: 0 N, 1 S, 2 W, 3 E. -/
def sideOf (a b : Nat) : Nat := if a + 13 = b then 0 else if b + 13 = a then 1 else if a + 1 = b then 2 else 3

/-- Room at the next die for queue `q` of the link: a reserved slot, else a shared one (R291, R292). -/
def Die.meshRoom (x : Die) (side q : Nat) : Option Bool :=
  let res := x.fab.held.any (fun h => h.from_ = .mesh side q false)
  let sh := (x.fab.held.filter (fun h => match h.from_ with
    | .mesh d _ true => d = side
    | _ => false)).length
  if ! res then some false else if sh < 512 then some true else none

/-- The next mesh hop of a packet at site `d`: the site, and the route after it. -/
def Route.next (r : Route) (d : Nat) : Nat × Route :=
  match r.via with
  | some m =>
    if r.leg = 0 then
      if d = m then (legNext d r.site, { r with leg := 1 }) else (legNext d m, r)
    else (legNext d r.site, r)
  | none => (legNext d r.site, r)

/-- A packet with route `r` can take a mesh hop; while FENCED the die sends none of its own (R460). -/
def State.canHop (s : State) (d : Nat) (h : Held) (r : Route) : Bool :=
  let n := r.next d
  r.site ≠ d && s.meshSite n.1 && ! (h.from_ = .inject && (s.die d).fab.fenced) &&
    ((s.die n.1).meshRoom (sideOf d n.1) (64 * r.exit + 32 * n.2.leg + (8 * h.pkt.cls + h.pkt.phase))).isSome

/-- A mesh hop: the packet moves to the next die's ingress buffer with its class and phase kept (R288). One that has grown too
old in an ingress buffer is dropped as it leaves (R311). -/
def State.meshHop (s : State) (d i : Nat) (h : Held) (r : Route) : State :=
  if tooOld s.turn h.pkt && h.from_ ≠ .inject then s.modDie d (fun x => (x.unhold i h.from_).countDrop 4) else
  let n := r.next d
  let side := sideOf d n.1
  let q := 64 * r.exit + 32 * n.2.leg + (8 * h.pkt.cls + h.pkt.phase)
  match (s.die n.1).meshRoom side q with
  | none => s
  | some sh =>
    let a : Arrival := .mesh side q sh
    let s1 := s.modDie d (fun x => x.unhold i h.from_)
    let m := (s1.die n.1).marked a h.pkt
    s1.modDie n.1 (fun y =>
      let z : Die := { y with fab := { y.fab with held := y.fab.held ++
        [{ h with pkt := { h.pkt with mark := h.pkt.mark || m }, from_ := a, route := some n.2 }] } }
      let z1 := if sh then z.bumpBoth evShared 1 else z
      if m then z1.bumpBoth evMarked 1 else z1)

/-- The exit of a routed packet is gone: its pair or port is absent or treated so, or its exit die is no longer ACTIVE (R289). -/
def State.exitGone (s : State) (r : Route) : Bool :=
  ! s.meshSite r.site || (r.exit ≠ 8 && (! (s.port r.exit).faces || match pairOn r.site r.exit with
    | some p => ! (s.pair r.site p).serves
    | none => true))

/-- The packets that may leave site `d` over the mesh toward site `n`, each the first of its queue (R293). -/
def State.meshEligible (s : State) (d n : Nat) : List (Nat × Held) :=
  let x := s.die d
  (x.fab.held.zipIdx.filter (fun h => x.headsQueue h.2 h.1 && (match h.1.route with
    | some r => (r.next d).1 = n && s.canHop d h.1 r
    | none => false))).map (fun h => (h.2, h.1))

/-- PACKET_FORWARD: the oldest packet without a route gets one, or one whose exit is gone returns to the choice of its exit. What comes from other modules is not forwarded before transit is
enabled (R442), and a die that carries no packets forwards none (R48, R436). Else the die-to-die link that the oldest packet able to move takes serves the packet that the arbitration of R293 picks. -/
def execPacketForward (d : Nat) (s : State) : Host.Outcome State Fault Refusal :=
  .next (let x := s.die d
    let held := x.fab.held.zipIdx
    if ! s.carries d then s
    else match held.find? (fun h => match h.1.route with
        | none => s.transit || h.1.from_ = .inject
        | some r => s.exitGone r) with
    | some (h, i) => s.decideRoute d i { h with route := none }
    | none =>
      match held.find? (fun h => x.headsQueue h.2 h.1 && (match h.1.route with
          | some r => s.canHop d h.1 r
          | none => false)) with
      | none => s
      | some (g, _) =>
        let n := ((g.route.getD {}).next d).1
        let link := 16 + sideOf n d
        let el := s.meshEligible d n
        let a := x.fab.arb.getD link (0, x.fab.weight 0)
        match arbClass x.fab.weight (fun c => el.any (fun h => h.2.pkt.cls = c)) 5 a.1 a.2 with
        | none => s
        | some (c, left) =>
          match pickWithin (fun h => h.pkt.phase) (x.fab.exitRr.getD (100 + 4 * link + c) 0) (el.filter (fun h => h.2.pkt.cls = c)) with
          | none => s
          | some (i, h) =>
            (s.modDie d (fun x => { x with fab := { x.fab with
              arb := x.fab.arb.put link (c, left), exitRr := x.fab.exitRr.put (100 + 4 * link + c) h.from_.number } })).meshHop d i h
              (h.route.getD {}))

/-! ### Ejection (R276) -/

/-- PACKET_EJECT: the oldest packet that leaves the fabric at this die is checked and delivered, or dropped and
counted. A die that carries no packets accepts none (R48, R436). -/
def execPacketEject (d : Nat) (s : State) : Host.Outcome State Fault Refusal :=
  .next (let x := s.die d
    match x.fab.held.zipIdx.find? (fun h => match h.1.route with
        | some r => r.exit = 8 && r.site = d && s.carries d
        | none => false) with
    | none => s
    | some (h, i) =>
      let y := x.unhold i h.from_
      match x.ejectCheck h.pkt s.turn with
      | 0 => (s.setDie d { y with rem := { y.rem with rx := y.rem.rx ++ [h.pkt] } }).traceFab d 1 h.port h.pkt.cls h.pkt.word0 h.pkt.trans
      | n => s.setDie d (y.countDrop n))

/-! ### BOUNCE and exclusions (R285) -/

/-- BOUNCE: the matching gateway entry, or the intermediate group, is excluded for 65,536 turns and reported once. -/
def execBounce (d : Nat) (s : State) : Host.Outcome State Fault Refusal :=
  .next (let x := s.die d
    match x.rem.rx.find? (fun q => q.owner = 0) with
    | none => s
    | some q =>
      let y : Die := { x with rem := { x.rem with rx := removeFirst (fun q => q.owner = 0) x.rem.rx } }
      let coord := leAt q.trans 2 2 % 2 ^ 14
      let group := byteAt q.trans 4
      let gport := byteAt q.trans 5 % 2
      if byteAt q.trans 1 ≠ 1 then s.setDie d { y with fab := { y.fab with foreign := satAdd 16 y.fab.foreign 1 } }
      else if cGroup coord = cGroup y.fab.coord then
        let w := y.fab.gw.getD group 0
        match ([0, 1, 2, 3] : List Nat).find? (fun e => bitAt (gwEntry w e) 15 && gwCoord (cGroup coord) (gwEntry w e) = coord &&
            gwEntry w e % 2 = gport && (y.fab.gwExcluded.find (4 * group + e)).isNone) with
        | none => s.setDie d y
        | some e => (s.setDie d { y with fab := { y.fab with gwExcluded := y.fab.gwExcluded.put (4 * group + e) 65536 } }).notice
            Code.fabGatewayExcluded (dieSubject y.standsFor) 0 0 0
      else if (y.fab.viaExcluded.find (cGroup coord)).isSome then s.setDie d y
      else (s.setDie d { y with fab := { y.fab with viaExcluded := y.fab.viaExcluded.put (cGroup coord) 65536 } }).notice
        Code.fabGatewayExcluded (dieSubject y.standsFor) 0 0 0)

/-- GATEWAY_EXCLUSION_EXPIRY: entries of group `g`, and the group as an intermediate, whose 65,536 turns are over. -/
def execGatewayExclusionExpiry (d g : Nat) (s : State) : Host.Outcome State Fault Refusal :=
  .next (s.modDie d (fun x => { x with fab := { x.fab with
    gwExcluded := x.fab.gwExcluded.filter (fun e => ! (e.1 / 4 = g && e.2 = 0))
    viaExcluded := x.fab.viaExcluded.filter (fun e => ! (e.1 = g && e.2 = 0)) } }))

/-- One turn passes for the exclusions of a die and for the count of its new packets (R285, R297). -/
def Fabric.ageExclusions (f : Fabric) : Fabric :=
  { f with gwExcluded := f.gwExcluded.mapVal (fun _ n => n - 1), viaExcluded := f.viaExcluded.mapVal (fun _ n => n - 1)
           handed := 0 }

/-! ### Rank tables and the injection limit -/

/-- A rank table comes into force in a die (R273, R274). -/
def Die.putRanks (x : Die) (t : RankTable) : Die :=
  { x with fab := { x.fab with selfValid := true, job := t.job, rank := t.rank, epoch := t.epoch, ranks := t.table } }

/-- RANK_TABLE_SWITCH: at the tick of its turn an accepted table replaces the previous one in every ACTIVE die. -/
def execRankTableSwitch (s : State) : Host.Outcome State Fault Refusal :=
  .next (let f := s.panel.fabric
    match f.pendingTables.find? (fun t => turnCome t.turn s.turn) with
    | none => s
    | some t =>
      if s.panel.job.isNone then
        { s with panel := { s.panel with fabric := { f with pendingTables := [] } } }
      else
        ({ s with panel := { s.panel with fabric := { f with pendingTables := f.pendingTables.filter (fun q => q ≠ t), inForce := some t } } }).onActive
          (fun x => x.putRanks t))

/-- Depth of the REQ injection queue (R297). -/
def Die.injectDepth (x : Die) : Nat := (x.fab.held.filter (fun h => h.from_ = .inject && h.pkt.cls = clsReq)).length

/-- RATE_STEP: the limit engages at 8 with FAB_THROTTLED and halves while the queue stays above T2_HI; once the queue has
fallen below T2_LO it doubles until it reaches 16 (R297). -/
def execRateStep (d : Nat) (s : State) : Host.Outcome State Fault Refusal :=
  .next (let x := s.die d
    let n := x.injectDepth
    let r := x.fab.rate
    if x.fab.t2Hi < n then
      let s1 := s.setDie d { x with fab := { x.fab with rate := if r = 16 then 8 else max 1 (r / 2), relaxing := false } }
      if r = 16 then s1.notice Code.fabThrottled (dieSubject x.standsFor) 0 0 0 else s1
    else if r < 16 && (x.fab.relaxing || decide (n < x.fab.t2Lo)) then
      s.setDie d { x with fab := { x.fab with rate := min 16 (2 * r), relaxing := decide (2 * r < 16) } }
    else s)

end Sys2Proof.Machine
end

