-- ==== Sys2Proof/Machine/Remote.lean ====
section
/-! DEFINITION. Commands of remote access (chapter 10): address registers, the issue of remote commands, what a target
makes of a request, what a source makes of a response, timers and sessions. -/
namespace Sys2Proof.Machine

/-! ### Words of UNIT 0x5 (R302 to R305) -/

/-- RADDR[RA] of a word. -/
def Die.raOf (x : Die) (c : Nat) (w : W64) : Nat := (x.seq c).raddr.getD (wField w 45 42) 0
def Die.setRa (x : Die) (c : Nat) (w : W64) (v : Nat) : Die :=
  x.modSeq c (fun q => { q with raddr := q.raddr.put (wField w 45 42) v })

/-- A word with a reserved field or a TICKET (R302). -/
def badRemote (w : W64) (mask : Nat) : Bool := ! bodyOk w mask || wTicket w ≠ 0

/-- RA_LO: bits 31:0 of an address register; it completes at issue. -/
def execRaLo (d c t : Nat) (w : W64) (s : State) : Host.Outcome State Fault Refusal :=
  .next (s.issue d c t w 5 1 (fun s o => s.checked d o [(badRemote w (maskOf 45 42 + maskOf 31 0), Code.rmtDecode)]
    ((s.modDie d (fun x => x.setRa c w (x.raOf c w / 2 ^ 32 * 2 ^ 32 + wField w 31 0))).countTag d o)))

/-- RA_HI: bits 63:32 of an address register. -/
def execRaHi (d c t : Nat) (w : W64) (s : State) : Host.Outcome State Fault Refusal :=
  .next (s.issue d c t w 5 2 (fun s o => s.checked d o [(badRemote w (maskOf 45 42 + maskOf 31 0), Code.rmtDecode)]
    ((s.modDie d (fun x => x.setRa c w (wField w 31 0 * 2 ^ 32 + x.raOf c w % 2 ^ 32))).countTag d o)))

/-- RA_ADD: a signed addend on bits 39:0; a carry or borrow out of bit 39 is RMT_ADDR (R304). -/
def execRaAdd (d c t : Nat) (w : W64) (s : State) : Host.Outcome State Fault Refusal :=
  .next (s.issue d c t w 5 3 (fun s o =>
    let a := (s.die d).raOf c w
    let v := ((a % 2 ^ 40 : Nat) : Int) + signed 32 (wField w 31 0)
    s.checked d o [(badRemote w (maskOf 45 42 + maskOf 31 0), Code.rmtDecode),
        (decide (v < 0) || decide ((2 : Int) ^ 40 ≤ v), Code.rmtAddr)]
      ((s.modDie d (fun x => x.setRa c w (a / 2 ^ 40 * 2 ^ 40 + v.toNat))).countTag d o)))

/-- PAN of LOAD, STORE, ATOMIC and SEND as an address. -/
def panOf (w : W64) : Nat := pantryBase + 64 * wField w 41 21

/-- The address rules of R304 for a span of `n` target bytes and `m` pantry bytes. -/
def badTarget (a n pan m space : Nat) : Bool :=
  badGlobal a || gSpace a ≠ space || decide (2 ^ 40 < gOffset a + n) || spanPlace pan m ≠ some .pantry

/-- Hold the thread until its command's reply. -/
def State.holdThread (s : State) (d : Nat) (o : Origin) (w : Wait) : State :=
  s.modThread d o.core o.thread (fun th => { th with wait := w })

/-- LOAD (R305): one request; the thread waits until every byte is in the pantry. -/
def execLoad (d c t : Nat) (w : W64) (s : State) : Host.Outcome State Fault Refusal :=
  .next (s.issue d c t w 5 8 (fun s o =>
    let x := s.die d
    let a := x.raOf c w
    let n := wField w 20 9 + 1
    s.checked d o [(badRemote w (maskOf 45 9), Code.rmtDecode), (badTarget a n (panOf w) n 0, Code.rmtAddr),
        (! x.fab.rankOk (gRank a), Code.fabRankInvalid)]
      (let k := x.freshKey
       (s.setDie d (k.2.addReqs [{ cmd := k.1, owner := .thread o, kind := .load, rank := gRank a, die := gDie a
                                   addr := a % 2 ^ 44, src := panOf w, len := n }])).holdThread d o .reply)))

/-- STORE and flag stores (R305, R306, R319). -/
def execStore (d c t : Nat) (w : W64) (s : State) : Host.Outcome State Fault Refusal :=
  .next (s.issue d c t w 5 9 (fun s o =>
    let x := s.die d
    let a := x.raOf c w
    let n := wField w 20 9 + 1
    let flag := wBit w 8
    s.checked d o [(badRemote w (maskOf 45 8) || (flag && decide (216 < n)), Code.rmtDecode),
        (badTarget a n (panOf w) n 0, Code.rmtAddr), (! x.fab.rankOk (gRank a), Code.fabRankInvalid)]
      (let k := x.freshKey
       let cuts := if flag then [(0, n)] else packets220 n
       s.setDie d (k.2.addReqs (cuts.map (fun p =>
         { cmd := k.1, owner := .thread o, kind := .store, rank := gRank a, die := gDie a, addr := a % 2 ^ 44 + p.1
           src := panOf w + p.1, len := p.2, flag := flag }))))))

/-- ATOMIC (R322, R323): operands A and B are read at issue; the thread waits for the old value. -/
def execAtomic (d c t : Nat) (w : W64) (s : State) : Host.Outcome State Fault Refusal :=
  .next (s.issue d c t w 5 0xA (fun s o =>
    let x := s.die d
    let a := x.raOf c w
    let wide := wBit w 16
    let n := if wide then 8 else 4
    s.checked d o [(badRemote w (maskOf 45 16) || decide (8 ≤ wField w 20 17), Code.rmtDecode),
        (badTarget a n (panOf w) 32 0, Code.rmtAddr), (gOffset a % n ≠ 0, Code.rmtAlign),
        (! x.fab.rankOk (gRank a), Code.fabRankInvalid)]
      (let r := s.panLoad d o (panOf w) 16
       let y := r.1.die d
       let k := y.freshKey
       let z := k.2.addReqs [{ cmd := k.1, owner := .thread o, kind := .atomic, rank := gRank a, die := gDie a, addr := a % 2 ^ 44
                               src := panOf w, len := n, aop := wField w 20 17, wide := wide, opid := y.rem.opid, fixed := some r.2 }]
       (r.1.setDie d { z with rem := { z.rem with opid := (y.rem.opid + 1) % 2 ^ 32 } }).holdThread d o .reply)))

/-- A queue that SPACE 0x1 can name (R215). -/
def queueNamed (off : Nat) : Bool := decide (off < 1024) && decide (4 ≤ off) && ! (decide (36 ≤ off) && decide (off < 64))

/-- Cut a message into parts of 216 bytes: (part, offset, length). -/
def parts216 (n : Nat) : List (Nat × Nat × Nat) :=
  (List.range ((n + 215) / 216)).map (fun k => (k, 216 * k, min 216 (n - 216 * k)))

/-- A SEND to a queue of the own die: the item is admitted and its cells are written (R216, R217). -/
def State.sendLocal (s : State) (d : Nat) (o : Origin) (off pan n : Nat) : State :=
  let x := s.die d
  let k := x.freshKey
  let v := s.fresh
  if ! queueNamed off then s.raise d o Code.qplNoQueue
  else
    let adm := k.2.admission off ((n + 63) / 64) (2 ^ 32 + k.1, 0) v.1
    let s1 := v.2.setDie d adm.1
    match adm.2 with
    | .noQueue => s1.raise d o Code.qplNoQueue
    | .itemSize => s1.raise d o Code.qplItemSize
    | .full => s1
    | .admitted =>
      let r := s1.panLoad d o pan n
      (r.1.modDie d (fun y => y.setQueue off (((y.queue off).fillPart (2 ^ 32 + k.1, 0) (fun _ => r.2)).partWritten
        (2 ^ 32 + k.1, 0)))).countTag d o

/-- SEND (R324). To a full queue of the own die the thread keeps waiting, and the refusal counts (R217). -/
def execSend (d c t : Nat) (w : W64) (s : State) : Host.Outcome State Fault Refusal :=
  .next (if (s.die d).sendRefused c t w then s.modDie d (fun x => x.countRefused c w)
    else s.issue d c t w 5 0xB (fun s o =>
    let x := s.die d
    let a := x.raOf c w
    let n := wField w 20 9 + 1
    s.checked d o [(badRemote w (maskOf 45 9), Code.rmtDecode), (badTarget a 0 (panOf w) n 1, Code.rmtAddr),
        (! x.fab.rankOk (gRank a), Code.fabRankInvalid)]
      (if x.servedLocally a then s.sendLocal d o (gOffset a) (panOf w) n
       else
         let k := x.freshKey
         s.setDie d (k.2.addReqs ((parts216 n).map (fun p =>
           { cmd := k.1, owner := .thread o, kind := .send, rank := gRank a, die := gDie a, addr := a % 2 ^ 44
             src := panOf w + p.2.1, len := p.2.2, part := p.1, msgLen := n }))))))

/-- TAKE (R325). It completes at once when an item waits. -/
def execTake (d c t : Nat) (w : W64) (s : State) : Host.Outcome State Fault Refusal :=
  .next (s.issue d c t w 5 0xC (fun s o =>
    let q := wField w 45 36
    let n := wField w 14 8 + 1
    s.checked d o [(badRemote w (maskOf 45 8), Code.rmtDecode),
        (spanPlace (pantryBase + 64 * wField w 35 15) (64 * n) ≠ some .pantry, Code.rmtAddr),
        (! (queueNamed q && s.plansQueue d c q), Code.qplNoQueue)]
      ((s.holdThread d o (.take q (wField w 35 15) n o.tag o.word)).serveTake d q)))

/-- A STORE, SEND or ATOMIC of the core is outstanding to the target, or to any, one of an earlier run included (R321). -/
def Die.fenceHeld (x : Die) (c rank die : Nat) (all : Bool) : Bool :=
  x.rem.reqs.any (fun r => (match r.owner with
    | .thread o => o.core % 2 = c
    | .ladle _ _ _ => false) && (r.kind = .store || r.kind = .send || r.kind = .atomic) && (all || (r.rank = rank && r.die = die)))

/-- FENCE (R321): with nothing outstanding it completes at issue. -/
def execFence (d c t : Nat) (w : W64) (s : State) : Host.Outcome State Fault Refusal :=
  .next (s.issue d c t w 5 0x10 (fun s o =>
    let x := s.die d
    let a := x.raOf c w
    let all := wBit w 41
    s.checked d o [(badRemote w (maskOf 45 41), Code.rmtDecode), (! all && badGlobal a, Code.rmtAddr)]
      (if x.fenceHeld c (gRank a) (gDie a) all then s.holdThread d o (.fence (gRank a) (gDie a) all o.tag) else s.countTag d o)))

/-- FENCE_COMPLETE: the last covered acknowledgement of a waiting fence has arrived. -/
def execFenceComplete (d c t : Nat) (s : State) : Host.Outcome State Fault Refusal :=
  .next (let x := s.die d
    match ((x.seq c).thread t).wait with
    | .fence rank die all own =>
      if x.fenceHeld c rank die all then s
      else
        let o : Origin := { core := c, thread := t, off := (x.seq c).off, tag := own }
        ((s.modThread d c t (fun th => { th with wait := .ready })).countTag d o).runOff d c t
    | _ => s)

/-! ### The target -/

/-- The span that a request names: SPACE and OFFSET as an address; another SPACE than MEM lies outside the map. -/
def targetOf (q : Packet) : Nat := q.addr % 2 ^ 44

/-- DATA packets that answer `q` with these bytes (R308). -/
def Die.serveData (x : Die) (q : Packet) (bs : Bytes) (turn : Nat) : Die :=
  (packets220 bs.length).foldl (fun x p => x.respond q 9 p.1 (sliceAt bs p.1 p.2) turn) x

/-- Read `n` bytes for a remote request (R316): the bytes, or the status. The next request has its own reads (R193). -/
def Die.fabRead (x : Die) (a n : Nat) : Die × (Bytes ⊕ Nat) :=
  if placeOf a = .pantry then ({ x with mem := (x.mem.panScan a n).1 }, .inl (x.mem.cells.readN a n))
  else (x.forget .fabric a n, match (x.mem.verifiedRead .fabric a n).fault Code.rmtRegion with
    | .inl bs => .inl bs
    | .inr e => .inr e.2)

/-- The number of the request counts as applied with this status (R312, R315). -/
def Die.markApplied (x : Die) (q : Packet) (status : Nat) (store : Bool) : Die :=
  x.setTgt q.srcKey ((x.tgt q.srcKey).mark q.seq status store)

/-- The bytes of a LOAD or BLOCK_READ, or the status that refuses it. -/
def Die.loadBytes (x : Die) (q : Packet) : Die × (Bytes ⊕ Nat) :=
  let n := leAt q.payload 0 2 + 1
  match x.mem.targetCheck (targetOf q) n false with
  | 0 => x.fabRead (targetOf q) n
  | code => (x, .inr code)

/-- The 4,108 bytes of a BLOCK_READ (R308): the block, its stored tag and the stamp of R190. A block of the pantry has no
tag, and a block of a GATHER region is verified by granules here; both go with the tag that fits their bytes. -/
def Die.blockBytes (x : Die) (q : Packet) : Die × (Bytes ⊕ Nat) :=
  let a := (targetOf q) / 4096 * 4096
  match x.mem.targetCheck a 4096 false with
  | 0 =>
    let fit := fun (bs : Bytes) => bs ++ leBytes 4 (crc32c bs) ++ List.replicate 8 (0 : Byte)
    let viaRead :=
      let r := x.fabRead a 4096
      (r.1, match r.2 with
        | .inl bs => Sum.inl (fit bs)
        | .inr c => .inr c)
    if placeOf a = .pantry then viaRead
    else match x.mem.regionOf a 4096 with
      | none => (x, .inr Code.rmtRegion)
      | some r =>
        if r.gather then viaRead
        else (x, .inl (x.mem.cells.readN a 4096 ++ x.mem.cells.readN (tagAddr a) 8 ++ leBytes 4 (stampOf r.tensor ((a - r.start) / 4096))))
  | code => (x, .inr code)

/-- Serve a read request with `f` (R312): a first application is marked; a repeat is served again from current memory, or
gets the code it was refused with. -/
def State.serveRead (s : State) (d kind : Nat) (f : Die → Packet → Die × (Bytes ⊕ Nat)) : State :=
  match (s.die d).takeRx 5 [kind] with
  | none => s
  | some (q, x) =>
    let tk := x.take q s.turn
    let answer := fun (first : Bool) =>
      let r := f tk.1 q
      match r.2 with
      | .inl bs => (if first then r.1.markApplied q 0 false else r.1).serveData q bs s.turn
      | .inr code => (if first then r.1.markApplied q code false else r.1).ackTo q code s.turn
    match tk.2 with
    | .gone => s.setDie d tk.1
    | .again =>
      let st := (tk.1.tgt q.srcKey).statusOf q.seq
      s.setDie d (if st = Code.rmtAddr || st = Code.rmtRegion then tk.1.ackTo q st s.turn else answer false)
    | .fresh => s.setDie d (answer true)

/-- LOAD_PACKET: a target receives a LOAD (R312, R315, R316). -/
def execLoadPacket (d : Nat) (s : State) : Host.Outcome State Fault Refusal := .next (s.serveRead d 1 Die.loadBytes)

/-- BLOCK_READ: a target returns a whole block with tag and stamp, unverified (R316). -/
def execBlockRead (d : Nat) (s : State) : Host.Outcome State Fault Refusal := .next (s.serveRead d 5 Die.blockBytes)

/-- Data of a STORE packet. -/
def storeData (q : Packet) : Bytes := if q.flag then q.payload.drop 4 else q.payload

/-- Apply a STORE (R318): a pantry write at once; a write to HBM or the larder goes to the kiln and counts as applied when
its last tag is written. -/
def Die.applyStore (x : Die) (q : Packet) (turn : Nat) : Die :=
  let bs := (storeData q)
  match x.mem.targetCheck (targetOf q) bs.length true with
  | 0 =>
    if placeOf (targetOf q) = .pantry then ((x.panStore (targetOf q) bs).markApplied q 0 true).ackTo q 0 turn
    else
      let ws := blocksOf (targetOf q) bs
      let m := ws.foldl (fun m b => m.kilnPush { owner := .remote q.srcKey q.seq, block := b.1, pieces := b.2 }) x.mem
      let t := x.tgt q.srcKey
      let y := x.setTgt q.srcKey { t with progress := insertNat q.seq t.progress }
      { y with mem := m, rem := { y.rem with pendingStores := y.rem.pendingStores ++
          [{ session := q.srcKey, pkt := q, left := ws.length }] } }
  | code => (x.markApplied q code true).ackTo q code turn

/-- COUNT of a flag store, and whether STORES_APPLIED has reached it (R312, R319). -/
def flagCount (q : Packet) : Nat := leAt q.payload 0 4
def TgtSession.due (t : TgtSession) (q : Packet) : Bool := decide ((t.storesApplied + 2 ^ 32 - (flagCount q)) % 2 ^ 32 < 2 ^ 31)

/-- The held flag store to apply next: the one that is due whose COUNT lies lowest. -/
def TgtSession.nextDue (t : TgtSession) : Option Packet :=
  (t.flags.filter t.due).foldl (fun (b : Option Packet) q => match b with
    | none => some q
    | some r => if (t.storesApplied + 2 ^ 32 - (flagCount r)) % 2 ^ 32 < (t.storesApplied + 2 ^ 32 - (flagCount q)) % 2 ^ 32 then some q
                else some r) none

/-- Apply every held flag store that is now due, in ascending COUNT; at most `k`. -/
def Die.drainFlags (key turn : Nat) : Nat → Die → Die
  | 0, x => x
  | k + 1, x => match (x.tgt key).nextDue with
    | none => x
    | some q =>
      let t := x.tgt key
      Die.drainFlags key turn k ((x.setTgt key { t with flags := removeFirst (fun p => p = q) t.flags }).applyStore q turn)

/-- STORE_PACKET: a target applies a STORE once; a flag store waits for its COUNT (R312, R319). -/
def execStorePacket (d : Nat) (s : State) : Host.Outcome State Fault Refusal :=
  .next (match (s.die d).takeRx 5 [2] with
    | none => s
    | some (q, x) =>
      let tk := x.take q s.turn
      let y := tk.1
      let t := y.tgt q.srcKey
      match tk.2 with
      | .gone => s.setDie d y
      | .again => s.setDie d (y.ackTo q (t.statusOf q.seq) s.turn)
      | .fresh =>
        if q.flag && ! t.due q then
          let z := if t.flags.length < 16 then y.setTgt q.srcKey { t with flags := t.flags ++ [q] } else y
          s.setDie d (z.busyTo q 2 s.turn)
        else s.setDie d (Die.drainFlags q.srcKey s.turn 17 (y.applyStore q s.turn)))

/-- One of a remote STORE's writes has ended at the kiln with this status (R316, R318). -/
def Die.storeLanded (x : Die) (session seq status turn : Nat) : Die :=
  match x.rem.pendingStores.find? (fun p => p.session = session && p.pkt.seq = seq) with
  | none => x
  | some p =>
    let st := if p.status ≠ 0 then p.status else status
    if 1 < p.left then
      { x with rem := { x.rem with pendingStores := x.rem.pendingStores.map (fun g =>
          if g.session = session && g.pkt.seq = seq then { g with left := g.left - 1, status := st } else g) } }
    else
      let y : Die := { x with rem := { x.rem with pendingStores := removeFirst (fun g => g.session = session && g.pkt.seq = seq) x.rem.pendingStores } }
      if (y.rem.tgt.find session).isNone then y
      else Die.drainFlags session turn 16 ((y.markApplied p.pkt st true).ackTo p.pkt st turn)

/-- New value of an atomic of `n` bytes (R322). -/
def atomicValue (aop old a b : Nat) (n : Nat) : Nat :=
  let m := 2 ^ (8 * n)
  match aop with
  | 0 => (old + a) % m
  | 1 => a
  | 2 => if old = b then a else old
  | 3 => old &&& a
  | 4 => old ||| a
  | 5 => old ^^^ a
  | 6 => max old a
  | _ => min old a

/-- Apply an atomic (R322): the old value and the status, and the die afterwards. -/
def Die.applyAtomic (x : Die) (q : Packet) : Die × Nat × Nat :=
  let wide := bitAt (byteAt q.payload 0) 4
  let n := if wide then 8 else 4
  let a := (targetOf q)
  match x.mem.targetCheck a n true with
  | 0 =>
    let r := x.fabRead a n
    match r.2 with
    | .inr code => (r.1, 0, code)
    | .inl bs =>
      let old := leNat n bs
      let new := leBytes n (atomicValue (byteAt q.payload 0 % 16) old (leAt q.payload 8 n) (leAt q.payload 16 n) n)
      if placeOf a = .pantry then (r.1.panStore a new, old, 0)
      else
        let w := r.1.mem.kilnApply (a / 4096 * 4096) [(a % 4096, new)]
        let y : Die := ({ r.1 with mem := w.1 } : Die).forget .kiln a n
        if w.2 = .written then (y.landed a n, old, 0) else (y, 0, w.2.code Code.rmtRegion Code.rmtFrozen)
  | code => (x, 0, code)

/-- The replay window can take one more OPID: an entry is replaced once it is 320 µs old, which 33 turns
guarantee (R323). -/
def TgtSession.replayRoom (t : TgtSession) (turn : Nat) : Bool :=
  decide (t.replay.length < 64) || (match t.replay.head? with
    | some e => decide (33 ≤ turnsSince e.2.1 turn)
    | none => true)

/-- ATOMIC_PACKET (R312, R322, R323). It waits while the kiln still holds writes to its block. -/
def execAtomicPacket (d : Nat) (s : State) : Host.Outcome State Fault Refusal :=
  .next (match (s.die d).takeRx 5 [3] with
    | none => s
    | some (q, x) =>
      let n := if bitAt (byteAt q.payload 0) 4 then 8 else 4
      if x.mem.pendingTouches (targetOf q) n then s
      else
        let tk := x.take q s.turn
        let y := tk.1
        let t := y.tgt q.srcKey
        let opid := leAt q.payload 4 4
        match tk.2 with
        | .gone => s.setDie d y
        | .again => s.setDie d (match t.replay.find? (fun e => e.1 = opid) with
            | some e => y.respond q 10 0 e.2.2 s.turn
            | none => y.ackTo q Code.replayExpired s.turn)
        | .fresh =>
          if ! t.replayRoom s.turn then s.setDie d (y.busyTo q 4 s.turn)
          else
            let r := y.applyAtomic q
            let result := leBytes 8 r.2.1 ++ leBytes 2 r.2.2
            let t1 := (r.1.tgt q.srcKey).mark q.seq r.2.2 false
            let old := if 64 ≤ t1.replay.length then t1.replay.drop 1 else t1.replay
            s.setDie d ((r.1.setTgt q.srcKey { t1 with replay := old ++ [(opid, s.turn, result)] }).respond q 10 0 result s.turn))

/-- Write a part's bytes into the cells of an item of `len` bytes (R324); the last part to come completes it. -/
def Die.writePart (x : Die) (queue : Nat) (key : Nat × Nat) (len part : Nat) (bs : Bytes) (last : Bool) : Die :=
  let q := (x.queue queue).fillPart key (fun old => patch (sliceAt old 0 ((len + 63) / 64 * 64)) [(216 * part, bs)])
  x.setQueue queue (if last then q.partWritten key else q)

/-- Apply part `part` of an open message (R324): its bytes are written, or discarded after a flush; the item completes
with its last part. -/
def Die.applyPart (x : Die) (q : Packet) (m : OpenMsg) (part turn : Nat) : Die :=
  let parts := insertNat part m.parts
  let last := decide ((m.len + 215) / 216 ≤ parts.length)
  let y := if m.discarded then x
    else x.writePart m.queue (q.srcKey, m.seq0) m.len part ((q.payload.drop 4).take (m.len - 216 * part)) last
  let t := y.tgt q.srcKey
  let msgs := if last then t.msgs.filter (fun e => e.seq0 ≠ m.seq0)
    else t.msgs.map (fun e => if e.seq0 = m.seq0 then { e with parts := parts } else e)
  ((y.setTgt q.srcKey { t with msgs := msgs }).markApplied q 0 false).ackTo q 0 turn

/-- SEND_PACKET: the first part to arrive asks for the item's cells; each part is applied once (R324). -/
def execSendPacket (d : Nat) (s : State) : Host.Outcome State Fault Refusal :=
  .next (match (s.die d).takeRx 5 [4] with
    | none => s
    | some (q, x) =>
      let tk := x.take q s.turn
      let y := tk.1
      let t := y.tgt q.srcKey
      let len := leAt q.payload 0 2 + 1
      let part := leAt q.payload 2 2
      let seq0 := (q.seq + 2 ^ 24 - part) % 2 ^ 24
      let off := (targetOf q) % 2 ^ 40
      let refuse := fun (z : Die) (code : Nat) => (z.markApplied q code false).ackTo q code s.turn
      match tk.2 with
      | .gone => s.setDie d y
      | .again => s.setDie d (y.ackTo q (t.statusOf q.seq) s.turn)
      | .fresh =>
        match t.msgs.find? (fun m => m.seq0 = seq0) with
        | some m => s.setDie d (y.applyPart q m part s.turn)
        | none =>
          if (targetOf q) / 2 ^ 40 ≠ 1 then s.setDie d (refuse y Code.rmtAddr)
          else if ! queueNamed off then s.setDie d (refuse y Code.qplNoQueue)
          else if 8 ≤ t.msgs.length then s.setDie d (y.busyTo q 3 s.turn)
          else
            let k := s.fresh
            let adm := y.admission off ((len + 63) / 64) (q.srcKey, seq0) k.1
            let z := adm.1
            match adm.2 with
            | .noQueue => s.setDie d (refuse z Code.qplNoQueue)
            | .itemSize => s.setDie d (refuse z Code.qplItemSize)
            | .full => s.setDie d (z.busyTo q 1 s.turn)
            | .admitted =>
              let m : OpenMsg := { seq0 := seq0, queue := off, len := len }
              k.2.setDie d ((z.setTgt q.srcKey { t with msgs := t.msgs ++ [m] }).applyPart q m part s.turn))

/-! ### The source -/

/-- The outstanding request that a response answers. -/
def Die.reqFor (x : Die) (q : Packet) : Option Req :=
  x.rem.reqs.find? (fun r => r.sent && r.key = q.srcKey && r.seq = q.seq)

def Die.dupResponse (x : Die) : Die := { x with rem := { x.rem with duplicates := satAdd 16 x.rem.duplicates 1 } }

/-- The response that completes a request moves the window and the echo history (R314), and acknowledges sequence 0. -/
def Die.completed (x : Die) (r : Req) (q : Packet) : Die :=
  let y := x.ackWindow r.key r.seq q.echo
  if r.seq ≠ 0 then y
  else { y with rem := { y.rem with src := y.rem.src.put r.key { y.rem.src.getD r.key {} with zeroAcked := true } } }

/-- A notice for the fabric manager about a request that stays outstanding (R313, R323, R328). TARGET_LOST names the destination
rank and die. -/
def State.requestNotice (s : State) (d : Nat) (r : Req) (code : Nat) : State :=
  let named := code = Code.targetLost
  (s.modDie d (fun x => x.remoteFault r.global code)).notice code noSubject (if named then r.rank else 0) (if named then r.die else 0) 0

/-- ACK: the outcome of a request (R313). -/
def execAck (d : Nat) (s : State) : Host.Outcome State Fault Refusal :=
  .next (match (s.die d).takeRx 5 [8] with
    | none => s
    | some (q, x) =>
      match x.reqFor q with
      | none => s.setDie d x.dupResponse
      | some r =>
        let code := leAt q.payload 0 2
        if r.answered || (code = 0 && ! (r.kind = .store || r.kind = .send)) then s.setDie d x.dupResponse
        else if code = Code.targetReset || code = Code.replayExpired then
          (s.setDie d (x.modReq r.id (fun r => { r with answered := true }))).requestNotice d r code
        else
          let s1 := s.setDie d (x.completed r q)
          if code ≠ 0 then s1.reqRefused d r code else s1.reqDone d r)

/-- The runs of a walk's pieces (source, destination, length), each cut at the blocks of its destination: consecutive pieces of
one block of HBM or the larder form one write; other pieces go by themselves (R201). -/
def runsOf : List (Nat × Nat × Nat) → List (List (Nat × Nat × Nat))
  | [] => []
  | p :: l =>
    match runsOf l with
    | (q :: qs) :: rs => if p.2.1 / 4096 = q.2.1 / 4096 then (p :: q :: qs) :: rs else [p] :: (q :: qs) :: rs
    | rs => [p] :: rs

/-- The runs of a copy from another die. -/
def copyRuns (b : Desc) (sd td : Side) : List (List (Nat × Nat × Nat)) :=
  let cut := (rowsOf b sd td).flatMap (fun r => cutRowAll r.1 r.2.1 r.2.2)
  if td.isGlobal || placeOf td.start.toNat = .pantry then cut.map (fun p => [p])
  else runsOf (cut.flatMap (fun p => (cutRowAll p.2.1 p.1 p.2.2).map (fun q => (q.2.1, q.1, q.2.2))))

/-- The bytes of a run of which every block has come. -/
def LdlActive.runBytes (a : LdlActive) (r : List (Nat × Nat × Nat)) : Option (List (Nat × Bytes)) :=
  if r.all (fun p => (a.blocks.find (p.1 / 4096 * 4096)).isSome) then
    some (r.map (fun p => (p.2.1, sliceAt (a.blocks.getD (p.1 / 4096 * 4096) []) (p.1 % 4096) p.2.2)))
  else none

/-- Runs of a copy from another die whose blocks have come, from place `i` of the walk on: those not yet handed over that
write no byte which an earlier run, still waiting for a block, writes (R201, R206). `held` are the spans of the latter. -/
def remoteReady (a : LdlActive) : Nat → List (Nat × Nat) → List (List (Nat × Nat × Nat)) → List (Nat × List (Nat × Bytes))
  | _, _, [] => []
  | i, held, r :: l =>
    let spans := r.map (fun p => (p.2.1, p.2.2))
    if a.handed.contains i then remoteReady a (i + 1) held l
    else match a.runBytes r with
      | none => remoteReady a (i + 1) (spans ++ held) l
      | some ps =>
        if held.any (fun h => spans.any (fun p => decide (h.1 < p.1 + p.2) && decide (p.1 < h.1 + h.2))) then
          remoteReady a (i + 1) (spans ++ held) l
        else (i, ps) :: remoteReady a (i + 1) held l

/-- A copy from another die hands over what the blocks that have come let it write; its walk ends with the last run. -/
def State.writeRemoteCopy (s : State) (d ch : Nat) (a : LdlActive) : State :=
  let x := s.die d
  let td := x.sideOf a.desc a.v false
  let runs := copyRuns a.desc (x.sideOf a.desc a.v true) td
  let ready := remoteReady a 0 [] runs
  let s1 := s.handPieces d ch a.key a.org td (ready.map Prod.snd) none
  let handed := a.handed ++ ready.map Prod.fst
  s1.modDie d (fun x => x.modChan ch (fun c => c.modActive a.key (fun b =>
    { b with handed := handed, walked := decide (runs.length ≤ handed.length) })))

/-- A whole remote block has come (R192, R193): a mismatch asks for it again, and the third one is GLAZE_FAULT. A
block that matches lets the copy write on, also while another one waits for its re-read (R206). -/
def State.blockCame (s : State) (d : Nat) (r : Req) (bs : Bytes) : State :=
  match r.owner with
  | .thread _ => s
  | .ladle ch key o =>
    let s0 := s.reqDone d r
    let block := bs.take 4096
    let good := (leBytes 4 (crc32c block) ++ (bs.drop 4104).take 4) == (bs.drop 4096).take 8
    let off := r.addr % 2 ^ 40
    match (((s0.die d).chan ch).active.find? (fun a => a.key = key)) with
    | none => s0
    | some a =>
      let note := fun (z : State) (n : Nat) => z.modDie d (fun x =>
        let y := x.bump o.core evReread 1
        if n = 0 then x else { y with ladle := { y.ladle with rereads := satAdd 32 y.ladle.rereads (if good then 1 else 0) } })
      let s1 := note s0 r.tries
      if a.stopped then s1
      else if good then
        let a1 := { a with blocks := a.blocks.put off block }
        (s1.modDie d (fun x => x.modChan ch (fun c => c.modActive key (fun _ => a1)))).writeRemoteCopy d ch a1
      else if r.tries < 2 then
        s1.modDie d (fun x => (x.addReqs [{ r with id := 0, sent := false, numbered := false, lost := false, got := [], tries := r.tries + 1 }]).modChan ch
          (fun c => c.modActive key (fun a => { a with requests := a.requests + 1 })))
      else s1.stopDesc d ch key o r.global Code.glazeFault

/-- DATA: bytes of a LOAD are written to the pantry once (R314); a block's bytes gather in its staging buffer. -/
def execData (d : Nat) (s : State) : Host.Outcome State Fault Refusal :=
  .next (match (s.die d).takeRx 5 [9] with
    | none => s
    | some (q, x) =>
      let off := q.addr % 4096
      match x.reqFor q with
      | none => s.setDie d x.dupResponse
      | some r =>
        if r.answered || ! (r.kind = .load || r.kind = .blockRead) || off % 220 ≠ 0 || decide (r.len ≤ off) ||
            q.payload.length ≠ min 220 (r.len - off) || r.got.any (fun g => g.1 = off) then s.setDie d x.dupResponse
        else
          let r1 := { r with got := r.got ++ [(off, if r.kind = .load then [] else q.payload)] }
          let y := x.modReq r.id (fun _ => r1)
          let z := if r.kind = .load then y.panStore (r.src + off) q.payload else y
          if r1.got.length < (r.len + 219) / 220 then s.setDie d z
          else
            let s1 := s.setDie d (z.completed r q)
            if r.kind = .load then s1.reqDone d r
            else s1.blockCame d r1 (patch (List.replicate r.len 0) r1.got))

/-- RESULT: an atomic's old value goes to its operand block (R322). -/
def execResult (d : Nat) (s : State) : Host.Outcome State Fault Refusal :=
  .next (match (s.die d).takeRx 5 [10] with
    | none => s
    | some (q, x) =>
      match x.reqFor q with
      | none => s.setDie d x.dupResponse
      | some r =>
        let code := leAt q.payload 8 2
        if r.answered || r.kind ≠ .atomic then s.setDie d x.dupResponse
        else
          let y := x.completed r q
          if code ≠ 0 then (s.setDie d y).reqRefused d r code
          else (s.setDie d (y.panStore (r.src + 16) (sliceAt q.payload 0 8))).reqDone d r)

/-- BUSY: the request's timers start afresh, a repeat that has not left yet waits for them, and it is no longer lost
(R313). A SEND refused as full whose course has stopped is given up (R217). -/
def execBusy (d : Nat) (s : State) : Host.Outcome State Fault Refusal :=
  .next (match (s.die d).takeRx 5 [11] with
    | none => s
    | some (q, x) =>
      match x.reqFor q with
      | none => s.setDie d x.dupResponse
      | some r => s.setDie d (({ x with fab := { x.fab with handoff := x.fab.handoff.filter (fun h => h ≠ .req r.id) } } : Die).modReq r.id
          (fun r =>
            let full := r.kind = .send && byteAt q.payload 0 = 1
            { r with lost := false, full := full, halted := r.halted || (full && (decide (2 ≤ r.org.core) || (x.seq r.org.core).stopped)) })))

/-! ### Timers and sessions -/

/-- The 20 µs and 64 µs timers of a request run: it is outstanding, not lost or given up, unanswered, and the module is not
FENCED (R217, R329). -/
def Die.timerRuns (x : Die) (r : Req) : Bool := r.sent && ! r.lost && ! r.halted && ! r.answered && ! x.fab.fenced

/-- RETRANSMIT_TIMEOUT: 20 µs after its last injection the request is injected again (R313). -/
def execRetransmitTimeout (d req : Nat) (s : State) : Host.Outcome State Fault Refusal :=
  .next (let x := s.die d
    match x.rem.reqs.find? (fun r => r.id = req) with
    | none => s
    | some r =>
      if ! x.timerRuns r || x.fab.handoff.contains (.req req) then s
      else s.setDie d (({ x with
        fab := { x.fab with handoff := x.fab.handoff ++ [.req req] }
        rem := { x.rem with retx := satAdd 16 x.rem.retx 1 } } : Die).bump (r.org.core % 2) evRetx 1))

/-- TARGET_LOST: 64 µs without a response the request is lost; the notice goes once per destination and turn (R313). -/
def execTargetLost (d req : Nat) (s : State) : Host.Outcome State Fault Refusal :=
  .next (let x := s.die d
    match x.rem.reqs.find? (fun r => r.id = req) with
    | none => s
    | some r =>
      if ! x.timerRuns r then s
      else
        let y := x.modReq req (fun r => { r with lost := true })
        let z : Die := { y with
          fab := { y.fab with handoff := y.fab.handoff.filter (fun h => h ≠ .req req) }
          rem := { y.rem with lostThisTurn := insertNat r.key y.rem.lostThisTurn } }
        if x.rem.lostThisTurn.contains r.key then s.setDie d (z.remoteFault r.global Code.targetLost)
        else (s.setDie d z).requestNotice d r Code.targetLost)

/-- SOURCE_SESSION_RELEASE: a session idle for 140 turns with nothing outstanding is released (R309). -/
def execSourceSessionRelease (d key : Nat) (s : State) : Host.Outcome State Fault Refusal :=
  .next (let x := s.die d
    match x.rem.src.find key with
    | none => s
    | some e => if e.idle < 140 || x.rem.reqs.any (fun r => (r.sent || r.numbered) && r.key = key) then s
                else s.setDie d { x with rem := { x.rem with src := x.rem.src.del key } })

/-- TARGET_SESSION_EXPIRY: an entry without a request for 128 turns expires (R310). -/
def execTargetSessionExpiry (d key : Nat) (s : State) : Host.Outcome State Fault Refusal :=
  .next (let x := s.die d
    match x.rem.tgt.find key with
    | none => s
    | some e => if e.idle < 128 then s else s.setDie d { x with rem := { x.rem with tgt := x.rem.tgt.del key } })

/-- SESSION_QUIET_END: 140 turns after a reset the die sends and answers remote requests again (R328). -/
def execSessionQuietEnd (d : Nat) (s : State) : Host.Outcome State Fault Refusal :=
  .next (let x := s.die d
    if x.rem.quiet ≠ 1 then s else s.setDie d { x with rem := { x.rem with quiet := 0 } })

/-- One turn passes for the sessions of a die. -/
def Remote.ageTurn (r : Remote) : Remote :=
  { r with
    src := r.src.mapVal (fun _ e => { e with idle := e.idle + 1 })
    tgt := r.tgt.mapVal (fun _ e => { e with idle := e.idle + 1 })
    lostThisTurn := []
    quiet := if 1 < r.quiet then r.quiet - 1 else r.quiet }

end Sys2Proof.Machine
end

