-- ==== Sys2Proof/Machine/Sm3.lean ====
section
/-! DEFINITION. The SM3 digest of GB/T 32905 and HMAC-SM3, which the spec names without restating them (log 5). -/
namespace Sys2Proof.Machine.Sm3

def rotl (x k : Nat) : Nat := ((x <<< (k % 32)) ||| (x >>> (32 - k % 32))) % 2 ^ 32
def p0 (x : Nat) : Nat := x ^^^ rotl x 9 ^^^ rotl x 17
def p1 (x : Nat) : Nat := x ^^^ rotl x 15 ^^^ rotl x 23
def tConst (j : Nat) : Nat := if j < 16 then 0x79CC4519 else 0x7A879D8A
def ff (j x y z : Nat) : Nat := if j < 16 then x ^^^ y ^^^ z else (x &&& y) ||| (x &&& z) ||| (y &&& z)
def gg (j x y z : Nat) : Nat := if j < 16 then x ^^^ y ^^^ z else (x &&& y) ||| ((x ^^^ 0xFFFFFFFF) &&& z)

/-- A big-endian number of the first `n` bytes. -/
def beNat : Nat → Bytes → Nat → Nat
  | 0, _, a => a
  | _ + 1, [], a => a
  | n + 1, b :: bs, a => beNat n bs (256 * a + b.toNat)

def beBytes (n v : Nat) : Bytes := (leBytes n v).reverse

/-- The message expansion: `k` more words, newest first in `w`. -/
def expandGo : Nat → List Nat → List Nat
  | 0, w => w
  | k + 1, w =>
    let g := fun i => w.getD (i - 1) 0
    expandGo k ((p1 (g 16 ^^^ g 9 ^^^ rotl (g 3) 15) ^^^ rotl (g 13) 7 ^^^ g 6) :: w)

def expand (block : Bytes) : List Nat :=
  (expandGo 52 ((List.range 16).map (fun i => beNat 4 (block.drop (4 * i)) 0)).reverse).reverse

structure Regs where
  a : Nat
  b : Nat
  c : Nat
  d : Nat
  e : Nat
  f : Nat
  g : Nat
  h : Nat
  deriving DecidableEq, Repr

/-- One step of the compression function, `w` being the words from number `j` on. -/
def round (r : Regs) (j : Nat) (w : List Nat) : Regs :=
  let w0 := w.getD 0 0
  let w1 := w0 ^^^ w.getD 4 0
  let ss1 := rotl ((rotl r.a 12 + r.e + rotl (tConst j) j) % 2 ^ 32) 7
  let ss2 := ss1 ^^^ rotl r.a 12
  let tt1 := (ff j r.a r.b r.c + r.d + ss2 + w1) % 2 ^ 32
  let tt2 := (gg j r.e r.f r.g + r.h + ss1 + w0) % 2 ^ 32
  { a := tt1, b := r.a, c := rotl r.b 9, d := r.c, e := p0 tt2, f := r.e, g := rotl r.f 19, h := r.g }

def rounds : Nat → Nat → List Nat → Regs → Regs
  | 0, _, _, r => r
  | k + 1, j, w, r => rounds k (j + 1) (w.drop 1) (round r j w)

def compress (v : Regs) (block : Bytes) : Regs :=
  let r := rounds 64 0 (expand block) v
  { a := v.a ^^^ r.a, b := v.b ^^^ r.b, c := v.c ^^^ r.c, d := v.d ^^^ r.d
    e := v.e ^^^ r.e, f := v.f ^^^ r.f, g := v.g ^^^ r.g, h := v.h ^^^ r.h }

def iv : Regs := ⟨0x7380166F, 0x4914B2B9, 0x172442D7, 0xDA8A0600, 0xA96F30BC, 0x163138AA, 0xE38DEE4D, 0xB0FB0E4E⟩

def absorb : Nat → Bytes → Regs → Regs
  | 0, _, v => v
  | k + 1, bs, v => absorb k (bs.drop 64) (compress v (bs.take 64))

def pad (bs : Bytes) : Bytes :=
  bs ++ [0x80] ++ List.replicate ((119 - bs.length % 64) % 64) 0 ++ beBytes 8 (8 * bs.length)

/-- The 32-byte SM3 digest. -/
def digest (bs : Bytes) : Bytes :=
  let m := pad bs
  let r := absorb (m.length / 64) m iv
  [r.a, r.b, r.c, r.d, r.e, r.f, r.g, r.h].flatMap (beBytes 4)

/-- HMAC-SM3 with a key of at most 64 bytes. -/
def hmac (key msg : Bytes) : Bytes :=
  let k := sliceAt key 0 64
  digest (k.map (fun b => b ^^^ 0x5C) ++ digest (k.map (fun b => b ^^^ 0x36) ++ msg))

end Sys2Proof.Machine.Sm3
end

