-- ==== Sys2Proof/Machine/WhiskOps.lean ====
section
/-! DEFINITION. Shared operations of the whisk (chapter 11): bindings and slots, members and trees, the wire formats,
reliable control packets, causes of abort, and the work on chunks. -/
namespace Sys2Proof.Machine

/-! ### The resource plan of a menu (R219, R337) -/

def Menu.bindCount (m : Menu) : Nat := leAt m.pkg (m.section_ 2) 2
def Menu.slotCount (m : Menu) : Nat := leAt m.pkg (m.section_ 2 + 4) 4
def Menu.bindBytes (m : Menu) (i : Nat) : Bytes := sliceAt m.pkg (m.section_ 2 + 8 + 64 * i) 64
def Menu.slotBytes (m : Menu) (i : Nat) : Bytes := sliceAt m.pkg (m.section_ 2 + 8 + 64 * m.bindCount + 8 * i) 8

/-- A binding with its plan (R337). -/
def bindOf (b : Bytes) (plan : Bytes) : Bind :=
  { bucket := byteAt b 0, fire := bitAt (byteAt b 1) 0, planId := leAt b 2 2, size := leAt b 4 4, src := leAt b 8 8
    dst := leAt b 0x10 8, optW := leAt b 0x18 8, optM := leAt b 0x20 8, optV := leAt b 0x28 8, stage := leAt b 0x30 8
    tensor := leAt b 0x38 4, plan := plan }

/-- The bindings of a menu. -/
def Menu.binds (m : Menu) (plans : Tab Bytes) : List Bind :=
  (List.range m.bindCount).map (fun i => let b := m.bindBytes i; bindOf b (plans.getD (leAt b 2 2) []))

/-- Slots of a bucket as 4 · TURN_OFF + SLOT, rising. -/
def Menu.slotsOf (m : Menu) (bucket : Nat) : List Nat :=
  (List.range m.slotCount).foldl (fun l i =>
    let e := m.slotBytes i
    if byteAt e 5 = bucket then insertNat (4 * leAt e 0 4 + byteAt e 4 % 4) l else l) []

/-- Every slot that an entry names. -/
def Menu.slotsNamed (m : Menu) : List Nat :=
  (List.range m.slotCount).map (fun i => let e := m.slotBytes i; 4 * leAt e 0 4 + byteAt e 4 % 4)

/-- The scheduled slot of instance `k` (R340): its turn and its slot. -/
def Menu.scheduled (m : Menu) (bucket k : Nat) : Nat × Nat :=
  let l := m.slotsOf bucket
  let e := l.getD (k % l.length) 0
  (turnPlus m.s (m.roundLen * (k / l.length) + e / 4), e % 4)

/-- The slot to which a missed instance moves (R86): from turn `t` on, at most `k` turns. -/
def moveSearch (m : Menu) (named : List Nat) (held : List (Nat × Nat)) (any : Bool) : Nat → Nat → Option (Nat × Nat)
  | 0, _ => none
  | k + 1, t =>
    let off := turnsSince m.s t % m.roundLen
    match ([0, 1, 2, 3] : List Nat).find? (fun j => (any || ! named.contains (4 * off + j)) && ! held.contains (t, j)) with
    | some j => some (t, j)
    | none => moveSearch m named held any k (turnPlus t 1)

def Menu.moveSlot (m : Menu) (held : List (Nat × Nat)) (t : Nat) : Nat × Nat :=
  let named := m.slotsNamed
  let free := (List.range (4 * m.roundLen)).any (fun e => ! named.contains e)
  (moveSearch m named held (! free) ((m.roundLen + 1) * (held.length + 1)) (turnPlus t 2)).getD (turnPlus t 2, 0)

/-! ### Members (R345 to R347, R354) -/

/-- Where this member stands: the ranks and dies of the instance, its rank position and its die index. -/
structure Team where
  ranks : List Nat := []
  dies : List Nat := []
  r : Nat := 0
  i : Nat := 0
  ring : Bool := false
  deriving DecidableEq, Repr

def Bind.teamAt (b : Bind) (rank die : Nat) : Team :=
  let ranks := b.ranks
  let dies := if b.perDie then [die] else b.diesOf
  let wire := (if b.wireF32 then 4 else 1) * b.elems
  { ranks := ranks, dies := dies, r := (ranks.findIdx? (· = rank)).getD 0, i := (dies.findIdx? (· = die)).getD 0
    ring := b.algo = 2 || (b.algo = 0 && decide (b.switch ≤ wire)) }

namespace Team
def nr (t : Team) : Nat := t.ranks.length
def nd (t : Team) : Nat := t.dies.length
def members (t : Team) : Nat := t.nr * t.nd
def me (t : Team) : Nat := t.r * t.nd + t.i
/-- Rank and logical die of a member position. -/
def at_ (t : Team) (p : Nat) : Nat × Nat := (t.ranks.getD (p / t.nd) 0, t.dies.getD (p % t.nd) 0)
/-- Position of a rank and die, if they are a member. -/
def find (t : Team) (rank die : Nat) : Option Nat :=
  match t.ranks.findIdx? (· = rank), t.dies.findIdx? (· = die) with
  | some r, some i => some (r * t.nd + i)
  | _, _ => none
end Team

/-- Lowest set bit of a position of a pairwise tree: the level of its parent. -/
def treeLevel (q : Nat) : Nat := ((List.range 21).find? (fun k => q.testBit k)).getD 20

/-- Levels at which position `q` of a tree of `n` has a child, ascending in distance (R347). -/
def treeKids (n q : Nat) : List Nat :=
  (List.range 21).filter (fun k => q % 2 ^ (k + 1) = 0 && decide (q + 2 ^ k < n))

/-- Children and parent in the member tree (R348). -/
def Team.kids (t : Team) : List Nat := (treeKids t.members t.me).map (fun k => t.me + 2 ^ k)
def Team.parent (t : Team) : Option Nat := if t.me = 0 then none else some (t.me - 2 ^ treeLevel t.me)

/-- Header of a packet along the member tree: LEVEL is the distance exponent of the link to `peer`, which the higher of the two
positions names (R348, R355). -/
def Team.link (t : Team) (peer : Nat) : ChunkId := { level := treeLevel (max t.me peer) }

/-- Roots of chunk `c`: die index and rank position of its owner (R346). -/
def Team.owner (t : Team) (c : Nat) : Nat × Nat := if t.ring then (c % t.nd, c / t.nd % t.nr) else (0, 0)

/-- Place of this member in the die-stage tree of chunk `c`, and the die index at a place of it. -/
def Team.q (t : Team) (c : Nat) : Nat := (t.i + t.nd - (t.owner c).1) % t.nd
def Team.dieAt (t : Team) (c q : Nat) : Nat := ((t.owner c).1 + q) % t.nd

/-- The partial sums that this member receives of chunk `c`, in the order of additions (R347). -/
def Team.sumsIn (t : Team) (c : Nat) : List ChunkId :=
  let q := t.q c
  (treeKids t.nd q).map (fun k => { chunk := c, phase := 1, stage := 0, level := k, peer := t.r * t.nd + t.dieAt c (q + 2 ^ k) }) ++
  (if q ≠ 0 then [] else if t.ring then
     (if (t.r + 2 * t.nr - (t.owner c).2 - 1) % t.nr = 0 then []
      else [{ chunk := c, phase := 1, stage := 1, level := 0, peer := ((t.r + t.nr - 1) % t.nr) * t.nd + t.i }])
   else (treeKids t.nr t.r).map (fun k => { chunk := c, phase := 1, stage := 1, level := k, peer := (t.r + 2 ^ k) * t.nd + t.i }))

/-- Where its partial sum of chunk `c` goes; none at the owner. -/
def Team.sumOut (t : Team) (c : Nat) : Option ChunkId :=
  let q := t.q c
  if q ≠ 0 then
    let k := treeLevel q
    some { chunk := c, phase := 1, stage := 0, level := k, peer := t.r * t.nd + t.dieAt c (q - 2 ^ k) }
  else if t.ring then
    if (t.r + 2 * t.nr - (t.owner c).2 - 1) % t.nr = t.nr - 1 then none
    else some { chunk := c, phase := 1, stage := 1, level := 0, peer := ((t.r + 1) % t.nr) * t.nd + t.i }
  else if t.r = 0 then none
  else some { chunk := c, phase := 1, stage := 1, level := treeLevel t.r, peer := (t.r - 2 ^ treeLevel t.r) * t.nd + t.i }

/-- Where the output of chunk `c` comes from in the gather phase; none at the owner (R354). -/
def Team.outIn (t : Team) (c : Nat) : Option ChunkId :=
  let q := t.q c
  if q ≠ 0 then
    let k := treeLevel q
    some { chunk := c, phase := 2, stage := 0, level := k, peer := t.r * t.nd + t.dieAt c (q - 2 ^ k) }
  else if t.ring then
    if t.r = (t.owner c).2 then none
    else some { chunk := c, phase := 2, stage := 1, level := 0, peer := ((t.r + t.nr - 1) % t.nr) * t.nd + t.i }
  else if t.r = 0 then none
  else some { chunk := c, phase := 2, stage := 1, level := treeLevel t.r, peer := (t.r - 2 ^ treeLevel t.r) * t.nd + t.i }

/-- Where this member passes the output of chunk `c` on to. -/
def Team.outsTo (t : Team) (c : Nat) : List ChunkId :=
  let q := t.q c
  (if q ≠ 0 then [] else if t.ring then
     (if (t.r + t.nr - (t.owner c).2) % t.nr = t.nr - 1 then []
      else [{ chunk := c, phase := 2, stage := 1, level := 0, peer := ((t.r + 1) % t.nr) * t.nd + t.i }])
   else (treeKids t.nr t.r).map (fun k => { chunk := c, phase := 2, stage := 1, level := k, peer := (t.r + 2 ^ k) * t.nd + t.i })) ++
  (treeKids t.nd q).map (fun k => { chunk := c, phase := 2, stage := 0, level := k, peer := t.r * t.nd + t.dieAt c (q + 2 ^ k) })

/-- KIND has a reduction, and a gather phase (R353, R354). -/
def Bind.reduces (b : Bind) : Bool := b.kind ≠ 2
def Bind.gathers (b : Bind) : Bool := b.kind ≠ 1
/-- Two-phase UPDATE_GATHER has a point A (R361). -/
def Bind.hasA (b : Bind) : Bool := b.kind = 0 && ! b.eager

/-- Elements of chunk `c`, and its output bytes. -/
def Bind.countOf (b : Bind) (c : Nat) : Nat := min b.chunkElems (b.elems - c * b.chunkElems)
def Bind.outBytes (b : Bind) (c : Nat) : Nat := b.countOf c * b.outSize
def Bind.wireBytes (b : Bind) (c : Nat) : Nat := b.countOf c * (if b.wireF32 then 4 else 1)
/-- Bytes of chunk `c` in a phase, and the buffers that they occupy (R342). -/
def Bind.bytesOf (b : Bind) (phase c : Nat) : Nat := if phase = 1 then b.wireBytes c else b.outBytes c
def Bind.buffers (b : Bind) (phase c : Nat) : Nat := (b.bytesOf phase c + 32767) / 32768

/-- Shard slot of an owned chunk (R346). -/
def Team.shardSlot (t : Team) (c : Nat) : Nat := if t.ring then c / (t.nd * t.nr) else c

/-! ### The wire (R349) -/

/-- E_c of an agreed byte. -/
def Bind.wireExp (b : Bind) (a : Nat) : Int := max (-127) (min 127 ((a : Int) - 127 + b.headroom - 8))

/-- FP32 bits as the sender puts them on the wire, and whether the element saturated. -/
def wireOut (a : Nat) (e : Int) (v : Nat) : Nat × Bool :=
  if a = 0xFF then (0, false)
  else match (ofF32 v).scale (-e) with
    | .nan => (0x7F, false)
    | .inf n => ((if n then 0x80 else 0) + 0x7E, true)
    | .fin n m x =>
      if m = 0 then (0, false) else
      let c := fmtE4M3.roundMag m x none
      ((if n then 0x80 else 0) + min c 0x7E, decide (0x7E < c))

/-- A wire element as the receiver takes it, in FP32 bits. -/
def wireIn (a : Nat) (e : Int) (code : Nat) : Nat :=
  if a = 0xFF then fmtFP32.nan else toF32 ((fmtE4M3.decode code).scale e)

/-- A partial sum as chunk bytes, and how many of its elements saturated. -/
def Inst.toWire (i : Inst) (c : Nat) (vs : List Nat) : Bytes × Nat :=
  if i.bind.wireF32 then (packRow 10 vs, 0)
  else
    let a := i.agreed.getD c 0
    let ws := vs.map (wireOut a (i.bind.wireExp a))
    (packRow 0 (ws.map Prod.fst), (ws.filter Prod.snd).length)

def Inst.ofWire (i : Inst) (c : Nat) (bs : Bytes) : List Nat :=
  if i.bind.wireF32 then unpackRow 10 (i.bind.countOf c) bs
  else
    let a := i.agreed.getD c 0
    (unpackRow 0 (i.bind.countOf c) bs).map (wireIn a (i.bind.wireExp a))

/-- The chunk tag (R356). -/
def chunkTag (plan number c : Nat) (bs : Bytes) : Bytes :=
  leBytes 4 (crc32c bs) ++ leBytes 4 (((plan * 0x9E3779B1) % 2 ^ 32) ^^^ (number % 65536 * 2 ^ 16) ^^^ c)

/-! ### Packets of the whisk (R355) -/

def wskTrans (kind level plan number chunk index phase stage attempt turn : Nat) : Bytes :=
  leBytes 1 (4 + 16 * kind) ++ leBytes 1 level ++ leBytes 2 plan ++ leBytes 2 (number % 65536) ++ leBytes 2 chunk ++ leBytes 2 index ++
    leBytes 1 (phase % 4 + 4 * (stage % 2) + 8 * (attempt % 4)) ++ leBytes 1 turn

def wPlan (q : Packet) : Nat := leAt q.trans 2 2
def wInstance (q : Packet) : Nat := leAt q.trans 4 2
def wChunk (q : Packet) : Nat := leAt q.trans 6 2
def wIndex (q : Packet) : Nat := leAt q.trans 8 2
def wPhase (q : Packet) : Nat := byteAt q.trans 10 % 4
def wStage (q : Packet) : Nat := bits (byteAt q.trans 10) 2 2
def wAttempt (q : Packet) : Nat := bits (byteAt q.trans 10) 4 3
def wLevel (q : Packet) : Nat := byteAt q.trans 1
/-- The chunk that a chunk packet, CHUNK_ACK or RESEND names, as the receiver names it. -/
def wChunkId (q : Packet) (peer : Nat) : ChunkId :=
  { chunk := wChunk q, phase := wPhase q, stage := wStage q, level := wLevel q, peer := peer }

/-! ### Instances of a die -/

def State.inst (s : State) (d b : Nat) : Inst := (s.die d).inst b
def State.modInst (s : State) (d b : Nat) (f : Inst → Inst) : State := s.modDie d (fun x => x.setInst b (f (x.inst b)))
def Die.team (x : Die) (i : Inst) : Team := i.bind.teamAt x.fab.rank x.standsFor
def State.team (s : State) (d b : Nat) : Team := (s.die d).team (s.inst d b)

/-- An instance that has been opened and has neither completed nor aborted. -/
def Inst.live (i : Inst) : Bool := decide (1 ≤ i.state) && decide (i.state ≤ 7)

/-- It has been aborted, and its code is still to be raised (R363). -/
def Inst.abortDue (i : Inst) : Bool := i.state = 9 && ! i.abortRaised

/-- An aborted instance has something left to do: its code to raise, a write at a kiln, or, past RELEASE of point A, a chunk of its
shard to update (R363, R364). -/
def Inst.lingers (i : Inst) : Bool :=
  i.abortDue || (i.state = 9 && i.work.any (fun w => w.2.kiln ≠ 0 || (i.relA && i.bind.kind = 0 && w.2.final && ! w.2.outDone)))

/-- The key under which an aborted instance of bucket `b` goes on when the bucket is opened anew. -/
def Whisk.asideKey (w : Whisk) (b : Nat) : Nat :=
  (((List.range (w.insts.length + 1)).map (fun j => 64 * (j + 1) + b)).find? (fun k => (w.insts.find k).isNone)).getD b

/-- The last instance of bucket `b` makes room: if it lingers it goes on under another key, with its writes at the kilns and its
submissions to the vector units. -/
def Die.setAside (x : Die) (b : Nat) : Die :=
  let k := x.whisk.asideKey b
  let cmd := fun (v : VecCmd) => if v.bucket = some b then { v with bucket := some k } else v
  let req := fun (q : KilnReq) => match q.owner with
    | .whisk e c => if e = b then { q with owner := .whisk k c } else q
    | _ => q
  if ! (x.inst b).lingers then x
  else { x with
    whisk := { x.whisk with insts := (x.whisk.insts.del b).put k (x.inst b) }
    mem := { x.mem with hbmKiln := x.mem.hbmKiln.map req, larKiln := x.mem.larKiln.map req }
    vecs := x.vecs.mapVal (fun _ v => { v with running := v.running.map cmd, submitted := v.submitted.map cmd }) }

/-- Instances left behind that have nothing more to do go. -/
def Whisk.retire (w : Whisk) : Whisk := { w with insts := w.insts.filter (fun e => decide (e.1 < 64) || e.2.lingers) }

/-- The chunks that an instance still works on in ascending order. -/
def Inst.chunkList (i : Inst) : List Nat := List.range i.bind.chunks
def Inst.wk (i : Inst) (c : Nat) : ChunkWork := i.work.getD c {}
def Inst.modWk (i : Inst) (c : Nat) (f : ChunkWork → ChunkWork) : Inst := { i with work := i.work.put c (f (i.wk c)) }

/-- Hand a control packet to the fabric interface, numbered and kept until its CACK (R357). A rank without a valid entry
gets none. -/
def Die.ctlRaw (x : Die) (b peer kind phase : Nat) (id : ChunkId) (attempt : Nat) (payload : Bytes) (turn : Nat) : Die :=
  let i := x.inst b
  let goal := (x.team i).at_ peer
  if ! x.fab.rankOk goal.1 then x
  else
    let n := i.ctlNext.getD peer 0
    let tr := wskTrans kind id.level i.bind.planId i.number id.chunk n phase id.stage attempt turn
    let y := x.setInst b { i with ctlNext := i.ctlNext.put peer ((n + 1) % 65536)
                                  ctlSent := i.ctlSent ++ [{ peer := peer, index := n, trans := tr, payload := payload }] }
    { y with fab := { y.fab with handoff := y.fab.handoff ++ [.pkt goal.1 goal.2 clsCtl tr payload] } }

/-- PHASE reached per R364. -/
def Inst.phaseNow (i : Inst) : Nat :=
  if i.state ≤ 3 then 0 else if i.state ≤ 5 || ! i.bind.gathers then 1
  else if i.state = 6 && i.bind.hasA && ! i.work.any (fun w => w.2.outDone) then 2 else 3

/-- The grant of the whisk goes back when its last context has left its data phase (R378); the buffers of the context are free. An
instance without a context gives back only the grant that it asked for itself. -/
def State.leaveContext (s : State) (d b : Nat) : State :=
  let had := (s.inst d b).ctx
  let s1 := s.modInst d b (fun i => { i with ctx := false, rxRes := 0, holdRes := 0 })
  let x := s1.die d
  if x.whisk.insts.any (fun e => e.2.ctx) then s1
  else match x.leave.grants.find? (fun g => g.unit = 0) with
    | some g => if had || g.key = b then s1.releaseLeave d 0 g.key else s1
    | none => s1

/-- Send ABORT with a code to the tree neighbours, but not to the one it came from (R363). A rank without a valid entry gets none: the
course stops with FAB_RANK_INVALID, and the instance counts that code among those it has seen (R359). -/
def State.abortTell (s : State) (d b code : Nat) (except : Option Nat) : State :=
  let t := s.team d b
  let ns := (t.kids ++ t.parent.toList).filter (fun p => except ≠ some p)
  ns.foldl (fun s p =>
    if ! (s.die d).fab.rankOk (t.at_ p).1 then
      (s.raise d (s.inst d b).org Code.fabRankInvalid).modInst d b (fun i =>
        { i with codes := if i.codes.contains Code.fabRankInvalid then i.codes else i.codes ++ [Code.fabRankInvalid] })
    else s.modDie d (fun x => x.ctlRaw b p 9 3 (t.link p) 0 (leBytes 2 code ++ leBytes 1 (x.inst b).phase) s.turn)) s

/-- A cause of abort (R363). The first one ends the member's work on the instance; each distinct code is forwarded once.
A member that waits at point B takes an ABORT it receives, and no cause of its own (R353, R361). A request for leave that the
instance still waits with goes with it (R381). -/
def State.abortCause (s : State) (d b code : Nat) (from_ : Option Nat) : State :=
  let i := s.inst d b
  if i.state = 0 || i.state = 8 || (i.state = 7 && from_.isNone) then s
  else if i.state = 9 then
    if i.codes.contains code || from_.isNone then s
    else (s.modInst d b (fun i => { i with codes := i.codes ++ [code] })).abortTell d b code from_
  else
    let s1 := s.modInst d b (fun i => { i with
      phase := i.phaseNow, state := 9, codes := [code], abortTurn := some s.turn, timerRuns := false, hold := [], rx := [] })
    let s2 := s1.modDie d (fun x => { x with
      whisk := { x.whisk with aborts := satAdd 16 x.whisk.aborts 1 }
      leave := { x.leave with reqs := x.leave.reqs.filter (fun r => ! (r.unit = 0 && r.key = b)) } })
    (s2.leaveContext d b).abortTell d b code from_

/-- A send to a rank without a valid entry (R359): the course stops, and it is a cause of abort. -/
def State.badRank (s : State) (d b : Nat) : State :=
  (s.raise d (s.inst d b).org Code.fabRankInvalid).abortCause d b Code.fabRankInvalid none

/-- Send a control packet (R357, R359). -/
def State.ctlSend (s : State) (d b peer kind phase : Nat) (id : ChunkId) (attempt : Nat) (payload : Bytes) : State :=
  let x := s.die d
  if ! x.fab.rankOk ((x.team (x.inst b)).at_ peer).1 then s.badRank d b
  else s.modDie d (fun x => x.ctlRaw b peer kind phase id attempt payload s.turn)

/-- Answer a control packet with CACK (R357): LEVEL, STAGE and PHASE are those of the packet that it answers, CHUNK and ATTEMPT 0
(R355; DEDUCED, log 222). -/
def Die.cackTo (x : Die) (q : Packet) (turn : Nat) : Die :=
  { x with fab := { x.fab with handoff := x.fab.handoff ++
      [.pkt q.srcRank q.srcDie clsCtl (wskTrans 10 (wLevel q) (wPlan q) (wInstance q) 0 (wIndex q) (wPhase q) (wStage q) 0 turn) []] } }

/-! ### Output and joins -/

/-- What a JOIN with COUNT `n` waits for on an instance (R362). -/
def Inst.joined (i : Inst) (n : Nat) : Bool :=
  i.state = 8 || (i.bind.eager && decide (0 < n) && (i.state = 6 || i.state = 7 || i.state = 4 || i.state = 5) &&
    (List.range n).all (fun c => (i.wk c).outDone && (i.wk c).kiln = 0))

/-- A JOIN that has been issued is met. -/
def Join.met (j : Join) (b : Nat) (i : Inst) : Bool := j.bucket = b && j.number = i.number && i.joined j.count

/-- The JOINs on bucket `b` that are met complete: their TAGs count (R79, R362). -/
def State.wakeJoins (s : State) (d b : Nat) : State :=
  let i := s.inst d b
  let l := (s.die d).whisk.joins
  let s1 := s.modDie d (fun x => { x with whisk := { x.whisk with joins := l.filter (fun j => ! j.met b i) } })
  (l.filter (fun j => j.met b i)).foldl (fun s j => s.countTag d j.org) s1

/-- Write output bytes of chunk `c` to DST: the pantry at once, HBM and the larder through their kilns (R342). -/
def State.whiskWrite (s : State) (d b c : Nat) (bs : Bytes) : State :=
  let i := s.inst d b
  let a := i.bind.dst + c * i.bind.chunkElems * i.bind.outSize
  if placeOf a = .pantry then
    (s.panStore d a bs).modInst d b (fun i => i.modWk c (fun w => { w with out := bs, outDone := true }))
  else
    let ws := blocksOf a bs
    let s1 := s.modDie d (fun x => { x with mem := ws.foldl (fun m p =>
      m.kilnPush { owner := .whisk b c, block := p.1, pieces := p.2 }) x.mem })
    s1.modInst d b (fun i => i.modWk c (fun w => { w with out := bs, outDone := true, kiln := w.kiln + ws.length }))

/-- Narrow final sums to OUT_FMT by R136 with SAT = 0 (R360). -/
def Inst.narrowOut (i : Inst) (seed c : Nat) (vs : List Nat) : Bytes :=
  let f := i.bind.outFmt
  if f = 10 then packRow 10 (vs.map (fun v => if (ofF32 v).isNan then fmtFP32.nan else v))
  else packRow f (vs.zipIdx.map (fun p => (narrow (floatOf f) p.1
    (if i.bind.sr then some (srBits seed i.bind.tensor (c * i.bind.chunkElems + p.2)) else none) false).1))

/-! ### Reduction of a chunk (R347) -/

/-- The own source elements of chunk `c` as FP32 bits, read and verified block by block (R359); or the code of a block
that failed. -/
def Die.ownSource (x : Die) (i : Inst) (c : Nat) : List Nat ⊕ Nat :=
  let n := i.bind.countOf c
  match (x.mem.verifiedRead .whisk (i.bind.src + c * i.bind.chunkElems * i.bind.srcSize) (n * i.bind.srcSize)).fault Code.glazeFault with
  | .inl bs => .inl ((unpackRow i.bind.srcFmt n bs).map (fun v => toF32 ((floatOf i.bind.srcFmt).decode v)))
  | .inr e => .inr e.2

/-- A chunk that came has been consumed: its buffers are free again. -/
def RxChunk.consumed (r : RxChunk) : Bool := r.verified && r.pieces.isEmpty

/-- The verified partial sum that is added next: in ascending distance, or, with ARRIVAL = 1, in the order of arrival
within a tree. -/
def Inst.nextSum (i : Inst) (t : Team) (c : Nat) : Option RxChunk :=
  let w := i.wk c
  let left := (t.sumsIn c).filter (fun id => ! (if id.stage = 0 then w.addedDie else w.addedRank).contains id.level)
  let got := fun (id : ChunkId) => i.rx.find? (fun r => r.id = id && r.verified)
  match left with
  | [] => none
  | id :: _ =>
    if i.bind.arrival && ! (t.ring && id.stage = 1) then
      i.rx.find? (fun r => r.verified && ! r.consumed && r.id.stage = id.stage && left.contains r.id)
    else got id

/-- The partial sum of chunk `c` holds every term of this member. -/
def Inst.summed (i : Inst) (t : Team) (c : Nat) : Bool :=
  let w := i.wk c
  ! w.acc.isEmpty && (t.sumsIn c).all (fun id => (if id.stage = 0 then w.addedDie else w.addedRank).contains id.level)

/-- Take the own source of chunk `c` if it has not been read; the reads of its blocks are over (R193). -/
def State.takeSource (s : State) (d b c : Nat) : State :=
  let x := s.die d
  let i := x.inst b
  if ! (i.wk c).acc.isEmpty then s
  else
    let s1 := s.modDie d (fun x => x.forget .whisk (i.bind.src + c * i.bind.chunkElems * i.bind.srcSize) (i.bind.countOf c * i.bind.srcSize))
    match x.ownSource i c with
    | .inl vs => s1.modInst d b (fun i => i.modWk c (fun w => { w with acc := vs }))
    | .inr code => s1.abortCause d b code none

/-! ### Credit (R352, R358) -/

/-- The chunks that an instance receives, in ascending order, reduction before gather. -/
def Inst.expects (i : Inst) (t : Team) : List ChunkId :=
  (if i.bind.reduces then i.chunkList.flatMap t.sumsIn else []) ++
    (if i.bind.gathers then i.chunkList.flatMap (fun c => (t.outIn c).toList) else [])

/-- Receive buffers that hold chunks (R358). -/
def Inst.rxUsed (i : Inst) : Nat :=
  ((i.rx.filter (fun r => ! r.consumed)).map (fun r => i.bind.buffers r.id.phase r.id.chunk)).foldl (· + ·) 0

/-- The members that send chunks to this one, in the order in which their chunks are needed, with the most credits that each may
hold (R358): 8 for the predecessor in the ring, 4 for a neighbour in a tree. -/
def Inst.senders (i : Inst) (t : Team) : List (ChunkId × Nat) :=
  (i.expects t).foldl (fun l id => if l.any (fun e => e.1.peer = id.peer) then l
    else l ++ [(id, if t.ring && id.stage = 1 then 8 else 4)]) []

/-- The credits that the free ones of the reserved buffers allow now, by sender: first as many as its next chunk takes, for each
sender in turn, then up to the most it may hold. A buffer promised to a sender that has nothing more to send is free. Which sender
gets how many within R358's bounds is the model's choice (DESIGN CHOICE, log 201). -/
def Inst.share (i : Inst) (t : Team) : List (ChunkId × Nat) :=
  let ids := (i.expects t).filter (fun id => ! i.rx.any (fun r => r.id = id && r.consumed))
  let cost := fun (id : ChunkId) => i.bind.buffers id.phase id.chunk
  let left := fun (p : Nat) => ((ids.filter (fun id => id.peer = p)).map cost).foldl (· + ·) 0
  let has := fun (p : Nat) => i.granted.getD p 0
  let from_ := i.senders t
  let promised := (from_.map (fun e => min (has e.1.peer) (left e.1.peer))).foldl (· + ·) 0
  let first := from_.map (fun e => match ids.find? (fun id => id.peer = e.1.peer) with
    | some id => min e.2 (cost id)
    | none => 0)
  let most := from_.map (fun e => min e.2 (left e.1.peer))
  let step := fun (free : Nat) (goals : List Nat) (l : List Nat) =>
    (goals.zip (l.zip from_)).foldl (fun (a : Nat × List Nat) g =>
      let n := min (g.1 - (has g.2.2.1.peer + g.2.1)) a.1
      (a.1 - n, a.2 ++ [g.2.1 + n])) (free, [])
  let one := step (i.rxRes - promised) first (from_.map (fun _ => 0))
  let two := step one.1 most one.2
  ((from_.map Prod.fst).zip two.2).filter (fun e => e.2 ≠ 0)

/-- CREDIT for `n` buffers to the sender of chunk `id`. -/
def State.sendCredit (s : State) (d b n : Nat) (id : ChunkId) : State :=
  (s.modInst d b (fun i => { i with granted := i.granted.put id.peer (i.granted.getD id.peer 0 + n) })).ctlSend d b id.peer 4 id.phase
    { level := id.level, stage := id.stage } 0 (leBytes 2 n)

/-- CREDIT for what `Inst.share` allows. -/
def State.grantCredit (s : State) (d b : Nat) : State :=
  ((s.inst d b).share (s.team d b)).foldl (fun s g => s.sendCredit d b g.2 g.1) s

/-- Chunk `id` has been consumed: its sender gets the credits of its buffers back (R358), and others what that leaves free. -/
def State.consumed (s : State) (d b : Nat) (id : ChunkId) : State :=
  let n := (s.inst d b).bind.buffers id.phase id.chunk
  let s1 := s.modInst d b (fun i => { i with
    rx := i.rx.map (fun e => if e.id = id then { e with pieces := [] } else e)
    granted := i.granted.put id.peer (i.granted.getD id.peer 0 - n) })
  (s1.sendCredit d b n id).grantCredit d b

/-- Add the verified partial sums of chunk `c` that are next in order; each consumed buffer returns its credit (R358). -/
def State.addSums (d b c : Nat) : Nat → State → State
  | 0, s => s
  | k + 1, s =>
    let i := s.inst d b
    if ! i.live then s
    else match i.nextSum (s.team d b) c with
      | none => s
      | some r =>
        let s1 := s.takeSource d b c
        let i := s1.inst d b
        if ! i.live then s1
        else
          let bs := (r.pieces.map Prod.snd).flatten.take (i.bind.wireBytes c)
          let add := i.ofWire c bs
          let s2 := s1.modInst d b (fun i => i.modWk c (fun w => { w with
            acc := zip2 f32add w.acc add
            addedDie := if r.id.stage = 0 then w.addedDie ++ [r.id.level] else w.addedDie
            addedRank := if r.id.stage = 1 then w.addedRank ++ [r.id.level] else w.addedRank }))
          State.addSums d b c k (s2.consumed d b r.id)

/-- The owner's final sum of chunk `c` (R347): multiplied by SCALE; narrowed to DST at once in REDUCE_SCATTER and
ALL_REDUCE (R360). -/
def State.finishSum (s : State) (d b c : Nat) : State :=
  let x := s.die d
  let i := x.inst b
  let t := x.team i
  if ! i.live || (t.sumOut c).isSome || (i.wk c).final || ! i.summed t c then s
  else
    let v := (i.wk c).acc.map (fun a => f32mul a i.bind.scale)
    let s1 := s.modInst d b (fun i => i.modWk c (fun w => { w with acc := v, final := true }))
    if i.bind.kind = 0 then s1 else s1.whiskWrite d b c (i.narrowOut x.seed c v)

/-! ### The optimizer (R360) -/

/-- Submit the optimizer on the owned chunks whose final sums stand, while STAGE buffers and places in the vector units'
whisk queues are free. -/
def State.submitOpt (s : State) (d b : Nat) : State :=
  let i := s.inst d b
  if i.bind.kind ≠ 0 || ! (i.bind.eager || i.relA) || ! (i.live || (i.state = 9 && i.relA)) then s
  else i.chunkList.foldl (fun s c =>
    let x := s.die d
    let i := x.inst b
    let w := i.wk c
    let used := (x.whisk.insts.filter (fun e => e.2.bind.stage = i.bind.stage)).flatMap (fun e => e.2.work.filterMap (fun w => w.2.stage))
    let core := ((x.team i).shardSlot c) % 2
    match ([0, 1, 2, 3, 4, 5, 6, 7] : List Nat).find? (fun k => ! used.contains k) with
    | none => s
    | some k =>
      if ! w.final || w.opt ≠ 0 || decide (2 < (x.vec core).submitted.length) then s
      else
        let s1 := s.panStore d (i.bind.stage + k * 4 * i.bind.chunkElems) (packRow 10 w.acc)
        let cmd : VecCmd := { key := c, op := i.bind.opt, bucket := some b, ps := i.params, sr := i.bind.sr }
        (s1.modInst d b (fun i => i.modWk c (fun w => { w with opt := 1, stage := some k }))).modDie d (fun x =>
          x.modVec core (fun v => { v with submitted := v.submitted ++ [cmd, { cmd with op := 0x10 }] }))) s

/-! ### Own work, agreement and release (R360, R361) -/

/-- Every kiln write of the instance's output has been made. -/
def Inst.outWritten (i : Inst) (c : Nat) : Bool := (i.wk c).outDone && (i.wk c).kiln = 0

/-- The member's own reduction work is done (R360). -/
def Inst.reduceDone (i : Inst) (t : Team) : Bool :=
  ! i.bind.reduces || (i.hold.all (fun h => h.id.phase ≠ 1) && i.chunkList.all (fun c => match t.sumOut c with
    | some _ => (i.wk c).sent
    | none => (i.wk c).final && (i.bind.hasA || i.outWritten c)))

/-- The member's own gather work is done (R360). -/
def Inst.gatherDone (i : Inst) (t : Team) : Bool :=
  i.hold.isEmpty && i.chunkList.all (fun c => i.outWritten c && (t.outsTo c).all (fun id => (i.wk c).gathered.contains id.peer))

/-- Every child has sent AGREE_UP for the point. -/
def Inst.kidsAgree (i : Inst) (t : Team) (point : Nat) : Bool := t.kids.all (fun k => i.agreeKids.contains (k, point))

/-- The instance completes on this member by RELEASE for point B (R353, R361, R362). -/
def State.complete (s : State) (d b : Nat) : State :=
  let s1 := (s.modInst d b (fun i => { i with state := 8, relB := true, timerRuns := false })).leaveContext d b
  let s2 := s1.modDie d (fun x => { x with whisk := { x.whisk with done := satAdd 32 x.whisk.done 1 } })
  let i := s2.inst d b
  let s3 := if i.saturated then s2.noticeTo i.hatch Code.collSaturated noSubject i.bind.planId (i.number % 65536) 0 else s2
  s3.wakeJoins d b

/-- Send RELEASE for a point to the children. -/
def State.releaseKids (s : State) (d b point : Nat) : State :=
  (s.team d b).kids.foldl (fun s k => s.ctlSend d b k 8 3 ((s.team d b).link k) 0 (leBytes 1 point)) s

/-- The instance enters GATHER (R353). -/
def State.enterGather (s : State) (d b : Nat) (timed : Bool) : State :=
  (s.modInst d b (fun i => { i with
    state := 6, relA := i.relA || timed, timerRuns := timed || i.timerRuns
    timerFrom := if timed then s.turn else i.timerFrom })).grantCredit d b

/-- RELEASE for point A, at the root as its up-sweep completes, at another member as it comes (R361): passed on, the timer
restarted, the optimizer started. -/
def State.releaseA (s : State) (d b : Nat) : State := ((s.enterGather d b true).releaseKids d b 0).submitOpt d b

/-- The member sends AGREE_UP for a point and waits there, its timer suspended (R353, R361); at the root the up-sweep is then
complete. -/
def State.agree (s : State) (d b point : Nat) : State :=
  let t := s.team d b
  let s1 := s.modInst d b (fun i => { i with
    state := if point = 0 then 5 else 7, sentA := i.sentA || point = 0, sentB := i.sentB || point = 1, timerRuns := false })
  match t.parent with
  | some p => s1.ctlSend d b p 7 3 (t.link p) 0 (leBytes 1 point)
  | none => if point = 0 then s1.releaseA d b else (s1.releaseKids d b 1).complete d b

/-- Move the instance on as far as its work allows (R353): at most `k` changes of state. It enters a point of agreement as it
sends its AGREE_UP: with its own work done and every child's AGREE_UP heard. -/
def State.progress (d b : Nat) : Nat → State → State
  | 0, s => s
  | k + 1, s =>
    let i := s.inst d b
    let t := s.team d b
    if i.state = 4 then
      if ! i.reduceDone t then s
      else if i.bind.hasA then if i.kidsAgree t 0 then State.progress d b k (s.agree d b 0) else s
      else if i.bind.gathers then State.progress d b k (s.enterGather d b false)
      else if i.kidsAgree t 1 then s.agree d b 1 else s
    else if i.state = 6 then if i.gatherDone t && i.kidsAgree t 1 then s.agree d b 1 else s
    else s

/-- After any change to a chunk: additions, the final sum, the optimizer, joins and changes of state. -/
def State.chunkMoved (s : State) (d b c : Nat) : State :=
  let s1 := (State.addSums d b c 42 s).finishSum d b c
  State.progress d b 6 ((s1.submitOpt d b).wakeJoins d b)

end Sys2Proof.Machine
end

