-- ==== Sys2Proof/Machine/Whisk.lean ====
section
/-! DEFINITION. Commands of the whisk (chapter 11). -/
namespace Sys2Proof.Machine

/-! ### Words of UNIT 0x4 (R343) -/

/-- The binding of a bucket on die `d` in the menu of core `c` (R338). -/
def State.bindFor (s : State) (d c bucket : Nat) : Option (Menu × Bind) :=
  match ((s.die d).seq c).menu.bind s.menu with
  | none => none
  | some m => ((m.binds s.panel.plans).find? (fun b => b.bucket = bucket && b.dieSet.testBit (s.die d).standsFor)).map (fun b => (m, b))

/-- The exponent bytes from chunk `c` on that one prelude packet carries. -/
def preludeBytes (i : Inst) (t : Tab Nat) (c : Nat) : Bytes :=
  if i.bind.wireF32 then [] else (List.range (min 212 (i.bind.chunks - c))).map (fun k => BitVec.ofNat 8 (t.getD (c + k) 0))

/-- First chunks of the packets of a prelude message (R355). -/
def Inst.preludeParts (i : Inst) : List Nat :=
  if i.bind.wireF32 then [0] else (List.range ((i.bind.chunks + 211) / 212)).map (fun k => 212 * k)

/-- Take the exponent bytes of a packet, keeping the larger of each (R348). -/
def mergeMax (t : Tab Nat) (c : Nat) : Bytes → Tab Nat
  | [] => t
  | b :: bs => mergeMax (if t.getD c 0 < b.toNat then t.put c b.toNat else t) (c + 1) bs

/-- Send PRELUDE_DOWN to the children (R348, R351). -/
def State.sendDown (s : State) (d b : Nat) : State :=
  let i := s.inst d b
  (s.team d b).kids.foldl (fun s k => i.preludeParts.foldl (fun s c =>
    s.ctlSend d b k 3 0 { (s.team d b).link k with chunk := c } 0 (leBytes 6 i.slotTurn ++ leBytes 1 i.slot ++ leBytes 1 i.moves ++ preludeBytes i i.agreed c)) s) s

/-- The member is READY: it passes the down-sweep on, and the moves count in SLOT_MOVES of the core that opened the
instance (R351). -/
def State.makeReady (s : State) (d b : Nat) : State :=
  let i := s.inst d b
  let s1 := s.modInst d b (fun i => { i with state := 3, ready := true })
  let s2 := s1.modDie d (fun x => x.modSeq i.org.core (fun q => { q with slotMoves := satAdd 16 q.slotMoves i.moves }))
  s2.sendDown d b

/-- The up-sweep goes on when this member has fired and every child has been heard: to the parent, or, at the root, it is
complete and the down-sweep starts (R348, R351). -/
def State.preludeMove (s : State) (d b : Nat) : State :=
  let i := s.inst d b
  let t := s.team d b
  if i.state ≠ 2 || i.upSent || ! t.kids.all (fun k => i.heard.contains k) then s
  else
    let s1 := s.modInst d b (fun i => { i with upSent := true })
    match t.parent with
    | some p =>
      let dig := (Sm3.digest i.bind.plan).take 8
      i.preludeParts.foldl (fun s c => s.ctlSend d b p 2 0 { t.link p with chunk := c } 0 (dig ++ preludeBytes i i.maxima c)) s1
    | none => (s1.modInst d b (fun i => { i with upComplete := true, agreed := i.maxima })).makeReady d b

/-- The instance fires (R344, R348). -/
def State.fireInst (s : State) (d b : Nat) : State :=
  (s.modInst d b (fun i => { i with
    state := 2, fired := true
    maxima := i.monitor.foldl (fun t p => if t.getD p.1 0 < p.2 then t.put p.1 p.2 else t) i.maxima })).preludeMove d b

/-! ### Receiving -/

/-- The key of the instance that a packet names. -/
def Die.bucketOf (x : Die) (q : Packet) : Option Nat :=
  (x.whisk.insts.find? (fun e => e.2.bind.planId = wPlan q && e.2.number % 65536 = wInstance q)).map Prod.fst

/-- The packet names an instance that a bucket of the plan has left behind. -/
def Die.pastInstance (x : Die) (q : Packet) : Bool :=
  x.whisk.insts.any (fun e => decide (e.1 < 64) && e.2.bind.planId = wPlan q &&
    decide (1 ≤ (e.2.number + 65536 - wInstance q) % 65536) && decide ((e.2.number + 65536 - wInstance q) % 65536 < 32768))

/-- CREDIT adds to the credits held toward the member that grants them (R358). -/
def State.onCredit (s : State) (d b peer : Nat) (q : Packet) : State :=
  s.modInst d b (fun i => { i with credits := i.credits.put peer (i.credits.getD peer 0 + leAt q.payload 0 2) })

/-- PRELUDE_UP from a child (R348). -/
def State.onPreludeUp (s : State) (d b peer : Nat) (q : Packet) : State :=
  let i := s.inst d b
  let t := s.team d b
  if ! i.live || ! t.kids.contains peer then s
  else if q.payload.take 8 ≠ (Sm3.digest i.bind.plan).take 8 then s.abortCause d b Code.collPlanMismatch none
  else
    let parts := if i.partUp.contains (peer, wChunk q) then i.partUp else i.partUp ++ [(peer, wChunk q)]
    let all := i.preludeParts.all (fun c => parts.contains (peer, c))
    (s.modInst d b (fun i => { i with
      partUp := parts, maxima := mergeMax i.maxima (wChunk q) (q.payload.drop 8)
      heard := if all then insertNat peer i.heard else i.heard })).preludeMove d b

/-- PRELUDE_DOWN from the parent (R348, R351). -/
def State.onPreludeDown (s : State) (d b : Nat) (q : Packet) : State :=
  let i := s.inst d b
  if i.state ≠ 2 then s
  else
    let parts := insertNat (wChunk q) i.downParts
    let s1 := s.modInst d b (fun i => { i with
      downParts := parts, agreed := mergeMax i.agreed (wChunk q) (q.payload.drop 8)
      slotTurn := leAt q.payload 0 6, slot := byteAt q.payload 6, moves := byteAt q.payload 7 })
    if i.preludeParts.all (fun c => parts.contains c) then s1.makeReady d b else s1

/-- CHUNK_ACK frees the hold buffer of the chunk (R357). -/
def State.onChunkAck (s : State) (d b peer : Nat) (q : Packet) : State :=
  State.progress d b 6 (s.modInst d b (fun i => { i with hold := i.hold.filter (fun h => h.id ≠ wChunkId q peer) }))

/-- The packets of a chunk on COL (R355, R356). -/
def Die.chunkPackets (x : Die) (b : Nat) (h : HoldChunk) (turn : Nat) : Die :=
  let i := x.inst b
  let goal := (x.team i).at_ h.id.peer
  let all := h.data ++ chunkTag i.bind.planId i.number h.id.chunk h.data
  let ps := (packets220 all.length).zipIdx.map (fun p => Handoff.pkt goal.1 goal.2 clsCol
    (wskTrans 1 h.id.level i.bind.planId i.number h.id.chunk p.2 h.id.phase h.id.stage h.attempt turn) (sliceAt all p.1.1 p.1.2))
  { x with fab := { x.fab with handoff := x.fab.handoff ++ ps } }

/-- RESEND: the chunk goes again from its hold buffer under the attempt asked for (R358). -/
def State.onResend (s : State) (d b peer : Nat) (q : Packet) : State :=
  match (s.inst d b).hold.find? (fun h => h.id = wChunkId q peer) with
  | none => s
  | some h =>
    let h1 := { h with attempt := wAttempt q }
    if ! (s.die d).fab.rankOk (((s.team d b).at_ peer).1) then s.badRank d b
    else (s.modInst d b (fun i => { i with hold := i.hold.map (fun g => if g.id = h.id then h1 else g) })).modDie d
      (fun x => x.chunkPackets b h1 s.turn)

/-- AGREE_UP from a child (R361). -/
def State.onAgreeUp (s : State) (d b peer : Nat) (q : Packet) : State :=
  let k := (peer, byteAt q.payload 0)
  State.progress d b 6 (s.modInst d b (fun i => { i with agreeKids := if i.agreeKids.contains k then i.agreeKids else i.agreeKids ++ [k] }))

/-- RELEASE from the parent (R361, R365). -/
def State.onRelease (s : State) (d b : Nat) (q : Packet) : State :=
  let i := s.inst d b
  if byteAt q.payload 0 = 0 then
    if i.state ≠ 5 then s else State.progress d b 6 (s.releaseA d b)
  else if i.state ≠ 7 then s
  else (s.releaseKids d b 1).complete d b

/-- What a reliable control packet of a kind does (R355). -/
def State.ctlAct (s : State) (d b peer : Nat) (q : Packet) : State :=
  match q.kind with
  | 2 => s.onPreludeUp d b peer q
  | 3 => s.onPreludeDown d b q
  | 4 => s.onCredit d b peer q
  | 5 => s.onChunkAck d b peer q
  | 6 => s.onResend d b peer q
  | 7 => s.onAgreeUp d b peer q
  | 8 => s.onRelease d b q
  | 9 => s.abortCause d b (leAt q.payload 0 2) (some peer)
  | _ => s

/-- Act on a control packet of instance `b` once per INDEX (R357). -/
def State.ctlOnce (s : State) (d b : Nat) (q : Packet) : State :=
  match (s.team d b).find q.srcRank q.srcDie with
  | none => s
  | some peer =>
    if (s.inst d b).ctlSeen.contains (peer, wIndex q) then s
    else (s.modInst d b (fun i => { i with ctlSeen := i.ctlSeen ++ [(peer, wIndex q)] })).ctlAct d b peer q

/-- A whisk control packet of a kind has come (R357): it is acknowledged and acted on once; for an instance that has not
been opened it goes to the pending table of 256, or is dropped without CACK when that is full. -/
def State.ctlRow (s : State) (d kind : Nat) : State :=
  match (s.die d).takeRx 4 [kind] with
  | none => s
  | some (q, x) =>
    let s1 := s.setDie d x
    match x.bucketOf q with
    | some b => (s1.modDie d (fun x => x.cackTo q s.turn)).ctlOnce d b q
    | none =>
      let same := fun (p : Packet) => p.srcRank = q.srcRank && p.srcDie = q.srcDie && wIndex p = wIndex q && wPlan p = wPlan q &&
        wInstance p = wInstance q
      if x.pastInstance q || x.whisk.pending.any same then s1.modDie d (fun x => x.cackTo q s.turn)
      else if 256 ≤ x.whisk.pending.length then s1
      else s1.modDie d (fun x => ({ x with whisk := { x.whisk with pending := x.whisk.pending ++ [q] } } : Die).cackTo q s.turn)

/-- WSK_OPEN: the next instance of the bucket (R343, R353). Control packets that came before it are acted on now. -/
def execWskOpen (d c t : Nat) (w : W64) (s : State) : Host.Outcome State Fault Refusal :=
  .next (s.issue d c t w 4 1 (fun s o =>
    let b := wField w 45 40
    let old := s.inst d b
    let bound := s.bindFor d c b
    s.checked d o [(! bodyOk w (maskOf 45 40) || bound.isNone, Code.collDecode), (old.live, Code.collBucketState)]
      (match bound with
       | none => s
       | some (m, bd) =>
         let k := if old.opened then old.number + 1 else 0
         let at_ := m.scheduled b k
         let ps := (List.range 7).map (fun i => ((s.die d).vec c).params.getD (bd.pbase + i) 0)
         let i : Inst := { bind := bd, number := k, state := 1, params := ps, ticket := o.ticket, org := o, opened := true
                           timerFrom := if turnCome at_.1 s.turn then s.turn else at_.1, timerRuns := true, slotTurn := at_.1, slot := at_.2, hatch := some m.noticeHatch }
         let s1 := ((s.modDie d (fun x => x.setAside b)).modInst d b (fun _ => i)).countTag d o
         let mine := fun (q : Packet) => wPlan q = bd.planId && wInstance q = k % 65536
         let qs := (s1.die d).whisk.pending.filter mine
         qs.foldl (fun s q => s.ctlOnce d b q) (s1.modDie d (fun x => { x with whisk := { x.whisk with
           pending := x.whisk.pending.filter (fun q => ! mine q) } }))))) 

/-- WSK_FIRE: the open instance fires at once; the word completes as it leaves FILLING (R343). -/
def execWskFire (d c t : Nat) (w : W64) (s : State) : Host.Outcome State Fault Refusal :=
  .next (s.issue d c t w 4 2 (fun s o =>
    let b := wField w 45 40
    s.checked d o [(! bodyOk w (maskOf 45 40) || wTicket w ≠ 0 || (s.bindFor d c b).isNone, Code.collDecode),
        ((s.inst d b).state ≠ 1, Code.collBucketState)]
      ((s.fireInst d b).countTag d o)))

/-- WSK_JOIN: it waits in the whisk for the last instance opened, and its thread goes on (R78, R362). -/
def execWskJoin (d c t : Nat) (w : W64) (s : State) : Host.Outcome State Fault Refusal :=
  .next (s.issue d c t w 4 3 (fun s o =>
    let b := wField w 45 40
    let n := wField w 39 26
    let chunks := match s.bindFor d c b with
      | some (_, bd) => some bd.chunks
      | none => none
    s.checked d o [(! bodyOk w (maskOf 45 26) || wTicket w ≠ 0 || (match chunks with
          | some k => decide (k < n)
          | none => true), Code.collDecode),
        (! (s.inst d b).opened, Code.collBucketState)]
      ((s.modDie d (fun x => { x with whisk := { x.whisk with
        joins := x.whisk.joins ++ [{ bucket := b, number := (x.inst b).number, count := n, org := o }] } })).wakeJoins d b)))

/-- BUCKET_FIRE: the byte counter of a COUNT bucket has reached SIZE (R344). -/
def execBucketFire (d b : Nat) (s : State) : Host.Outcome State Fault Refusal :=
  .next (let i := s.inst d b
    if i.state ≠ 1 || i.bind.fire || decide (i.count < i.bind.size) then s else s.fireInst d b)

/-- PRELUDE_UP. -/
def execPreludeUp (d : Nat) (s : State) : Host.Outcome State Fault Refusal := .next (s.ctlRow d 2)
/-- PRELUDE_DOWN. -/
def execPreludeDown (d : Nat) (s : State) : Host.Outcome State Fault Refusal := .next (s.ctlRow d 3)
/-- CREDIT. -/
def execCredit (d : Nat) (s : State) : Host.Outcome State Fault Refusal := .next (s.ctlRow d 4)
/-- CHUNK_ACK. -/
def execChunkAck (d : Nat) (s : State) : Host.Outcome State Fault Refusal := .next (s.ctlRow d 5)
/-- RESEND. -/
def execResend (d : Nat) (s : State) : Host.Outcome State Fault Refusal := .next (s.ctlRow d 6)
/-- AGREE_UP. -/
def execAgreeUp (d : Nat) (s : State) : Host.Outcome State Fault Refusal := .next (s.ctlRow d 7)
/-- RELEASE. -/
def execRelease (d : Nat) (s : State) : Host.Outcome State Fault Refusal := .next (s.ctlRow d 8)
/-- ABORT. -/
def execAbort (d : Nat) (s : State) : Host.Outcome State Fault Refusal := .next (s.ctlRow d 9)

/-- CACK: the sender stops repeating the packet (R357). -/
def execCack (d : Nat) (s : State) : Host.Outcome State Fault Refusal :=
  .next (match (s.die d).takeRx 4 [10] with
    | none => s
    | some (q, x) =>
      let s1 := s.setDie d x
      match x.bucketOf q with
      | none => s1
      | some b => match (s1.team d b).find q.srcRank q.srcDie with
        | none => s1
        | some peer => s1.modInst d b (fun i => { i with ctlSent := i.ctlSent.filter (fun c => ! (c.peer = peer && c.index = wIndex q)) }))

/-- CTL_REPEAT_TIMEOUT: 20 µs without CACK the packet at place `key` is sent again (R357). -/
def execCtlRepeatTimeout (d b key : Nat) (s : State) : Host.Outcome State Fault Refusal :=
  .next (match (s.inst d b).ctlSent[key]? with
    | none => s
    | some c =>
      let goal := (s.team d b).at_ c.peer
      if ! (s.die d).fab.rankOk goal.1 then s.badRank d b
      else s.modDie d (fun x => { x with fab := { x.fab with handoff := x.fab.handoff ++ [.pkt goal.1 goal.2 clsCtl c.trans c.payload] } }))

/-- SLOT_CHECK: at the tick of the candidate slot the root finds the up-sweep incomplete, and moves the instance (R86,
R351). -/
def execSlotCheck (d b : Nat) (s : State) : Host.Outcome State Fault Refusal :=
  .next (let i := s.inst d b
    if ! (i.state = 1 || i.state = 2) || i.upComplete || (s.team d b).me ≠ 0 || ! turnCome i.slotTurn s.turn then s
    else match ((s.die d).seq i.org.core).menu.bind s.menu with
      | none => s
      | some m =>
        let held := ((s.die d).whisk.movedSlots.filter (fun h => h.2.2 ≠ b)).map (fun h => (h.1, h.2.1))
        let goal := m.moveSlot held i.slotTurn
        (s.modInst d b (fun i => { i with slotTurn := goal.1, slot := goal.2, moves := i.moves + 1 })).modDie d (fun x =>
          { x with whisk := { x.whisk with movedSlots := x.whisk.movedSlots ++ [(goal.1, goal.2, b)] } }))

/-- The whisk could start the data phase of an instance if it held its grant (R352). -/
def Die.dataDue (x : Die) (b turn : Nat) : Bool :=
  (x.inst b).state = 3 && turnCome (x.inst b).slotTurn turn && decide ((x.whisk.insts.filter (fun e => e.2.ctx)).length < 4)

/-- Own chunks of an ALL_GATHER come from DST (R354). -/
def State.takeOutputs (s : State) (d b : Nat) : State :=
  let i := s.inst d b
  let t := s.team d b
  i.chunkList.foldl (fun s c =>
    if (t.outIn c).isSome then s
    else
      let a := i.bind.dst + c * i.bind.chunkElems * i.bind.outSize
      let s1 := s.modDie d (fun x => x.forget .whisk a (i.bind.outBytes c))
      match ((s.die d).mem.verifiedRead .whisk a (i.bind.outBytes c)).fault Code.glazeFault with
      | .inl bs => s1.modInst d b (fun i => i.modWk c (fun w => { w with out := bs, outDone := true }))
      | .inr e => s1.abortCause d b e.2 none) s

/-- DATA_PHASE_START: the member takes a context with its buffers, grants credit and starts its own chunks (R352, R353). The model
reserves the full 16 buffers of each kind (DESIGN CHOICE, log 201). -/
def execDataPhaseStart (d b : Nat) (s : State) : Host.Outcome State Fault Refusal :=
  .next (let x := s.die d
    if ! x.dataDue b s.turn || ! x.leave.grants.any (fun g => g.unit = 0) then s
    else
      let s2 := (s.modInst d b (fun i => { i with state := 4, ctx := true, rxRes := 16, holdRes := 16 })).grantCredit d b
      let i := s2.inst d b
      let t := s2.team d b
      if i.bind.kind = 2 then State.progress d b 6 (s2.takeOutputs d b)
      else
        let s3 := i.chunkList.foldl (fun s c =>
          if (t.sumOut c).isNone && (t.sumsIn c).isEmpty && (s.inst d b).live then (s.takeSource d b c).finishSum d b c else s) s2
        State.progress d b 6 (s3.submitOpt d b))

/-- Buffers of the chunks in hold. -/
def Inst.holdUsed (i : Inst) : Nat := (i.hold.map (fun h => i.bind.buffers h.id.phase h.id.chunk)).foldl (· + ·) 0

/-- The next chunk to send: along each path in ascending order of chunks, ready, within credits and hold buffers (R354,
R358). -/
def Inst.nextSend (i : Inst) (t : Team) : Option ChunkId :=
  let want := fun (c : Nat) =>
    (if i.state = 4 && i.bind.reduces && ! (i.wk c).sent then (t.sumOut c).toList else []) ++
    (if i.state = 6 then (t.outsTo c).filter (fun id => ! (i.wk c).gathered.contains id.peer) else [])
  let ready := fun (id : ChunkId) =>
    (if id.phase = 1 then
       (t.sumsIn id.chunk).all (fun e => (if e.stage = 0 then (i.wk id.chunk).addedDie else (i.wk id.chunk).addedRank).contains e.level)
     else (i.wk id.chunk).outDone) &&
    decide (i.bind.buffers id.phase id.chunk ≤ i.credits.getD id.peer 0) &&
    decide (i.holdUsed + i.bind.buffers id.phase id.chunk ≤ i.holdRes)
  let path := fun (id : ChunkId) => (id.phase, id.stage, id.level, id.peer)
  (i.chunkList.foldl (fun (a : List (Nat × Nat × Nat × Nat) × Option ChunkId) c =>
    (want c).foldl (fun a id =>
      if a.2.isSome || a.1.contains (path id) then a
      else if ready id then (a.1, some id) else (path id :: a.1, none)) a) ([], none)).2

/-- CHUNK_SEND: the next chunk that can go is sent and held until its CHUNK_ACK (R358). -/
def execChunkSend (d b : Nat) (s : State) : Host.Outcome State Fault Refusal :=
  .next (match (s.inst d b).nextSend (s.team d b) with
    | none => s
    | some id =>
      if ! (s.die d).fab.rankOk ((s.team d b).at_ id.peer).1 then s.badRank d b
      else
        let s1 := if id.phase = 1 then s.takeSource d b id.chunk else s
        let i := s1.inst d b
        if ! i.live then s1
        else
          let out := if id.phase = 1 then i.toWire id.chunk (i.wk id.chunk).acc else ((i.wk id.chunk).out, 0)
          let h : HoldChunk := { id := id, data := out.1 }
          let s2 := s1.modInst d b (fun i =>
            let j := i.modWk id.chunk (fun w => if id.phase = 1 then { w with sent := true, acc := [] }
              else { w with gathered := insertNat id.peer w.gathered })
            { j with
              hold := j.hold ++ [h], saturated := j.saturated || out.2 ≠ 0
              credits := j.credits.put id.peer (j.credits.getD id.peer 0 - j.bind.buffers id.phase id.chunk) })
          s2.modDie d (fun x => ({ x with whisk := { x.whisk with sat := satAdd 32 x.whisk.sat out.2 } } : Die).chunkPackets b h s.turn))

/-- A chunk's attempt has failed: RESEND, or, after attempt 2, a cause of abort (R358). -/
def State.chunkFailed (s : State) (d b : Nat) (r : RxChunk) : State :=
  if 2 ≤ r.attempt then s.abortCause d b Code.collResendFailed none
  else
    let s1 := s.modInst d b (fun i => { i with rx := i.rx.map (fun e => if e.id = r.id then { e with attempt := r.attempt + 1, pieces := [] } else e) })
    (s1.modDie d (fun x => { x with whisk := { x.whisk with resends := satAdd 16 x.whisk.resends 1 } })).ctlSend d b r.id.peer 6 r.id.phase
      r.id (r.attempt + 1) []

/-- A verified chunk is acknowledged and consumed (R357, R358): a partial sum takes its turn in the additions; an output
chunk is written to DST and passed on. -/
def State.chunkVerified (s : State) (d b : Nat) (r : RxChunk) : State :=
  let s1 := (s.modInst d b (fun i => { i with rx := i.rx.map (fun e => if e.id = r.id then { r with verified := true } else e) })).ctlSend d b
    r.id.peer 5 r.id.phase r.id 0 []
  let c := r.id.chunk
  if r.id.phase = 1 then s1.chunkMoved d b c
  else
    let s2 := s1.whiskWrite d b c ((r.pieces.map Prod.snd).flatten.take ((s1.inst d b).bind.outBytes c))
    State.progress d b 6 ((s2.consumed d b r.id).wakeJoins d b)

/-- CHUNK_DATA: a packet of a chunk; the last one has the chunk checked by its tag (R358). A chunk comes against credit only; one
that finds none of the reserved buffers free is not taken (log 201). -/
def execChunkData (d : Nat) (s : State) : Host.Outcome State Fault Refusal :=
  .next (match (s.die d).takeRx 4 [1] with
    | none => s
    | some (q, x) =>
      let s1 := s.setDie d x
      match x.bucketOf q with
      | none => s1
      | some b =>
        let i := x.inst b
        let t := x.team i
        match t.find q.srcRank q.srcDie with
        | none => s1
        | some peer =>
          let id := wChunkId q peer
          let n := i.bind.bytesOf id.phase id.chunk
          let total := (n + 8 + 219) / 220
          if ! i.live || ! (decide (id.chunk < i.bind.chunks)) ||
              ! ((t.sumsIn id.chunk).contains id || (t.outIn id.chunk).toList.contains id) || decide (total ≤ wIndex q) then s1
          else match i.rx.find? (fun r => r.id = id) with
            | some r =>
              if r.verified then (if wIndex q + 1 = total then s1.ctlSend d b peer 5 id.phase id 0 [] else s1)
              else if wAttempt q ≠ r.attempt || (r.pieces.find (wIndex q)).isSome then s1
              else
                let r1 := { r with pieces := r.pieces.put (wIndex q) q.payload }
                let s2 := s1.modInst d b (fun i => { i with rx := i.rx.map (fun e => if e.id = id then r1 else e) })
                if r1.pieces.length < total then s2
                else
                  let all := (r1.pieces.map Prod.snd).flatten
                  if all.length = n + 8 && all.drop n == chunkTag i.bind.planId i.number id.chunk (all.take n) then s2.chunkVerified d b r1
                  else s2.chunkFailed d b r1
            | none =>
              if wAttempt q ≠ 0 || decide (i.rxRes < i.rxUsed + i.bind.buffers id.phase id.chunk) then s1
              else
                let r1 : RxChunk := { id := id, pieces := [(wIndex q, q.payload)] }
                let s2 := s1.modInst d b (fun i => { i with rx := i.rx ++ [r1] })
                if 1 < total then s2
                else if q.payload.length = n + 8 && q.payload.drop n == chunkTag i.bind.planId i.number id.chunk (q.payload.take n) then
                  s2.chunkVerified d b r1
                else s2.chunkFailed d b r1)

/-- CHUNK_TIMEOUT: the chunk at place `key` of the receive list is incomplete 20 µs after its first packet (R358). -/
def execChunkTimeout (d b key : Nat) (s : State) : Host.Outcome State Fault Refusal :=
  .next (let i := s.inst d b
    match i.rx[key]? with
    | none => s
    | some r => if ! i.live || r.verified then s else s.chunkFailed d b r)

/-- COLL_TIMEOUT: the timer of an open instance has run for TIMEOUT turns (R363). -/
def execCollTimeout (d b : Nat) (s : State) : Host.Outcome State Fault Refusal :=
  .next (let i := s.inst d b
    if ! i.live || ! i.timerRuns || ! turnCome (turnPlus i.timerFrom i.bind.timeout) s.turn then s
    else s.abortCause d b Code.collTimeout none)

/-- The lowest code of an aborted instance is raised (R363, R364); its menu's course stops unless the menu has stopped. -/
def State.raiseAbort (s : State) (d : Nat) (i : Inst) : State :=
  let code := i.codes.foldl min (i.codes.headD 0)
  let s1 := s.modDie d (fun x => { x with whisk := { x.whisk with
    abortCode := code, abortPlan := i.bind.planId, abortInstance := i.number % 65536, abortPhase := i.phase } })
  let s2 := if i.ended then s1 else s1.raise d i.org code
  let s3 := if i.bind.eager then s2.noticeTo i.hatch Code.stepTainted noSubject i.bind.planId (i.number % 65536) 0 else s2
  if i.saturated then s3.noticeTo i.hatch Code.collSaturated noSubject i.bind.planId (i.number % 65536) 0 else s3

/-- ABORT_RAISE: 24 turns after the first cause the lowest code seen is raised (R363). -/
def execAbortRaise (d b : Nat) (s : State) : Host.Outcome State Fault Refusal :=
  .next (let due := fun (i : Inst) => i.bind.bucket = b && i.abortDue && (match i.abortTurn with
      | some t0 => turnCome (turnPlus t0 24) s.turn
      | none => false)
    let l := (s.die d).whisk.insts
    match (l.filter (fun e => decide (64 ≤ e.1)) ++ l).find? (fun e => due e.2) with
    | none => s
    | some e => ((s.modInst d e.1 (fun i => { i with abortRaised := true })).modDie d (fun x =>
        { x with whisk := x.whisk.retire })).raiseAbort d e.2)

/-! ### What other units report -/

/-- A kiln write of output chunk `c` has ended with `code` (R359, R360). -/
def State.whiskLanded (s : State) (d b c code : Nat) : State :=
  if ((s.die d).whisk.insts.find b).isNone then s else
  let s1 := s.modInst d b (fun i => i.modWk c (fun w => { w with kiln := w.kiln - 1 }))
  if code = 0 then State.progress d b 6 (s1.wakeJoins d b) else s1.abortCause d b code none

/-- A vector command of the whisk has completed (R360): the optimizer leaves the updated state and frees its STAGE buffer;
CONVERT writes the updated weights to DST. -/
def State.whiskVecDone (s : State) (d b c op : Nat) : State :=
  let x := s.die d
  let i := x.inst b
  if (x.whisk.insts.find b).isNone then s else
  let n := i.bind.countOf c
  let j := (x.team i).shardSlot c
  let base := fun (a : Nat) => a + 4 * i.bind.chunkElems * j
  let read := fun (a : Nat) => unpackRow 10 n (x.mem.cells.readN a (4 * n))
  let ws := read (base i.bind.optW)
  if op ≠ 0x10 then
    match (i.wk c).stage with
    | none => s
    | some k =>
      let gs := read (i.bind.stage + k * 4 * i.bind.chunkElems)
      let ms := read (base i.bind.optM)
      let vs := read (base i.bind.optV)
      let out := (List.range n).map (fun e => elemOp op (fun p => i.params.getD p 0) (ws.getD e 0) (gs.getD e 0) (ms.getD e 0) (vs.getD e 0))
      let s1 := (s.panStore d (base i.bind.optW) (packRow 10 (out.map (fun v => v.1)))).panStore d (base i.bind.optM)
        (packRow 10 (out.map (fun v => v.2.1)))
      let s2 := if op = 0x31 then s1.panStore d (base i.bind.optV) (packRow 10 (out.map (fun v => v.2.2))) else s1
      (s2.modInst d b (fun i => i.modWk c (fun w => { w with stage := none, opt := 2 }))).submitOpt d b
  else
    let s1 := s.whiskWrite d b c (i.narrowOut x.seed c ws)
    State.progress d b 6 ((s1.submitOpt d b).wakeJoins d b)

/-- The menu of the die has ended: its open instances end (R363). The whisk keeps nothing but its counters (R342), and the aborted
instances that R363 and R364 leave something to do. -/
def State.whiskStopped (s : State) (d : Nat) : State :=
  let s1 := ((s.die d).whisk.insts.map Prod.fst).foldl (fun s b => s.abortCause d b Code.collMemberStopped none) s
  s1.modDie d (fun x => { x with whisk := { x.whisk with
    pending := [], joins := []
    insts := (x.whisk.insts.filter (fun e => e.2.lingers || e.2.state = 7)).map (fun e => (e.1, { e.2 with ended := true })) } })

/-! ### Injection (R275) -/

/-- PACKET_INJECT: the first packet of the class that can go is stamped and injected. A whisk packet whose rank has no valid entry
is not sent, and its instance takes FAB_RANK_INVALID (R359); a response or a bounce without one is not sent. -/
def execPacketInject (d cls : Nat) (s : State) : Host.Outcome State Fault Refusal :=
  .next (let x := s.die d
    match x.fab.handoff.find? (fun h => h.cls = cls && x.mayInject h) with
    | none => s
    | some h =>
      let s1 := s.modDie d (fun x => { x with fab := { x.fab with handoff := removeFirst (fun g => g = h) x.fab.handoff } })
      match h with
      | .req i =>
        match x.rem.reqs.find? (fun r => r.id = i) with
        | some r => s.injectReq d r
        | none => s1
      | .pkt rank die c tr pl =>
        if x.fab.rankOk rank then s1.injectPkt d rank die c tr pl
        else if byteAt tr 0 % 16 ≠ 4 then s1
        else match x.bucketOf (x.stamp rank die c tr pl) with
          | some b => s1.badRank d b
          | none => s1)

end Sys2Proof.Machine
end

