-- ==== Sys2Proof/Machine/VecEvents.lean ====
section
/-! DEFINITION. Start and completion of vector commands (R141, R151, R152, R360). -/
namespace Sys2Proof.Machine

/-- Pantry bytes of a tile, scale plane included. -/
def Tile.bytes (t : Tile) : Nat := t.rows * (t.rowBytes + t.scaleBytes)

/-- Pantry bytes that a command reads and writes (R151). -/
def VecCmd.moved (k : VecCmd) : Nat :=
  let u := vecUse k.op
  let use := fun (part : Nat) (t : Tile) => match part with
    | 0 => 0
    | 3 => 2 * t.bytes
    | _ => t.bytes
  k.a.bytes + use u.b k.b + use u.c k.c + use u.y k.y + use u.z k.z

/-- R152. -/
def VecCmd.heavy (k : VecCmd) : Bool := k.bucket.isNone && decide (1048576 < k.moved)

/-- The command that the unit takes next: it serves the whisk's submissions alternately with its own queue (R360). -/
def Vec.nextCmd (v : Vec) : Option (VecCmd × Bool) :=
  match v.queue.head?, v.submitted.head? with
  | none, none => none
  | some k, none => some (k, false)
  | none, some k => some (k, true)
  | some k, some j => if v.lastWhisk then some (k, false) else some (j, true)

/-- VEC_COMMAND_START: the next command starts once no command runs; a heavy one has leave (R141, R152). A submission of the
whisk waits for the end of a known-answer test (R456). -/
def execVecCommandStart (d c : Nat) (s : State) : Host.Outcome State Fault Refusal :=
  .next (let x := s.die d
    let v := x.vec c
    if v.running.isSome then s
    else match v.nextCmd with
      | none => s
      | some (k, ofWhisk) =>
        if (k.heavy && ! x.leave.granted (9 + c) k.key) || (ofWhisk && (s.panel.kats.find d).isSome) then s
        else s.setDie d (x.modVec c (fun v => { v with
          running := some k, lastOp := k.op, lastWhisk := ofWhisk
          queue := if ofWhisk then v.queue else v.queue.drop 1
          submitted := if ofWhisk then v.submitted.drop 1 else v.submitted })))

/-- Rows of a tile as they are stored, for the sieve. -/
def Tile.stored (t : Tile) (m : Mem) : List RowOut :=
  (List.range t.rows).map (fun r =>
    { data := m.readN (t.rowAddr r) t.rowBytes, scales := if isMX t.fmt then m.readN (t.scaleAddr r) t.scaleBytes else [] })

/-- Rows narrowed into a tile. -/
def narrowRows (t : Tile) (seed : Nat) (sr sat : Bool) (rows : List (List Nat)) : List RowOut :=
  rows.zipIdx.map (fun p => t.narrowRow seed p.2 sr sat p.1)

/-- What a command of a course does as its last write is accepted (R141 to R152). -/
def State.vecFinish (s : State) (d c : Nat) (k : VecCmd) : State :=
  let u := vecUse k.op
  let reads := [(1, k.a), (u.b, k.b), (u.c, k.c), (if u.y = 3 then 3 else 0, k.y), (if u.z = 3 || u.z = 4 then u.z else 0, k.z)]
  let s1 := s.panScans d k.org ((reads.filter (fun p => p.1 ≠ 0)).flatMap (fun p => p.2.spans))
  let x := s1.die d
  let out := k.compute x.mem.cells
  let ys := narrowRows k.y x.seed k.sr k.sat out.y
  let cs := narrowRows k.c x.seed k.sr k.sat out.c
  let zs := narrowRows k.z x.seed k.sr k.sat out.z
  let sats := ((ys ++ cs ++ zs).map RowOut.sats).foldl (· + ·) 0
  let y := (((x.writeRows k.y ys).writeRows k.c cs).writeRows k.z zs).modVec c (fun v => { v with
    running := none, satCount := satAdd 32 v.satCount sats })
  let s2 := s1.setDie d y
  let s3 := if k.op = 0x38 then s2.digestRows d k.org k.a (k.a.stored y.mem.cells)
    else if k.digest then s2.digestRows d k.org k.y ys else s2
  (s3.countTag d k.org).releaseLeave d (9 + c) k.key

/-- VEC_COMMAND_COMPLETE: the last write of the running command is accepted, and its tag counts (R152). -/
def execVecCommandComplete (d c : Nat) (s : State) : Host.Outcome State Fault Refusal :=
  .next (match ((s.die d).vec c).running with
    | none => s
    | some k => match k.bucket with
      | some b => (s.modDie d (fun x => x.modVec c (fun v => { v with running := none }))).whiskVecDone d b k.key k.op
      | none => s.vecFinish d c k)

/-- A stop of the menu, or teardown: queued commands that have not started are discarded (R152). -/
def Die.discardVec (x : Die) (turn : Nat) : Die :=
  [0, 1].foldl (fun x c =>
    let v := x.vec c
    ({ x with leave := v.queue.foldl (fun l k => l.drop turn (9 + c) k.key) x.leave } : Die).modVec c (fun v => { v with queue := [] })) x

end Sys2Proof.Machine
end

