-- ==== Sys2Proof/Machine/Kiln.lean ====
section
/-! DEFINITION. KILN_WRITE and the leave rows (R191, R372 to R382). -/
namespace Sys2Proof.Machine

/-! ### The kilns -/

/-- A kiln of the die: 0 HBM, 1 larder. -/
def MemUnit.kiln (m : MemUnit) (larder : Bool) : List KilnReq := if larder then m.larKiln else m.hbmKiln
def MemUnit.setKiln (m : MemUnit) (larder : Bool) (l : List KilnReq) : MemUnit :=
  if larder then { m with larKiln := l } else { m with hbmKiln := l }

/-- After a failed merge, what the kiln does with the later writes of the same descriptor: the blocks whose writes the
ladle had handed over are still written, and which those were is free (log 19). -/
def State.dropLater (s : State) (d : Nat) (larder : Bool) (o : KilnOwner) : State :=
  let q := (s.die d).mem.kiln larder
  let mine := q.filter (fun r => r.owner = o)
  if mine.isEmpty then s
  else
    let r := q.foldl (fun (a : List KilnReq × State × Nat) e =>
      if e.owner = o then
        let f := a.2.1.fresh
        if Config.freeHanded f.1 then (a.1 ++ [e], f.2, a.2.2) else (a.1, f.2, a.2.2 + 1)
      else (a.1 ++ [e], a.2.1, a.2.2)) ([], s, 0)
    r.2.1.modDie d (fun x =>
      let y : Die := { x with mem := x.mem.setKiln larder r.1 }
      match o with
      | .ladle ch key => y.modChan ch (fun c => c.modActive key (fun a => { a with kilnWrites := a.kilnWrites - r.2.2 }))
      | _ => y)

/-- The end of one kiln write for the unit that asked for it. -/
def State.kilnEnded (s : State) (d : Nat) (larder : Bool) (q : KilnReq) (res : KilnResult) : State :=
  let place := match res with
    | .gather g => g
    | _ => q.block
  match q.owner with
  | .ladle ch key =>
    let s1 := s.modDie d (fun x => x.modChan ch (fun c => c.modActive key (fun a => { a with kilnWrites := a.kilnWrites - 1 })))
    let code := res.code Code.ldlRegion Code.ldlFrozen
    if code = 0 then s1
    else match ((s.die d).chan ch).active.find? (fun a => a.key = key) with
      | none => s1
      | some a => (s1.dropLater d larder q.owner).stopDesc d ch key a.org place code
  | .whisk b c => s.whiskLanded d b c (res.code Code.glazeFault 0)
  | .remote session seq => s.modDie d (fun x => x.storeLanded session seq (res.code Code.glazeFault Code.rmtFrozen) s.turn)
  | .sieve => s

/-- The kiln writes the oldest block that it holds, or merges it after verifying the old block (R191). A failed merge leaves
the block as it is, and a block of a FROZEN region stays as it is, since the kiln's queue holds no write of the hearth (R188): the
whisk goes on as though it had been written (DESIGN CHOICE, log 183). Bytes that land count for the whisk (R344). -/
def State.kilnStep (s : State) (d : Nat) (larder : Bool) : State :=
  let x := s.die d
  match x.mem.kiln larder with
  | [] => s
  | q :: rest =>
    let m := x.mem.setKiln larder rest
    let r := if m.frozen q.block 4096 then (m, KilnResult.frozen) else m.kilnApply q.block q.pieces
    let y : Die := { x with mem := r.1.forget .kiln q.block 4096 }
    let z := if r.2 = .written then q.pieces.foldl (fun y p => y.landed (q.block + p.1) p.2.length) y else y
    (s.setDie d z).kilnEnded d larder q r.2

/-- KILN_WRITE. -/
def execKilnWrite (d : Nat) (larder : Bool) (s : State) : Host.Outcome State Fault Refusal := .next (s.kilnStep d larder)

/-- Writes to one block are applied in the order in which they reach the kiln: at most `k` steps of the kiln, until none of the
writes that wait is for `block` (R191). -/
def State.kilnClear (d block : Nat) (larder : Bool) : Nat → State → State
  | 0, s => s
  | k + 1, s => if ((s.die d).mem.kiln larder).any (fun q => q.block = block) then State.kilnClear d block larder k (s.kilnStep d larder) else s

/-! ### Leave (R373 to R381) -/

/-- The heavy request that a unit presents now: its command's key, cost, ticket (R372, R376). The whisk presents one request
at a time (R378). A vector command has reached the head of its unit once no command executes there: R152 does not say whether
one that executes still heads the queue (DESIGN CHOICE, log 186). -/
def Die.heavyAt (x : Die) (unit turn : Nat) : Option (Nat × Nat × Nat) :=
  if unit = 0 then
    if x.leave.grants.any (fun g => g.unit = 0) || x.leave.reqs.any (fun r => r.unit = 0) then none
    else ((x.whisk.insts.map Prod.fst).find? (fun b => x.dataDue b turn)).map (fun b => (b, 20, (x.inst b).ticket))
  else if unit ≤ 8 then
    let a := (unit - 1) / 2
    let k := if unit % 2 = 1 then (x.arr a).sq.head? else (x.arr a).wq.head?
    match k with
    | none => none
    | some k => if k.heavy && k.lead = a then some (k.key, k.cost, k.org.ticket) else none
  else if unit ≤ 10 then
    match (x.vec (unit - 9)).queue.head? with
    | none => none
    | some k => if k.heavy && (x.vec (unit - 9)).running.isNone then some (k.key, 24, k.org.ticket) else none
  else if unit ≤ 14 then
    match x.headDesc (unit - 11) with
    | none => none
    | some (f, run, b) =>
      if f.failCode = 0 && (lowestCode (x.descRules b run.v)).isNone && x.descHeavy b run.v then some (descKey f.run f.index, x.descCost b run.v, run.org.ticket) else none
  else none

/-- A heavy command of a known-answer test that runs at the die asks for unbooked leave (R456), at a cost that is free among those
of its unit; the command before it in the unit has completed. -/
def State.katRequest (s : State) (d unit : Nat) : State :=
  let x := s.die d
  if (s.panel.kats.find d).isNone || unit = 0 || decide (14 < unit) || x.leave.waiting unit katLeaveKey then s
  else
    let k := s.fresh
    let costs := katCosts unit
    let l := x.leave.release s.turn unit katLeaveKey
    k.2.setDie d { x with leave := { l with
      waited := true
      reqs := l.reqs ++ [{ unit := unit, key := katLeaveKey, cost := costs.getD (Config.freeKatCost k.1 % costs.length) 0, ticket := 0
                           turn := s.turn }] } }

/-- The test of a die has ended: what it held or waited for goes. -/
def Leave.katEnded (l : Leave) (turn : Nat) : Leave :=
  ((List.range 14).map (· + 1)).foldl (fun l u => l.drop turn u katLeaveKey) l

/-- LEAVE_REQUEST: a heavy command at the head of its unit presents its request on its ticket of the turn (R373); where no command
heads the unit, it may be one of a known-answer test. -/
def execLeaveRequest (d unit : Nat) (s : State) : Host.Outcome State Fault Refusal :=
  .next (let x := s.die d
    match x.heavyAt unit s.turn with
    | none => s.katRequest d unit
    | some (key, cost, ticket) =>
      if x.leave.waiting unit key || x.leave.granted unit key then s
      else s.setDie d { x with leave := { x.leave with
        waited := true
        reqs := x.leave.reqs ++ [{ unit := unit, key := key, cost := cost, ticket := ticket, turn := s.turn }] } })

/-- The first waiting request that can be granted now, in the order of presentation; a request that needs headroom
waits behind every earlier one that waits for it (R376). -/
def Leave.firstGrant (l : Leave) (turn : Nat) : List LvReq → Bool → Option (LvReq × Nat × Nat)
  | [], _ => none
  | r :: rs, ahead =>
    match l.draw turn r ahead with
    | some p => some (r, p)
    | none => l.firstGrant turn rs true

/-- LEAVE_GRANT: one waiting request is granted from its ticket or from headroom (R376). -/
def execLeaveGrant (d : Nat) (s : State) : Host.Outcome State Fault Refusal :=
  .next (let x := s.die d
    match x.leave.firstGrant s.turn x.leave.reqs false with
    | none => s
    | some (r, p) =>
      s.setDie d { x with leave := x.leave.give s.turn r p })

/-- RAMP_FALL: held leave has stayed below the ramp level for 1,024 cycles (R380). -/
def execRampFall (d : Nat) (s : State) : Host.Outcome State Fault Refusal :=
  .next (s.modDie d (fun x => { x with leave := x.leave.rampFall }))

/-- LVE_BOOK: the level of a ticket of the next turn in place of the plan's (R381). -/
def execLveBook (d c t : Nat) (w : W64) (s : State) : Host.Outcome State Fault Refusal :=
  .next (s.issue d c t w 6 1 (fun s o =>
    let k := wField w 45 42
    let v := wField w 8 0
    s.checked d o [(! bodyOk w (maskOf 45 42 + maskOf 8 0) || wTicket w ≠ 0 || k = 0 || decide (420 < v), Code.leaveDecode)]
      ((s.modDie d (fun x => { x with leave := { x.leave with overrides := x.leave.overrides.put k v } })).countTag d o)))

/-- LVE_RELEASE: a ticket's undrawn level returns to headroom (R381). -/
def execLveRelease (d c t : Nat) (w : W64) (s : State) : Host.Outcome State Fault Refusal :=
  .next (s.issue d c t w 6 2 (fun s o =>
    let k := wField w 45 42
    s.checked d o [(! bodyOk w (maskOf 45 42) || wTicket w ≠ 0 || k = 0, Code.leaveDecode)]
      ((s.modDie d (fun x => { x with leave := { x.leave with undrawn := x.leave.undrawn.put k 0 } })).countTag d o)))

/-! ### The tick of the leave controller (R375) -/

/-- Step 1: requests that have waited since before the previous tick are granted in order until one does not fit. -/
def Leave.serveOld : Nat → Nat → Leave → Leave
  | 0, _, l => l
  | k + 1, turn, l =>
    match l.reqs.find? (fun r => decide (2 ≤ r.ticksWaited)) with
    | none => l
    | some r => if l.held + r.cost ≤ l.cur then Leave.serveOld k turn (l.give turn { r with ticket := 0 } (0, r.cost)) else l

/-- Step 2: tickets 1 to 15 take their booked levels, trimmed to the budget. -/
def Leave.setUp (l : Leave) (levels : Nat → Nat) : Leave :=
  ((List.range 15).map (· + 1)).foldl (fun l k =>
    let want := levels k
    let room := l.cur - (l.held + l.reserved)
    let got := min want room
    { l with undrawn := if got = 0 then l.undrawn.del k else l.undrawn.put k got, trimmed := satAdd 32 l.trimmed (want - got) }) l

/-- The tick: the budget comes into force, tickets lapse, old requests are served, and the new tickets are set up from
`plan`, an LVE_BOOK standing in place of the plan's level. -/
def Leave.tick (l : Leave) (turn : Nat) (plan : Nat → Nat) : Leave :=
  let l1 : Leave := { l.rampTurn with
    cur := l.next
    undrawn := []
    reqs := l.reqs.map (fun r => { r with ticket := 0, ticksWaited := r.ticksWaited + 1 }) }
  let l2 := Leave.serveOld l1.reqs.length turn l1
  let l3 := l2.setUp (fun k => l.overrides.getD k (plan k))
  { l3 with booked := l3.undrawn, overrides := [], moved := false }

end Sys2Proof.Machine
end

