-- ==== Sys2Proof/Machine/Observe.lean ====
section
/-! DEFINITION. The sieve's records, the performance counters, port windows and trace capture (R469 to R486). -/
namespace Sys2Proof.Machine

/-! ### Claims of a menu (R485) -/

/-- One entry of the shared-resource section. -/
structure Claim where
  die : Nat := 0
  kind : Nat := 0
  index : Nat := 0
  value : Nat := 0
  deriving DecidableEq, Repr

def Menu.claimCount (m : Menu) : Nat := leAt m.pkg (m.section_ 3) 4
def Menu.claims (m : Menu) : List Claim :=
  (List.range m.claimCount).map (fun i =>
    let b := sliceAt m.pkg (m.section_ 3 + 4 + 16 * i) 16
    { die := byteAt b 0, kind := byteAt b 1, index := leAt b 2 2, value := leAt b 8 8 })

/-- The claim of a die of one kind and index. -/
def Menu.claimOf (m : Menu) (die kind index : Nat) : Option Claim :=
  m.claims.find? (fun c => c.die = die && c.kind = kind && c.index = index)

def Menu.active (m : Menu) : Bool := m.state = .launched || m.state = .running

/-- The use that a LAUNCHED or RUNNING menu makes of SB_GP0: 1 trigger in, 2 pulse out, 3 turn tick out; 0 when
unclaimed (R483, R494). -/
def State.gp0 (s : State) : Nat :=
  match s.menus.find? (fun m => m.active && (m.claimOf 0xFF 6 0).isSome) with
  | some m => ((m.claimOf 0xFF 6 0).map Claim.value).getD 0
  | none => 0

/-! ### The sieve (R471, R472) -/

/-- The sieve hands its buffer, padded with zero records, to the kiln as the next whole block of the digest ring. -/
def Die.sieveWrite (x : Die) : Die :=
  let v := x.sieve
  if v.records.isEmpty || v.ringBlocks = 0 then x
  else
    let bs := v.records.flatten
    let block := bs ++ List.replicate (4096 - bs.length) 0
    let next := if v.nextBlock + 1 = v.ringBlocks then 0 else v.nextBlock + 1
    { x with
      mem := x.mem.kilnPush { owner := .sieve, block := v.ringBase + 4096 * v.nextBlock, pieces := [(0, block)] }
      sieve := { v with records := [], nextBlock := next, wraps := if next = 0 then satAdd 16 v.wraps 1 else v.wraps } }

/-- The record of a closed accumulator. -/
def Acc.record (a : Acc) (turn die menu : Nat) : Bytes :=
  leBytes 6 (turn % 2 ^ 48) ++ leBytes 1 die ++ leBytes 1 a.core ++ leBytes 4 a.tensor ++ leBytes 4 a.pieces ++
    leBytes 8 a.digest ++ leBytes 8 menu ++ leBytes 6 a.off ++ List.replicate 26 0

/-- Insert by rising TENSOR_ID. -/
def insertAcc (a : Acc) : List Acc → List Acc
  | [] => [a]
  | b :: t => if a.tensor ≤ b.tensor then a :: b :: t else b :: insertAcc a t

/-- An array command passes its rows to the sieve (R469). -/
def ArrCmd.digests (k : ArrCmd) : Bool :=
  match k.op with
  | .matmul _ _ _ _ _ _ _ dig _ _ => dig
  | _ => false

/-- A vector command passes its rows to the sieve. -/
def VecCmd.digests (k : VecCmd) : Bool := k.bucket.isNone && (k.digest || k.op = 0x38)

/-- A DIGEST command of course `off` of a core has not completed (R471). -/
def Die.digesting (x : Die) (c off : Nat) : Bool :=
  let own := fun (o : Origin) => o.core = c && o.off = off
  [0, 1, 2, 3].any (fun a => ((x.arr a).sq ++ (x.arr a).flights.map Flight.cmd).any (fun k => k.digests && own k.org)) ||
    [0, 1].any (fun v => ((x.vec v).queue ++ (x.vec v).running.toList).any (fun k => k.digests && own k.org))

/-- ACCUMULATOR_CLOSE: the course has finished and every DIGEST command issued in it has completed, so its accumulators
write their records, in ascending TENSOR_ID, and free. A full buffer goes to the digest ring; after the end of the menu
the buffer goes at once, padded (R471, R472). -/
def execAccumulatorClose (d c off : Nat) (s : State) : Host.Outcome State Fault Refusal :=
  .next (let x := s.die d
    let q := x.seq c
    let accs := (x.sieve.accs.filter (fun a => a.core = c && a.off = off)).foldl (fun l a => insertAcc a l) []
    if accs.isEmpty || q.off ≤ off || x.digesting c off then s
    else
      let ended := match q.menu.bind s.menu with
        | some m => ! m.active
        | none => true
      let y : Die := { x with sieve := { x.sieve with accs := x.sieve.accs.filter (fun a => ! (a.core = c && a.off = off)) } }
      let z := accs.foldl (fun (y : Die) a =>
        let y1 : Die := { y with sieve := { y.sieve with
          records := y.sieve.records ++ [a.record (q.start + off) x.standsFor (q.menu.getD 0)] } }
        if y1.sieve.records.length = 64 then y1.sieveWrite else y1) y
      s.setDie d (if ended then z.sieveWrite else z))

/-! ### Counters (R474 to R479) -/

/-- Bring the counters of cores up to now: an enabled counter whose event the model's steps do not present one by one, or
that counts by edge, has counted a number that is free (log 3). CYCLES has one edge, in the first cycle after ENABLE became 1 (R476). -/
def State.settle (s : State) (d : Nat) : State :=
  if (s.die d).obs.held then s else
  ((s.die d).obs.cnts.map Prod.fst).foldl (fun s i =>
    let k := (s.die d).obs.cnts.getD i {}
    if k.enable && k.edge && k.event = evCycles then
      if k.seen then s
      else s.modDie d (fun x => { x with obs := { x.obs with cnts := x.obs.cnts.put i { k.add 1 with seen := true } } })
    else if k.enable && k.event ≠ 0 && (k.edge || ! countedEvent k.event) then
      let f := s.fresh
      f.2.modDie d (fun x => { x with obs := { x.obs with cnts := x.obs.cnts.put i (k.add (Config.freeCount f.1)) } })
    else s) s

/-- What a test of the die at a checkpoint adds to the counters that the model's steps count one by one: the spec states no
numbers of the test's work, so they are free (R476, log 203). -/
def State.katCounts (s : State) (d : Nat) : State :=
  if (s.die d).obs.held then s else
  ((s.die d).obs.cnts.map Prod.fst).foldl (fun s i =>
    let k := (s.die d).obs.cnts.getD i {}
    if k.enable && ! k.edge && k.event ≠ 0 && countedEvent k.event then
      let f := s.fresh
      f.2.modDie d (fun x => { x with obs := { x.obs with cnts := x.obs.cnts.put i (k.add (Config.freeCount f.1)) } })
    else s) s

/-- The counter counts the issue of words one by one. -/
def Cnt.issues (k : Cnt) : Bool := k.enable && ! k.edge && k.event = evIssue

/-- ENABLE becomes `v`. A counter that comes to be enabled starts as after a cycle with e = 0 (R476). -/
def Cnt.setEnable (k : Cnt) (v : Bool) : Cnt := { k with enable := v, seen := k.seen && (k.enable || ! v) }

/-- COUNT and OVF become zero: in a cycle with an event the count is that cycle's increment (R479). The cycle is that of a CNT_CTL,
whose own issue is an event. -/
def Cnt.zero (k : Cnt) (held : Bool) : Cnt := { k with count := if k.issues && ! held then 1 else 0, ovf := false }

/-- The CNT_VALUE word of a counter. -/
def Cnt.value (k : Cnt) : Nat := (if k.ovf then 2 ^ 63 else 0) + k.count

/-- The four words of CNT_PORTp (R480). -/
def PortCnt.words (p : PortCnt) : List Nat :=
  [p.snapTxFlits % 2 ^ 32 * 2 ^ 32 + p.snapRxFlits % 2 ^ 32, p.snapTxBytes % 2 ^ 48, p.snapRxBytes % 2 ^ 48,
   p.windows % 65536 * 2 ^ 48 + p.endTurn % 2 ^ 48]

/-- The words that a CNT_READ of core `c` samples from `x`: the CNT_VALUE of each counter in MASK, ascending, or the words of the
four CNT_PORTp. A counter of issued words gives its value before the cycle of the read, from `before` (R477, R479). -/
def cntWords (before x : Die) (c set mask : Nat) : List Nat :=
  if set = 0 then ((List.range 16).filter (fun i => mask.testBit i)).map (fun i =>
    (if (x.cnt c i).issues then before.cnt c i else x.cnt c i).value)
  else (List.range 4).flatMap (fun p => (x.obs.ports.getD p {}).words)

/-- CNT_READ: counter values or port snapshots go to the pantry, when user code may read them (R477, R478). -/
def execCntRead (d c t : Nat) (w : W64) (s0 : State) : Host.Outcome State Fault Refusal :=
  .next (s0.issue d c t w 7 1 (fun s o =>
    let set := wField w 45 44
    let mask := wField w 15 0
    let pan := pantryBase + 64 * wField w 41 21
    let s1 := if set = 0 then s.settle d else s
    let words := cntWords (s0.die d) (s1.die d) c set mask
    s1.checked d o
      [(! bodyOk w (maskOf 45 44 + maskOf 41 21 + maskOf 15 0) || wTicket w ≠ 0 || decide (2 ≤ set) || (set = 1 && mask ≠ 0) ||
          decide (pantryEnd < pan + 8 * words.length), Code.cntDecode),
       (! (s.panel.job.map Job.counterRead).getD false, Code.cntReadDenied)]
      ((s1.panStore d pan (words.flatMap (leBytes 8))).countTag d o)))

/-- CNT_CTL: the counters in the mask are enabled, disabled or zeroed (R477). -/
def execCntCtl (d c t : Nat) (w : W64) (s : State) : Host.Outcome State Fault Refusal :=
  .next (s.issue d c t w 7 2 (fun s o =>
    let act := wField w 45 44
    let mask := wField w 15 0
    let s1 := s.settle d
    let f := fun (k : Cnt) => if act = 0 then k.setEnable true else if act = 1 then k.setEnable false else k.zero (s1.die d).obs.held
    s1.checked d o [(! bodyOk w (maskOf 45 44 + maskOf 15 0) || wTicket w ≠ 0 || act = 3, Code.cntDecode)]
      ((s1.modDie d (fun x =>
        let n := ((List.range 16).filter (fun i => mask.testBit i)).foldl (fun n i => n.put (16 * c + i) (f (n.getD (16 * c + i) {})))
          x.obs.cnts
        { x with obs := { x.obs with cnts := n } })).countTag d o)))

/-! ### Windows (R480) -/

/-- The port counts of a pair move to the snapshot and restart. -/
def PortCnt.close (p : PortCnt) (turn : Nat) : PortCnt :=
  { p with
    txFlits := 0, rxFlits := 0, txBytes := 0, rxBytes := 0
    snapTxFlits := p.txFlits, snapRxFlits := p.rxFlits, snapTxBytes := p.txBytes, snapRxBytes := p.rxBytes
    windows := (p.windows + 1) % 65536, endTurn := turn }

/-- PORT_WINDOW_END: at the tick of a turn whose number is a multiple of the W in force. -/
def execPortWindowEnd (d : Nat) (s : State) : Host.Outcome State Fault Refusal :=
  .next (let o := (s.die d).obs
    if o.wNow = 0 || s.turn % o.wNow ≠ 0 || ((o.ports.getD 0 {}).windows ≠ 0 && (o.ports.getD 0 {}).endTurn = s.turn) then s
    else s.modDie d (fun x =>
      let n := [0, 1, 2, 3].foldl (fun t p => t.put p ((t.getD p {}).close s.turn)) x.obs.ports
      { x with obs := { x.obs with ports := n } }))

/-! ### Trace capture (R481, R482) -/

/-- Hearth fault capture of a half: SOURCE SEQ for core h, STOP never. -/
def captureCfg (h : Nat) : Nat := 2 ^ 63 + 1 * 2 ^ 60 + 3 * 2 ^ 53 + h * 2 ^ 49
def captureHalf (h : Nat) : Half := { cfg := captureCfg h, run := true }

/-- A half starts recording; a half that records already is not affected. PULSE_OUT drives SB_GP0 (R481, R494). -/
def State.startHalf (s : State) (d h : Nat) : State :=
  let k := if h = 0 then (s.die d).obs.half0 else (s.die d).obs.half1
  if k.run || k.frozen then s
  else
    let s1 := s.modDie d (fun x => x.modHalf h (fun k => { k with run := true }))
    if k.cfg.testBit 48 && s.gp0 = 2 then { s1 with outbox := s1.outbox ++ [.pulse 1000] } else s1

/-- SAMPLE_WINDOW_END: each half with source SAMPLE records six records per core (R481). -/
def execSampleWindowEnd (d : Nat) (s : State) : Host.Outcome State Fault Refusal :=
  .next (let w1 := (s.die d).obs.w1
    if w1 = 0 || s.turn % w1 ≠ 0 then s
    else
      let s1 := s.settle d
      let x := s1.die d
      let recs := [0, 1].flatMap (fun c => [0, 3, 6, 9, 12, 15].map (fun i =>
        traceHead s.turn (256 * c + i) ++ [0, 1, 2].flatMap (fun j => leBytes 8 (if i + j < 16 then (x.cnt c (i + j)).value else 0))))
      let f := fun (h : Half) => if h.source = 3 then recs.foldl (fun h r => h.record r) h else h
      s1.modDie d (fun x => (x.modHalf 0 f).modHalf 1 f))

/-- The half stops by a timer that fires at this turn and reference count (R482). -/
def Die.stopsAt (x : Die) (v : Half) (turn ref : Nat) : Bool :=
  v.cfg.testBit 63 && v.stop = 1 && (match x.obs.timers.find v.stopT with
    | some t => t.turn = turn && t.ref = ref
    | none => false)

/-- SLOT_TIMER_FIRE: a turn-slot timer fires once in its turn and starts or stops the halves that name it; a start and a
stop of one half in one cycle record nothing, whether one timer or two make them (R482). -/
def execSlotTimerFire (d k : Nat) (s : State) : Host.Outcome State Fault Refusal :=
  .next (let t := (s.die d).obs.timers.getD k {}
    if ! t.armed || t.turn ≠ s.turn then s
    else
      let s1 := s.modDie d (fun x => { x with obs := { x.obs with timers := x.obs.timers.put k { t with armed := false } } })
      [0, 1].foldl (fun s h =>
        let v := if h = 0 then (s.die d).obs.half0 else (s.die d).obs.half1
        let stop := v.cfg.testBit 63 && v.stop = 1 && v.stopT = k
        let start := v.cfg.testBit 63 && v.start = 1 && v.startT = k && ! (s.die d).stopsAt v t.turn t.ref
        if stop then s.modDie d (fun x => x.modHalf h (fun v => { v with run := false }))
        else if start then s.startHalf d h else s) s1)

/-- SB_GP0_EDGE: a rising edge on SB_GP0, claimed as trigger in, starts the halves of the claiming menu's dies that wait for
it (R481, R494). -/
def execSbGp0Edge (s : State) : Host.Outcome State Fault Refusal :=
  .next (match s.menus.find? (fun m => m.active && decide ((m.claimOf 0xFF 6 0).map Claim.value = some 1)) with
    | none => s
    | some m => (m.dies.filterMap s.siteOf).foldl (fun s d => [0, 1].foldl (fun s h =>
        let v := if h = 0 then (s.die d).obs.half0 else (s.die d).obs.half1
        if v.cfg.testBit 63 && v.start = 2 then s.startHalf d h else s) s) s)

end Sys2Proof.Machine
end

