-- ==== Sys2Proof/Machine/Menus.lean ====
section
/-! DEFINITION. Replies and journal entries (R413, R414, R421), and the end of a menu: DONE, ABORTED or INTERRUPTED
(R74, R75, R83, R221, R472, R482 to R484). -/
namespace Sys2Proof.Machine

/-! ### Replies and journal entries -/

/-- A REPLY leaves for the host; its ARG is the hatch's NEXT_SEQ (R406). -/
def State.reply (s : State) (h seq opcode : Nat) (stage : Stage) (code : Nat) (single : Bool) (payload : Bytes) : State :=
  { s with outbox := s.outbox ++ [.reply h seq opcode (s.panel.hatch h).nextSeq stage code single payload] }

def State.modPanel (s : State) (f : Panel → Panel) : State := { s with panel := f s.panel }

/-- The journal entry of a hatch and SEQ (R413). -/
def Panel.entry (p : Panel) (h seq : Nat) : Option Entry := p.journal.find? (fun e => e.hatch = h && e.seq = seq)

def State.modEntry (s : State) (h seq : Nat) (f : Entry → Entry) : State :=
  s.modPanel (fun p => { p with journal := p.journal.map (fun e => if e.hatch = h && e.seq = seq then f e else e) })

/-- A command of the hatch has FINISHED: the highest such SEQ is kept with its CODE. ACCEPT_INDEX rises with SEQ within one numbering
and from one numbering to the next (R3, R432, log 173). -/
def Hatch.noteFinish (x : Hatch) (seq code index : Nat) : Hatch :=
  if x.finIndex ≤ index then { x with finSeq := seq, finCode := code, finIndex := index } else x

/-- The EXECUTING entry of a hatch whose command has an opcode. -/
def Panel.executing (p : Panel) (h op : Nat) : Option Entry :=
  p.journal.find? (fun e => e.hatch = h && e.state = .executing && e.opcode = op)

/-- An entry becomes FINISHED and its FINISH leaves (R415, R421). An entry that is gone changes nothing. -/
def State.finishEntry (s : State) (h seq code : Nat) (answer : Bytes) : State :=
  match s.panel.entry h seq with
  | none => s
  | some e => ((s.modEntry h seq (fun e => { e with state := .finished, code := code, answer := answer })).modPanel (fun p =>
      p.modHatch h (fun x => x.noteFinish seq code e.index))).reply h seq e.opcode .finish code false answer

/-! ### Outcomes (R75, R424) -/

/-- The last completed turn offset; all ones when no offset is complete. -/
def Menu.lastDone (m : Menu) : Nat :=
  let k := (m.dies.flatMap (fun n => [m.finished.getD (2 * n) 0, m.finished.getD (2 * n + 1) 0])).foldl min m.offsets
  if k = 0 then 2 ^ 48 - 1 else k - 1

/-- The FINISH payload of LAUNCH (R424). -/
def Menu.outcome (m : Menu) (e : CourseErr) : Bytes :=
  leBytes 8 m.id ++ leBytes 6 m.lastDone ++ leBytes 1 e.die ++ leBytes 1 e.core ++ leBytes 6 e.off ++ leBytes 1 e.thread ++
    [0] ++ leBytes 4 e.word ++ List.replicate 32 0

def Menu.queues (m : Menu) : List (Nat × Nat) :=
  (List.range m.queueCount).map (fun i => (byteAt (m.queueBytes i) 0, leAt (m.queueBytes i) 2 2))

/-! ### A die leaves a menu -/

/-- The hearth flushes and disables a queue of the menu (R221). -/
def Die.closeQueue (x : Die) (q : Nat) : Die :=
  let y := x.flushQueue q
  y.setQueue q { y.queue q with enable := false }

/-- A half whose menu has left RUNNING goes back to fault capture; capture freezes when the menu ended ABORTED (R482,
R483). A half that the menu claimed keeps its records. -/
def Half.giveBack (k : Half) (h : Nat) (claimed aborted : Bool) : Half :=
  if claimed then { k with cfg := captureCfg h, run := true }
  else if aborted then { k with run := false, frozen := true } else k

/-- The panel's own holdings of a die after a menu has left RUNNING: its window timers, turn-slot timers, trace halves,
FAB_ARB when a bound plan held it (`weights`), and THM_CFG.MANAGED (R341, R389, R483). -/
def Die.leaveMenu (x : Die) (m : Menu) (n : Nat) (weights aborted : Bool) : Die :=
  let o := x.obs
  let claimed := fun h => (m.claimOf n 4 h).isSome
  { x with
    obs := { o with
      held := false
      w0 := if (m.claimOf n 3 0).isSome then 1024 else o.w0
      w1 := if (m.claimOf n 3 1).isSome then 0 else o.w1
      timers := []
      half0 := o.half0.giveBack 0 (claimed 0) aborted
      half1 := o.half1.giveBack 1 (claimed 1) aborted }
    fab := if weights then { x.fab with arbCtl := 1, arbCol := 4, arbRsp := 2, arbReq := 2 } else x.fab
    thermal := { x.thermal with managed := true } }

/-- The units of a die discard what has not started (R105, R152, R206). -/
def Die.discardQueued (x : Die) (turn : Nat) : Die := ((x.discardArrays turn).discardVec turn).discardLadle turn

/-- The cores of a die stop issuing, their messages that were refused as full are no longer sent, and the units discard what has
not started (R83, R217). -/
def Die.stopCores (x : Die) (turn : Nat) : Die :=
  [0, 1].foldl (fun y c => (y.haltSends c).modSeq c (fun q => { q with running := false, stopped := true })) (x.discardQueued turn)

/-- The end of a menu at one of its dies. The whisk keeps nothing across it: an open instance ends with its cause of abort
(R342, R363). -/
def State.endAtDie (s : State) (m : Menu) (n d : Nat) (code : Nat) : State :=
  let s1 := (if code = 0 then s else s.modDie d (fun x => x.stopCores s.turn)).whiskStopped d
  let w := (m.binds s.panel.plans).any (fun k => leAt k.plan 0x00E 2 ≠ 0 && k.diesOf.contains n)
  let s2 := (m.queues.filter (fun q => q.1 = n)).foldl (fun s q => s.modDie d (fun x => x.closeQueue q.2)) s1
  s2.modDie d (fun x => (x.leaveMenu m n w (code ≠ 0 && code ≠ Code.interrupted)).sieveWrite)

/-- A hearth serves, and takes the reports of the dies (R402, R417). -/
def Panel.hears (p : Panel) : Bool := p.server.isSome && p.takeover.isNone

/-- A menu leaves LAUNCHED or RUNNING: code 0 for DONE, INTERRUPTED, or the code of its first error. The entry of its LAUNCH
becomes FINISHED (R415), and the outcome is logged (R461). While no hearth takes the reports of the dies, they keep them, and the menu
stays as it is (R417). -/
def State.endMenu (s : State) (id code : Nat) (e : CourseErr) : State :=
  match s.menu id with
  | none => s
  | some m =>
    if ! m.active then s
    else if ! s.panel.hears then
      (if code = 0 then s else s.modMenu id (fun m => { m with err := some (m.err.getD e) }))
    else
      let s1 := m.dies.foldl (fun s n => match s.siteOf n with
        | some d => s.endAtDie m n d code
        | none => s) s
      let s2 := s1.modMenu id (fun m => { m with state := .loaded, err := none })
      let s3 := match m.launchHatch with
        | some h => s2.finishEntry h m.launchSeq code (m.outcome e)
        | none => s2
      if code = 0 then s3.logEvent 4 id m.lastDone noSubject
      else s3.modPanel (fun p => p.addLog { code := code, turn := s.turn, arg2 := id, arg3 := m.lastDone,
                                            time := p.ptp.getD 0 })

/-- The error that stands for a stop by the panel itself: no word applies, and the die where one is the cause (R424). -/
def panelErr (code die : Nat) : CourseErr := { code := code, die := die }

/-- Every LAUNCHED or RUNNING menu that meets `p` is ABORTED with `e` (R74, R327). -/
def State.abortMenus (s : State) (p : Menu → Bool) (e : CourseErr) : State :=
  ((s.menus.filter (fun m => m.active && p m)).map Menu.id).foldl (fun s id => s.endMenu id e.code e) s

/-- MENU_ABORT: the hearth stops every core of a menu whose first error has been reported (R83, R462). -/
def execMenuAbort (menu : Nat) (s : State) : Host.Outcome State Fault Refusal :=
  .next (match s.menu menu with
    | none => s
    | some m => match m.err with
      | none => s
      | some e => s.endMenu menu e.code e)

end Sys2Proof.Machine
end

