-- ==== Sys2Proof/Machine/Resets.lean ====
section
/-! DEFINITION. Power domains (R369 to R371), vacant numbers and spares (R44 to R46, R53), what each kind of reset keeps
(R436), the rewriting of a die, and the failure handling of R443 and R457. -/
namespace Sys2Proof.Machine

/-! ### Power domains -/

abbrev allDomains : Nat := 2 ^ 30 - 1
abbrev alwaysOn : Nat := 2 ^ 29

/-- What survives of a pair's registers without power: the counters that clear only at cold reset (R259, R369). -/
def Pair.countsOnly (k : Pair) : Pair :=
  { fecCorrected := k.fecCorrected, fecUncorrectable := k.fecUncorrectable, replayCount := k.replayCount
    safetyTrips := k.safetyTrips, trainFailCount := k.trainFailCount, linkLosts := k.linkLosts }

/-- The snapshot registers of a port window (R480). -/
def PortCnt.snapOnly (p : PortCnt) : PortCnt := { p with txFlits := 0, rxFlits := 0, txBytes := 0, rxBytes := 0 }

/-- The bank of a pantry address (R175). -/
def bankOf (a : Nat) : Nat := (a - pantryBase) / (12 * 1048576)

/-- A domain that is switched off loses its contents (R370). -/
def Die.domainOff (x : Die) (n : Nat) : Die :=
  if n < 4 then { x with arrs := x.arrs.del n }
  else if n < 6 then { x with vecs := x.vecs.del (n - 4) }
  else if n < 8 then
    { x with seqs := x.seqs.del (n - 6), gangs := x.gangs.del (n - 6), tiles := x.tiles.filter (fun e => e.1 / 32 ≠ n - 6) }
  else if n < 16 then
    let gone := fun (a : Nat) => decide (pantryBase ≤ a) && bankOf a = n - 8
    { x with mem := { x.mem with
        cells := x.mem.cells.filter (fun c => ! gone c.1)
        panSingle := x.mem.panSingle.filter (fun w => ! gone (8 * w))
        panBad := x.mem.panBad.filter (fun w => ! gone (8 * w)) } }
  else if n < 20 then x
  else if n < 22 then
    { x with mem := { x.mem with
        hbmTrained := setBit x.mem.hbmTrained (n - 20) false, hbmCorrected := x.mem.hbmCorrected.del (n - 20), hbmUncorrected := x.mem.hbmUncorrected.del (n - 20) } }
  else if n = 22 then { x with mem := { x.mem with larTrained := false, gatherRows := 0 } }
  else if n < 25 then
    { x with pairs := x.pairs.mapVal (fun p k => if p / 2 = n - 23 then k.countsOnly else k) }
  else if n = 25 then { x with ladle := {}, pool := {}, mem := { x.mem with hbmKiln := [], larKiln := [], regions := [], fails := [] } }
  else if n = 26 then { x with whisk := {} }
  else if n = 27 then { x with fab := {}, rem := { quiet := x.rem.quiet } }
  else if n = 28 then { x with sieve := {}, obs := { ports := x.obs.ports.mapVal (fun _ p => p.snapOnly) } }
  else x

/-- Every domain but ALWAYS_ON off (R371). Memories go to self-refresh and keep HBM and larder (R207); requests and grants
of leave end with their units; PAN_ECC goes with the pantry. -/
def Die.off (x : Die) : Die :=
  let y := (List.range 29).foldl Die.domainOff x
  { y with
    mem := { y.mem with selfRefresh := true, panCorrected := 0, panUncorrectable := 0, panLastBank := 0 }
    leave := { y.leave with reqs := [], grants := [] }
    power := { y.power with on := alwaysOn, good := alwaysOn } }

/-- THM_COUNT stands, and so does SHUTDOWN (R391, R396); the rest of the thermal block takes its reset values. -/
def Thermal.reset (t : Thermal) : Thermal :=
  { state := if t.state = .shutdown then .shutdown else .normal
    slopeHolds := t.slopeHolds, throttles := t.throttles, graceExpired := t.graceExpired, hbmThrottles := t.hbmThrottles }

/-- A die as its reset leaves it: domains off and ALWAYS_ON registers at their reset values (R436). The 140 quiet turns of
R328 begin. The straps read as before until the reset ends and samples them anew (R28). -/
def Die.reset (x : Die) : Die :=
  let y := x.off
  { y with
    leave := {}, thermal := y.thermal.reset, rem := { quiet := 141 }
    seed := 0, standsFor := 0x3F, siteNum := 0x3F, featureEnable := 1 }

/-- The registers that the hearth wrote and that R436 rewrites from its state store: everything else at reset values. -/
def Die.image (x : Die) : Die :=
  { ladle := { descBase := x.ladle.descBase, descCount := x.ladle.descCount }
    obs := { w0 := x.obs.w0, wNow := x.obs.wNow, w1 := x.obs.w1
             cnts := x.obs.cnts.mapVal (fun _ k => { enable := k.enable, edge := k.edge, event := k.event }) }
    pool := { queues := x.pool.queues.mapVal (fun q k => if q < 4 then Queue.ladleReset else
      { enable := k.enable, consumer := k.consumer, maxItemM1 := k.maxItemM1, max := k.max, minRes := k.minRes
        idleTo := k.idleTo, batch := k.batch, idleAct := k.idleAct, lastFlush := k.lastFlush }) }
    fab := { markTh := x.fab.markTh, nmMarks := x.fab.nmMarks, nmDepth := x.fab.nmDepth, wMax := x.fab.wMax, wInit := x.fab.wInit
             wMin := x.fab.wMin, t2Hi := x.fab.t2Hi, t2Lo := x.fab.t2Lo
             arbCtl := x.fab.arbCtl, arbCol := x.fab.arbCol, arbRsp := x.fab.arbRsp, arbReq := x.fab.arbReq }
    leave := { next := x.leave.next }
    thermal := { hbmThrottle := x.thermal.hbmThrottle, hbmWarn := x.thermal.hbmWarn } }

/-! ### Sites in service -/

/-- A home number of R24. -/
def homeNumber (n : Nat) : Bool := decide (n < 52) && n % 13 ≠ 12

/-- The die of an ACTIVE site is in service: not in a reset or a repeat, not held at ALWAYS_ON. -/
def State.inService (s : State) (d : Nat) : Bool :=
  s.activeSite d && (s.panel.restarts.find d).isNone && ! s.panel.out.contains d && ! (s.die d).power.shutdown

/-- A logical die number is VACANT (R53, R391, R427, R439, R443): no ACTIVE site in service serves it. -/
def State.vacant (s : State) (n : Nat) : Bool :=
  match s.siteOf n with
  | some d => ! s.inService d
  | none => true

/-- PNL_SITE_SUMMARY (R53). -/
def State.siteSummary (s : State) : Nat :=
  (List.range 52).foldl (fun w n => if homeNumber n && s.vacant n then w + 2 ^ n else w) 0

/-- SITE_VACANT about a number, with the site that last served it (R511). -/
def State.vacantNotice (s : State) (n site : Nat) : State := s.notice Code.siteVacant (dieSubject n) site 0 0

/-! ### Site maps (R44 to R46) -/

abbrev SiteMap := Tab SiteEntry

def SiteMap.entry (m : SiteMap) (d : Nat) : SiteEntry := m.getD d { state := .off, standsFor := 0x3F }

/-- Ports that two sites share (R46). -/
def sharedPorts (a b : Nat) : Nat := ((List.range 4).filter (fun p => (pairOn b (portOf a p)).isSome)).length

/-- R46: a spare site takes the vacant number `v` of site `f` in the pending map. -/
def SiteMap.substitute (m : SiteMap) (v f : Nat) : SiteMap :=
  if m.any (fun e => e.2.state = .active && e.2.standsFor = v) then m
  else
    let cs := ([12, 25, 38, 51] : List Nat).filter (fun d => (m.entry d).state = .spare)
    match cs with
    | [] => m
    | c :: rest =>
      let best := rest.foldl (fun b d => if sharedPorts b f < sharedPorts d f then d else b) c
      m.put best { state := .active, standsFor := v }

/-- A stepping lies within a compatibility class (R51). -/
def classAdmits (cls stepping : Nat) : Bool := if cls = 1 then decide (stepping ≤ 2) else stepping = 2

/-- The FINISH payload of KAT_RUN (R458). -/
def katRunAnswer (records : List Bytes) : Bytes := leBytes 2 records.length ++ List.replicate 6 0 ++ records.flatten

/-- When no die of a KAT_RUN is under test any more, its next repeat starts on the dies still in service, or it finishes
(R458). -/
def State.katAdvance (s : State) : State :=
  match s.panel.katRun with
  | none => s
  | some r =>
    if s.panel.kats.any (fun k => k.2.trigger = 2) then s
    else
      let records := r.records ++ r.round.map Prod.snd
      let sites := r.dies.filterMap s.siteOf
      let again := sites.filter (fun d => (s.die d).power.good.testBit 27)
      if r.left = 0 || again.isEmpty then
        match s.panel.executing r.hatch 0x0109 with
        | none => s.modPanel (fun p => { p with katRun := none })
        | some e => (s.modPanel (fun p => { p with katRun := none })).finishEntry r.hatch e.seq (if r.failed then Code.katFailed else 0)
            (katRunAnswer records)
      else s.modPanel (fun p => { p with
        katRun := some { r with left := r.left - 1, round := [], records := records }
        kats := again.foldl (fun t d => t.put d { trigger := 2, turn := s.turn, budget := (s.die d).leave.cur }) p.kats })

/-- A site leaves the known-answer tests: a KAT_RUN waits for it no longer. -/
def State.katLost (s : State) (d : Nat) : State := (s.modPanel (fun p => { p with kats := p.kats.del d })).katAdvance

/-- The state store holds what the hearth has written into a die: its image is kept as the die loses its registers, unless they
have not been rewritten since the last loss (R436). -/
def State.keepImage (s : State) (d : Nat) : State :=
  if s.transit && s.inService d then { s with images := s.images.put d (s.die d).image } else s

/-- A die goes to ALWAYS_ON; presence, topology and the mesh routes follow (R271, R290). -/
def State.powerOff (s : State) (d : Nat) : State := (s.presenceChanged ((s.keepImage d).modDie d Die.off)).meshRoutes

/-- The neighbours of a site, each with the direction in which it lies: 0 N, 1 E, 2 S, 3 W (R36). -/
def neighbours (d : Nat) : List (Nat × Nat) :=
  (if 13 ≤ d then [(0, d - 13)] else []) ++ (if d % 13 < 12 then [(1, d + 1)] else []) ++ (if d < 39 then [(2, d + 13)] else []) ++
    (if 0 < d % 13 then [(3, d - 1)] else [])

/-- Domains that R371 has on at an ACTIVE site: all but the die-to-die links that face no ACTIVE site (R37). -/
def State.domainsOf (s : State) (d : Nat) : Nat :=
  let open_ := ((neighbours d).filter (fun e => s.activeSite e.2)).map Prod.fst
  allDomains - ((([0, 1, 2, 3] : List Nat).filter (fun e => ! open_.contains e)).map (fun e => 2 ^ (16 + e))).foldl (· + ·) 0

/-- The hearth may have domains other than ALWAYS_ON on at the site (R371): it is ACTIVE, its die is not off, and bring-up, or a reset
of the die, has come to step 6. -/
def State.mayPower (s : State) (d : Nat) : Bool :=
  s.activeSite d && decide (6 ≤ s.panel.bring.step) && ! s.panel.out.contains d && ! (s.die d).power.shutdown &&
    (match s.panel.restarts.find d with
      | some r => ! r.waiting
      | none => true)

/-- A menu is LAUNCHED or RUNNING on the die. -/
def State.dieBusy (s : State) (d : Nat) : Bool := s.menus.any (fun m => m.active && m.dies.contains (s.die d).standsFor)

/-- The neighbours of a site hold down their ports toward it when it is no longer ACTIVE (R37). -/
def State.holdEdges (s : State) (d : Nat) : State :=
  (neighbours d).foldl (fun s e => s.modDie e.2 (fun x => { x with
    power := { x.power with on := x.power.on &&& s.domainsOf e.2, good := x.power.good &&& s.domainsOf e.2 } })) s

/-- FAILED in both maps, with the substitution of R46 for the number that the pending map leaves vacant; the die goes to ALWAYS_ON
(R45). -/
def State.hardFail (s : State) (d : Nat) : State :=
  let gone : SiteEntry := { state := .failed, standsFor := 0x3F }
  let s1 := { s with live := s.live.put d gone }
  let s2 := s1.modPanel (fun p =>
    let v := (SiteMap.entry p.pendingMap d).standsFor
    let m := p.pendingMap.put d gone
    { p with pendingMap := if homeNumber v then SiteMap.substitute m v d else m, restarts := p.restarts.del d })
  ((s2.powerOff d).holdEdges d).katLost d

/-! ### Known-answer test records and failures (R443, R457) -/

/-- The condition key of a test (R457). -/
def katKey (tmax : Int) (duty leave : Nat) : Nat :=
  ((tmax + 640) / 80).toNat % 64 * 1024 + duty % 32 * 32 + leave / 20 % 32

/-- The record of a test. -/
def katRecord (turn die site phases trigger : Nat) (tmax : Int) (duty leave budget : Nat) : Bytes :=
  leBytes 6 turn ++ leBytes 1 die ++ leBytes 1 site ++ leBytes 2 (if phases = 0 then 0 else Code.katFailed) ++ leBytes 1 phases ++
    leBytes 1 trigger ++ leBytes 2 (unsigned 16 tmax) ++ leBytes 1 duty ++ [0] ++ leBytes 2 leave ++ leBytes 2 budget ++
    leBytes 2 (katKey tmax duty leave) ++ List.replicate 10 0

/-- Log a record: KAT_FAILED as a notice with bytes 0x00 to 0x17, a pass as an event (R461). -/
def State.logKat (s : State) (die : Nat) (r : Bytes) : State :=
  if leAt r 8 2 = 0 then s.logEvent 3 (leAt r 0 8) (leAt r 8 8) noSubject
  else s.notice Code.katFailed (dieSubject die) (leAt r 0 8) (leAt r 8 8) (leAt r 16 8)

/-- Hold the key of a failure, the last eight of the site; the answer is true when it was held already (R457). -/
def State.holdKey (s : State) (d key : Nat) : State × Bool :=
  let l := s.panel.katKeys.getD d []
  let l1 := l ++ [key]
  (s.modPanel (fun p => { p with katKeys := p.katKeys.put d (l1.drop (l1.length - 8)) }), l.contains key)

/-- The menus that hold a die are ABORTED with DIE_RESET, and each is reported by a notice (R439, R463). -/
def State.resetMenus (s : State) (n : Nat) : State :=
  let s1 := s.abortMenus (fun m => m.dies.contains n) (panelErr Code.dieReset n)
  (s.menus.filter (fun m => m.active && m.dies.contains n)).foldl (fun s m =>
    s.noticeTo (some m.noticeHatch) Code.dieReset (dieSubject n) m.id 0 0) s1

/-- A die that fails bring-up, its repeat or the test of a reset (R443): its menus end as at a die reset, and it goes down to
ALWAYS_ON; hard-failed by R457; else one repeat; else out of service until the next panel reset. -/
def State.dieFailed (s0 : State) (d : Nat) (hard : Bool) : State :=
  let n := (s0.site d).standsFor
  let s := s0.resetMenus n
  if hard then ((s.notice Code.dieHardFailed (dieSubject n) 0 0 0).hardFail d).vacantNotice n d
  else
    let s1 := (s.powerOff d).katLost d
    if ((s.panel.restarts.find d).map Restart.again).getD false then
      (s1.modPanel (fun p => { p with restarts := p.restarts.del d, out := insertNat d p.out })).vacantNotice n d
    else s1.modPanel (fun p => { p with restarts := p.restarts.put d { waiting := true, again := true } })

/-- A failure of a die in a phase of bring-up: its record, its key, and R443. -/
def State.phaseFailed (s : State) (d phase : Nat) : State :=
  let x := s.die d
  let n := (s.site d).standsFor
  let r := katRecord s.turn n d (2 ^ phase) 0 x.thermal.tmax 16 0 x.leave.cur
  let k := (s.logKat n r).holdKey d (katKey x.thermal.tmax 16 0)
  k.1.dieFailed d k.2

/-! ### Rewriting a die (R436) -/

/-- Step 6 for one die, as it ends: the hearth has switched the domains on four at a time, and all are good (R371, log 202);
DIE_SITE, DIE_FEATURE_ENABLE (R47, R52). -/
def State.powerUp (s : State) (d : Nat) : State :=
  let m := s.domainsOf d
  s.modDie d (fun x => { x with
    power := { x.power with on := m, good := m }
    siteNum := d, standsFor := (s.site d).standsFor, featureEnable := s.panel.featureLevel &&& x.features })

/-- Step 8 for one die: memory training, with the exit from self-refresh. -/
def Die.train (x : Die) : Die := { x with mem := { x.mem with hbmTrained := 3, larTrained := true, selfRefresh := false } }

/-- The primary hearth rewrites every register that it had written, from its state store: its own image of the die, the
region table, the job's seed and rank table, the gateway table, and FAB_FENCE (R140, R186, R270, R273, R460). The halves
without a claim go to fault capture (R482). -/
def State.rewrite (s : State) (d : Nat) : State :=
  let n := (s.site d).standsFor
  let y := s.images.getD d {}
  let f := s.panel.fabric
  let s1 := s.modDie d (fun x =>
    let z : Die := { x with
      ladle := { x.ladle with descBase := y.ladle.descBase, descCount := y.ladle.descCount }
      obs := { y.obs with ports := x.obs.ports, half0 := captureHalf 0, half1 := captureHalf 1 }
      pool := y.pool
      fab := { y.fab with
        gw := f.gw, viaMask := f.viaMask, fenced := s.panel.fenced && s.panel.job.isSome
        coordValid := f.coordValid, coord := f.coord, present := s.presentBits, ring := f.ring
        held := x.fab.held, handoff := x.fab.handoff }
      leave := { x.leave with next := y.leave.next }
      thermal := { x.thermal with hbmThrottle := y.thermal.hbmThrottle, hbmWarn := y.thermal.hbmWarn }
      seed := (s.panel.job.map Job.seed).getD 0
      mem := { x.mem with regions := s.panel.regions.getD n [] } }
    match f.inForce with
    | some t => z.putRanks t
    | none => z)
  s1

/-! ### Starts of resets (R438 to R440) -/

/-- A LAUNCHED or RUNNING menu is stopped by a panel reset: its LAUNCH entry becomes FINISHED at replay, with the outcome
kept in the entry (R417, R438). -/
def State.interruptMenu (s : State) (id : Nat) : State :=
  match s.menu id with
  | none => s
  | some m =>
    if ! m.active then s
    else
      let s1 := m.dies.foldl (fun s n => match s.siteOf n with
        | some d => s.endAtDie m n d Code.interrupted
        | none => s) s
      let s2 := s1.modMenu id (fun m => { m with state := .loaded, err := none })
      let s3 := match m.launchHatch with
        | some h => s2.modEntry h m.launchSeq (fun e => { e with answer := m.outcome { code := Code.interrupted } })
        | none => s2
      s3.modPanel (fun p => p.addLog { code := Code.interrupted, turn := s.turn, arg2 := id, arg3 := m.lastDone,
                                       time := p.ptp.getD 0 })

def State.interruptMenus (s : State) : State :=
  ((s.menus.filter Menu.active).map Menu.id).foldl (fun s id => s.interruptMenu id) s

/-- A hearth held in reset (R401, R438): its slots and its sensors' fuses stand. -/
def Hearth.held (k : Hearth) : Hearth := { role := .down, slots := k.slots, n25 := k.n25, n105 := k.n105 }

/-- A fabric port after the start of a panel reset: OFF until step 9. -/
def Port.held_ (p : Port) (n : Nat) : Port :=
  { feed := if n = 8 || p.feed.isSome then p.feed else none
    contact := p.contact, held := p.held, retired := p.retired }

/-- A panel warm reset starts (R434, R436, R438, R44). It keeps HRT_TURN_CFG, and the spec does not say in which state the turn loop
then starts: as at a write of ROLE, a ROOT or MEMBER in ACQUIRING with nothing measured, a MASTER in LOCKED (DESIGN CHOICE,
log 193). -/
def State.panelWarm (s : State) : State :=
  let s0 := s.logEvent 1 3 0 noSubject
  let s1 := (List.range 52).foldl State.keepImage s0.interruptMenus
  let s2 := { s1 with dies := s1.dies.mapVal (fun _ x => x.reset) }
  s2.modPanel (fun p => { p with
    hearths := p.hearths.mapVal (fun _ k => k.held)
    ports := p.ports.mapVal (fun n q => q.held_ n)
    bring := { step := 0, cold := false, snapshot := some p.pendingMap }
    restarts := [], out := [], kats := [], katRun := none, takeover := none, ptp := none, powerDown := false, bulks := p.bulks.filter (fun b => b.kind = .ranks)
    hatches := p.hatches.mapVal (fun _ h => { h with held := [] })
    resetAt := (List.range 52).map (fun d => (d, p.acceptIndex))
    time := { role := p.time.role, rootPort := p.time.rootPort
              state := if p.time.role = 0 then 0 else if p.time.role = 1 then 2 else 1
              hops := if p.time.role = 1 then 0 else 0x1F } })

/-- What an MRAM keeps through a cold reset: the job context ends, and the menus with it (R436). -/
def Mram.cold (m : Mram) : Mram :=
  { m with regions := [], plans := [], pendingTables := [], inForce := none, job := none, fenced := false, menus := []
           hatches := m.hatches.mapVal (fun h x =>
             { x with key := if h = 0 || h = 15 then x.key else none, held := [], notices := [], unsent := 0, dropped := 0 }) }

/-- The state after a cold reset (R436): what the hearths hold in MRAM, the fuses and what is plugged in stand; the rest is
as on a module fresh from manufacture. Menus end INTERRUPTED and the job context ends. -/
def State.cold (s : State) : State :=
  let s1 := s.interruptMenus
  let p := s1.panel
  let r := State.reset
  { r with
    pending := s.pending, outbox := s1.outbox, freeCtr := s1.freeCtr
    live := s.live
    dies := r.dies.mapVal (fun d x =>
      let y := s.die d
      { x with stepping := y.stepping, orient := y.orient, features := y.features, n25 := y.n25, n105 := y.n105, nextKey := y.nextKey
               power := { x.power with shutdown := y.power.shutdown }
               thermal := { x.thermal with state := if y.thermal.state = .shutdown then .shutdown else .normal } })
    panel := { r.panel with
      hatches := p.hatches.mapVal (fun h x => { x with key := if h = 0 || h = 15 then x.key else none, held := [], notices := [], unsent := 0, dropped := 0 })
      route := p.route, log := p.log, logged := p.logged, serial := p.serial
      ports := r.panel.ports.mapVal (fun n q => { q with contact := (p.ports.getD n {}).contact })
      bays := r.panel.bays.mapVal (fun b y =>
        let o := p.bays.getD b {}
        { y with seated := o.seated, typeOk := o.typeOk })
      hearths := r.panel.hearths.mapVal (fun k y =>
        let o := p.hearths.getD k {}
        { y with slots := o.slots, n25 := o.n25, n105 := o.n105 })
      mrams := p.mrams.mapVal (fun _ m => m.cold)
      bootSlot := p.bootSlot, failovers := p.failovers, journal := p.journal, acceptIndex := p.acceptIndex
      ownerKey := p.ownerKey, fmKey := p.fmKey, keyEpoch := p.keyEpoch, fwKeyHash := p.fwKeyHash, minSvn := p.minSvn
      compatClass := p.compatClass, clMax := p.clMax, clSet := p.clSet
      pendingMap := p.pendingMap, katKeys := p.katKeys, powerLimit := p.powerLimit
      served := p.served, bring := { snapshot := some p.pendingMap }
      resetAt := (List.range 52).map (fun d => (d, p.acceptIndex)) } }

/-- COLD_RESET: application of the 54 V input (R434). -/
def execColdReset (s : State) : Host.Outcome State Fault Refusal := .next ((s.logEvent 1 0 0 noSubject).cold)

/-- The input is lost: every domain goes off, ALWAYS_ON too, and memory is lost (R496). -/
def State.inputLost (s : State) (mv : Nat) : State :=
  let s1 := s.cold
  ({ s1 with dies := s1.dies.mapVal (fun _ x => { x with power := { x.power with on := 0, good := 0 } }) } : State).modPanel
    (fun p => { p with busbar := .lost, busbarMv := mv })

/-- The hearth logs the end of a reset of a die or a port (R461). Of the kinds of event records the spec lists none for it: the model
takes the one of a completed bring-up, with the die or port in SUBJECT and, in ARG3, step 5, at which the die's steps started,
or 0 for a port (DESIGN CHOICE, log 215). -/
def State.resetEnds (s : State) (subject step : Nat) : State :=
  let f := s.fresh
  f.2.logEvent 2 (Config.freeMs f.1) step subject

/-- A die reset starts (R439): its menus are ABORTED, it goes to ALWAYS_ON with reset values, and its number is VACANT. -/
def State.dieReset (s : State) (d : Nat) : State :=
  let n := (s.site d).standsFor
  let s0 := s.logEvent 1 1 d noSubject
  let s1 := s0.resetMenus n
  let s2 := s1.keepImage d
  ((s2.presenceChanged (s2.modDie d Die.reset)).modPanel (fun p => { p with
    restarts := p.restarts.put d { waiting := true, again := false }
    resetAt := p.resetAt.put d p.acceptIndex })).meshRoutes.katLost d

/-- A port leaves RUN for OFF (0) or RESET (1): its pairs become DARK and discard what they hold (R243, R440). -/
def State.portDown (s : State) (port state : Nat) (held : Bool) : State :=
  let s1 := s.modPort port (fun p => { p with state := state, held := held })
  let s2 := (pairsOf port).foldl (fun s q => s.modPair q.1 q.2 (fun k => { k.unlink with
    state := .dark, emission := .none, answered := false, spent := [], sharedSpent := 0, owe := [], oweShared := 0 })) s1
  s.presenceChanged ((s2.endSwitch port).afterSwitch port)

/-- A port reset starts (R440). -/
def State.portReset (s : State) (port : Nat) : State := (s.logEvent 1 2 port noSubject).portDown port 1 false

/-- PORT_RESET_END: after 10 ms the port returns to RUN (R440), and the end is logged (R461). -/
def execPortResetEnd (port : Nat) (s : State) : Host.Outcome State Fault Refusal :=
  .next (if (s.port port).state = 1 then ((s.modPort port (fun p => { p with state := 2 })).resetEnds (subjectOf 0xFF port 0xFF 0xFF 0xFF) 0).moveBack port else s)

/-- BOTH_HEARTHS_FAILED: both FAIL lines high for 100 ms start a panel warm reset (R434). -/
def execBothHearthsFailed (s : State) : Host.Outcome State Fault Refusal :=
  .next (if (s.panel.hearths.getD 0 {}).fail && (s.panel.hearths.getD 1 {}).fail then s.panelWarm else s)

/-! ### Hearth writes of the power registers (R371, R396) -/

/-- Domains whose bit a write of DIE_PWR_ON sets come on while fewer than four of the die have not reached power-good, in rising
order (R371). -/
def Power.switchOn (p : Power) (m : Nat) : Power :=
  (List.range 29).foldl (fun p n =>
    if m.testBit n && ! p.on.testBit n && decide (popCount (p.on - p.good &&& p.on) 30 < 4) then { p with on := p.on + 2 ^ n } else p) p

/-- The hearth that reaches a site, and whether over its second set of management links (R26): the one of the slab while it runs,
else the other one when it is primary. -/
def State.linkOf (s : State) (d : Nat) : Option (Nat × Bool) :=
  let role := fun (k : Nat) => (s.panel.hearths.getD k {}).role
  let k := if d < 26 then 0 else 1
  if role k ≠ .down then some (k, false)
  else if role (1 - k) = .primary || role (1 - k) = .sole then some (1 - k, true)
  else none

/-- A site's management link is served. -/
def State.reaches (s : State) (d : Nat) : Bool := (s.linkOf d).isSome

/-- DIE_PWR_ON: domains whose bit clears go off, and those whose bit sets are switched on, four at a time; ALWAYS_ON stands while
the panel has its input (R370, R371). A bit that the table of R371 does not let the hearth set is ignored, and so is one that it
clears while a menu runs on the die (log 202). -/
def execDiePwrOn (d v : Nat) (s : State) : Host.Outcome State Fault Refusal :=
  .next (if s.panel.busbar = .lost || ! s.reaches d then s
    else
      let x := s.die d
      let m := bits v 28 0 &&& (if s.mayPower d then s.domainsOf d else 0) ||| (if s.dieBusy d then x.power.on else 0)
      let off := (List.range 29).filter (fun n => x.power.on.testBit n && ! m.testBit n)
      let y := off.foldl Die.domainOff x
      let keep := alwaysOn ||| m
      let p : Power := { y.power with on := y.power.on &&& keep, good := y.power.good &&& keep }
      s.presenceChanged (s.setDie d { y with power := p.switchOn m }))

/-- POWER_GOOD: a domain that has been switched on reaches power-good; its registers have their reset values (R370). -/
def execPowerGood (d dom : Nat) (s : State) : Host.Outcome State Fault Refusal :=
  .next (let x := s.die d
    if ! x.power.on.testBit dom || x.power.good.testBit dom || 30 ≤ dom then s
    else s.setDie d { x with power := { x.power with good := x.power.good + 2 ^ dom } })

/-! ### The busbar (R496) -/

/-- BUSBAR_DIP: work continues; BUSBAR_OUT_OF_RANGE once per dip. -/
def execBusbarDip (mv : Nat) (s : State) : Host.Outcome State Fault Refusal :=
  .next (if s.panel.busbar = .lost || mv < 40000 || 48000 ≤ mv then s
    else
      let s1 := s.modPanel (fun p => { p with busbarMv := mv })
      s1.notice Code.busbarOutOfRange noSubject 0 0 0)

/-- BUSBAR_HIGH: an excursion above 58 V; work continues; BUSBAR_OUT_OF_RANGE once per excursion. -/
def execBusbarHigh (mv : Nat) (s : State) : Host.Outcome State Fault Refusal :=
  .next (if s.panel.busbar = .lost || mv ≤ 58000 then s
    else
      let s1 := s.modPanel (fun p => { p with busbarMv := mv })
      s1.notice Code.busbarOutOfRange noSubject 0 0 0)

/-- BUSBAR_LOSS: below 40 V, or below 48 V for more than 5 ms. -/
def execBusbarLoss (mv : Nat) (s : State) : Host.Outcome State Fault Refusal :=
  .next (if 48000 ≤ mv then s else s.inputLost mv)

/-- BUSBAR_OVERVOLTAGE: above 59 V for 100 µs; the input is disconnected. -/
def execBusbarOvervoltage (mv : Nat) (s : State) : Host.Outcome State Fault Refusal :=
  .next (if mv ≤ 59000 then s else s.inputLost mv)

end Sys2Proof.Machine
end

