-- ==== Sys2Proof/Machine/Thermal.lean ====
section
/-! DEFINITION. Failures of a hearth (R401, R402), budgets (R382), sensors (R384 to R387), the junction and stack loops
(R390 to R393), the slope trigger (R394), and the writes of THM_CFG and FAB_FENCE. -/
namespace Sys2Proof.Machine

/-! ### Hearths -/

def Panel.hearth (p : Panel) (k : Nat) : Hearth := p.hearths.getD k {}
def State.modHearth (s : State) (k : Nat) (f : Hearth → Hearth) : State :=
  s.modPanel (fun p => { p with hearths := p.hearths.put k (f (p.hearth k)) })

/-- A notice to every hatch (R402): one record in the log, one in the queue of every hatch that has a key. -/
def State.noticeAll (s : State) (code subject : Nat) : State :=
  let n : Notice := { code := code, turn := s.turn, subject := subject, time := s.panel.ptp.getD 0 }
  let t := s.modPanel (fun p => ((List.range 16).foldl (fun p h => p.queueNotice h n) p).addLog n)
  (List.range 16).foldl (fun t h => t.gatherNotices h 64) t

def hearthSubject (k : Nat) : Nat := subjectOf 0xFF 0xFF 0xFF 0xFF k

/-- What the MRAM of the hearth that serves holds. Held commands are not in it (log 6). -/
def State.mramOf (s : State) : Mram :=
  let p := s.panel
  { journal := p.journal, acceptIndex := p.acceptIndex, log := p.log, logged := p.logged, pendingMap := p.pendingMap, served := p.served
    regions := p.regions, plans := p.plans, pendingTables := p.fabric.pendingTables, inForce := p.fabric.inForce
    ownerKey := p.ownerKey, fmKey := p.fmKey, keyEpoch := p.keyEpoch, hatches := p.hatches.mapVal (fun _ h => { h with held := [] })
    route := p.route, job := p.job, fenced := p.fenced, menus := s.menus, powerLimit := p.powerLimit, bootSlot := p.bootSlot
    clSet := p.clSet, katKeys := p.katKeys }

/-- A hearth goes on from what an MRAM holds: menus that ran when it was written have stopped. -/
def State.fromMram (s : State) (m : Mram) : State :=
  let t := s.modPanel (fun p => { p with
    journal := m.journal, acceptIndex := m.acceptIndex, log := m.log, logged := m.logged, pendingMap := m.pendingMap, served := m.served
    regions := m.regions, plans := m.plans, fabric := { p.fabric with pendingTables := m.pendingTables, inForce := m.inForce }
    ownerKey := m.ownerKey, fmKey := m.fmKey, keyEpoch := m.keyEpoch, hatches := m.hatches, route := m.route, job := m.job
    fenced := m.fenced, powerLimit := m.powerLimit, bootSlot := m.bootSlot, clSet := m.clSet, katKeys := m.katKeys
    bring := { p.bring with snapshot := p.bring.snapshot.map (fun _ => m.pendingMap) }
    bulks := [], chains := [] })
  let t := t.modPanel (fun p => (List.range 16).foldl (fun p h => p.linkCells (16 + h) 0 (p.hatch h).notices.length) p)
  { t with menus := m.menus.map (fun x => { x with state := .loaded }) }

/-- Hearth `k` goes DOWN while the other serves: its MRAM keeps what it holds now (R399, R400). -/
def State.mramStops (s : State) (k : Nat) : State :=
  if (s.panel.mrams.find k).isSome then s else s.modPanel (fun p => { p with mrams := p.mrams.put k s.mramOf })

/-- A primary whose partner has failed becomes SOLE; a partner whose primary has failed claims the bridge (R402). -/
def State.partnerLost (s : State) (j : Nat) : State :=
  match (s.panel.hearth j).role with
  | .primary => ((s.mramStops (1 - j)).modHearth j (fun y => { y with role := .sole })).noticeAll Code.hearthPartnerLost noSubject
  | .partner => (s.mramStops (1 - j)).modPanel (fun p => { p with takeover := some j })
  | _ => s

/-- The FAIL line of a hearth rises (R401, R402): it is DOWN until the next panel reset. Before the roles of step 3 nothing
else follows. -/
def State.hearthFails (s : State) (k : Nat) : State :=
  if (s.panel.hearth k).fail || 2 ≤ k then s
  else
    let s1 := s.modHearth k (fun y => { y with fail := true, role := .down, missed := 0 })
    let s2 := s1.modPanel (fun p => { p with takeover := if p.takeover = some k then none else p.takeover })
    if s.panel.bring.step < 4 then s2 else s2.partnerLost (1 - k)

/-! ### Budgets (R382, R397) -/

/-- The logical die number of a site in the SUBJECT of a notice; 0xFF for a site that serves none. -/
def State.dieTag (s : State) (d : Nat) : Nat := if (s.site d).standsFor = 0x3F then 0xFF else (s.site d).standsFor

/-- BUDGET_RECOMPUTE: `busbar` and `leave` are the busbar power and the summed held leave, averaged over the last 10 turns
(log 9). A die that is hot takes no increase. -/
def execBudgetRecompute (busbar leave : Nat) (s : State) : Host.Outcome State Fault Refusal :=
  .next (let p := s.panel
    if decide (turnsSince p.budgetTurn s.turn < 10) then s
    else
      let on := s.activeSites
      let pl := min p.powerLimit p.coolantLimit
      let share : Int := if on.isEmpty then 420 else ((pl : Int) - ((busbar : Int) - leave)) / (on.length : Int)
      let b : Nat := if p.coolantOut then 260 else (min 420 (max 260 share)).toNat
      let s1 := on.foldl (fun s d => s.modDie d (fun x =>
        let hot := x.thermal.state = .warning || x.thermal.state = .grace || x.thermal.state = .throttle
        { x with leave := { x.leave with next := if hot && ! p.coolantOut then min b x.leave.next else b } })) s
      let s2 := s1.modPanel (fun p => { p with budgetTurn := s.turn, busbarW := busbar, leaveW := leave })
      let due := match p.lowTurn with
        | none => true
        | some t => decide (1000 ≤ turnsSince t s.turn)
      if share < 260 && due then
        (s2.modPanel (fun p => { p with lowTurn := some s.turn })).notice Code.powerLimitLow noSubject pl on.length share.toNat
      else s2)

/-! ### Readings (R384, R386, R387) -/

/-- A count as a reading in 1/16 °C (R384). -/
def sensorValue (n25 n105 n : Nat) : Int :=
  let sign : Int := if n25 ≤ n105 then 1 else -1
  let den : Int := sign * ((n105 : Int) - n25)
  let num : Int := sign * (16 * (25 * ((n105 : Int) - n25) + 80 * ((n : Int) - n25)))
  let q := (2 * num + den) / (2 * den)
  if den ≠ 0 && (2 * num + den) % (2 * den) = 0 && ! Config.tieUp num then q - 1 else q

/-- A new value enters the candidates for the extreme of a window of `w` readings. -/
def pushExtreme (better : Int → Int → Bool) (w n : Nat) (v : Int) (l : List (Nat × Int)) : List (Nat × Int) :=
  (n, v) :: (l.dropWhile (fun e => ! better e.2 v)).filter (fun e => decide (n ≤ e.1 + w))

def extremeOf (l : List (Nat × Int)) (d : Int) : Int := (l.getLast?.map Prod.snd).getD d

/-- A plausible reading of a good sensor enters its records. -/
def Sensor.enter (x : Sensor) (v : Int) : Sensor :=
  let n := x.taken + 1
  { x with
    reading := v, taken := n
    same := if v = x.reading && x.taken ≠ 0 then x.same + 1 else 0
    low250 := pushExtreme (fun a b => decide (a < b)) 250 n v x.low250
    low1s := pushExtreme (fun a b => decide (a < b)) 1000000 n v x.low1s
    high1s := pushExtreme (fun a b => decide (b < a)) 1000000 n v x.high1s }

/-- How far the readings of the last second have spanned. -/
def Sensor.span1s (x : Sensor) : Int := extremeOf x.high1s x.reading - extremeOf x.low1s x.reading

def insertInt (a : Int) : List Int → List Int
  | [] => [a]
  | b :: t => if a ≤ b then a :: b :: t else b :: insertInt a t

/-- Twice the median of a list. -/
def median2 (l : List Int) : Int :=
  let v := l.foldl (fun t a => insertInt a t) []
  if v.length % 2 = 1 then 2 * v.getD (v.length / 2) 0 else v.getD (v.length / 2 - 1) 0 + v.getD (v.length / 2) 0

/-- All sensors of a die or hearth at the end of a window, with the checks of R386: implausible, stuck, outlier. -/
def sensorRound (k : Nat) (neighbours : Nat → List Nat) (old : Tab Sensor) (v : Nat → Int) : Tab Sensor :=
  let t1 : Tab Sensor := (List.range k).map (fun i =>
    let x := old.getD i {}
    (i, if x.flagged then { x with reading := v i }
        else if v i < -640 || 2400 < v i then { x with reading := v i, flagged := true }
        else x.enter (v i)))
  let at_ := fun i => t1.getD i {}
  let good := (List.range k).filter (fun i => ! (at_ i).flagged)
  t1.mapVal (fun i x =>
    if x.flagged then x
    else
      let nb := (neighbours i).filter (fun j => good.contains j)
      let stuck := decide (1000000 ≤ x.same) && nb.any (fun j => decide (48 < (at_ j).span1s))
      let med := median2 ((if nb.isEmpty then good else nb).map (fun j => (at_ j).reading))
      let out := if 640 < 2 * x.reading - med || 640 < med - 2 * x.reading then x.outlier + 1 else 0
      { x with outlier := out, flagged := stuck || decide (16 ≤ out), hot := if 1920 ≤ x.reading then x.hot + 1 else 0 })

/-- Orthogonal neighbours in the 4 × 4 grid. -/
def gridNeighbours (i : Nat) : List Nat :=
  (if 4 ≤ i then [i - 4] else []) ++ (if i % 4 ≠ 0 then [i - 1] else []) ++ (if i % 4 ≠ 3 then [i + 1] else []) ++
    (if i < 12 then [i + 4] else [])

def goodOnes (t : Tab Sensor) : List (Nat × Sensor) := t.filter (fun e => ! e.2.flagged)
def newlyFlagged (old new : Tab Sensor) : List Nat :=
  (new.filter (fun e => e.2.flagged && ! (old.getD e.1 {}).flagged)).map Prod.fst

/-- The slope condition of R394 for one sensor. -/
def Sensor.rises (x : Sensor) : Bool := ! x.flagged && decide (128 ≤ x.reading - extremeOf x.low250 x.reading)

/-! ### The junction loop (R389 to R391) -/

/-- The duty in force (R389). -/
def Thermal.duty (t : Thermal) : Nat :=
  min (min t.dThr (if t.slope then 8 else 16)) (min (if t.sensorsLost then 8 else 16) t.dHbm)

def State.modThermal (s : State) (d : Nat) (f : Thermal → Thermal) : State :=
  s.modDie d (fun x => { x with thermal := f x.thermal })

/-- A thermal notice about a die. -/
def State.thermalNotice (s : State) (d code arg1 : Nat) : State := s.notice code (dieSubject (s.dieTag d)) arg1 0 0

/-- Entry into THROTTLE. -/
def State.enterThrottle (s : State) (d : Nat) : State :=
  (s.modThermal d (fun t => { t with
    state := .throttle, dThr := 12, throttles := satAdd 16 t.throttles 1, throttleTurn := s.turn })).thermalNotice d Code.thermalThrottle 0

/-- The transitions that one reading of Tmax causes, at most `k` (R390, R395). -/
def State.junctionSteps (d : Nat) : Nat → State → State
  | 0, s => s
  | k + 1, s =>
    let t := (s.die d).thermal
    match t.state with
    | .normal =>
      if 1520 ≤ t.tmax then
        State.junctionSteps d k ((s.modThermal d (fun t => { t with state := .warning })).thermalNotice d Code.thermalWarning 0)
      else s
    | .warning =>
      if t.tmax < 1440 then s.modThermal d (fun t => { t with state := .normal })
      else if t.tmax < 1680 then s
      else if t.managed then
        (s.modThermal d (fun t => { t with state := .grace })).thermalNotice d Code.thermalSlowdownRequest (unsigned 16 t.tmax)
      else s.enterThrottle d
    | .grace =>
      if t.tmax < 1600 then State.junctionSteps d k (s.modThermal d (fun t => { t with state := .warning })) else s
    | .throttle =>
      if t.dThr = 16 && t.tmax < 1600 then State.junctionSteps d k (s.modThermal d (fun t => { t with state := .warning })) else s
    | .shutdown => s

/-- The shutdown action (R391): every domain but ALWAYS_ON off, the notice, the menus of the die ABORTED; its number is
VACANT until the next panel reset. -/
def State.shutdownAction (s : State) (d : Nat) : State :=
  let n := (s.site d).standsFor
  let s1 := (s.powerOff d).modDie d (fun x => { x with
    thermal := { x.thermal with state := .shutdown, dThr := 16, slope := false }, power := { x.power with shutdown := true } })
  let s2 := (s1.modPanel (fun p => { p with restarts := p.restarts.del d })).katLost d
  (s2.thermalNotice d Code.thermalShutdown 0).abortMenus (fun m => m.dies.contains n) (panelErr Code.thermalShutdown n)

/-- MANAGED is written: clearing it in GRACE ends the grace period into THROTTLE (R390). -/
def State.setManaged (s : State) (d : Nat) (b : Bool) : State :=
  let s1 := s.modThermal d (fun t => { t with managed := b })
  if (s.die d).thermal.state = .grace && ! b then s1.enterThrottle d else s1

/-- The readings of a die: flags, Tmax, sensors lost, shutdown, slope hold, junction loop. -/
def State.dieReadings (s : State) (d : Nat) (counts : List Nat) : State :=
  let x := s.die d
  let th := x.thermal
  let t := sensorRound 16 gridNeighbours th.sensors
    (fun i => sensorValue (x.n25.getD i 2500) (x.n105.getD i 1700) (counts.getD i 0))
  let good := goodOnes t
  let tmax := match good with
    | [] => th.tmax
    | e :: es => es.foldl (fun m e => max m e.2.reading) e.2.reading
  let s1 := s.modThermal d (fun h => { h with sensors := t, tmax := tmax, sensorsLost := h.sensorsLost || decide (good.length < 4) })
  if th.state = .shutdown then s1
  else
    let tag := s.dieTag d
    let s2 := (newlyFlagged th.sensors t).foldl (fun s i => s.notice Code.thmSensorFlagged (subjectOf tag 0xFF 0xFF i 0xFF) 0 0 0) s1
    let s3 := if decide (good.length < 4) && ! th.sensorsLost then s2.thermalNotice d Code.thmSensorsLost 0 else s2
    if good.isEmpty || good.any (fun e => decide (2 ≤ e.2.hot)) then s3.shutdownAction d
    else
      let s4 := match good.find? (fun e => e.2.rises) with
        | none => s3
        | some e =>
          if th.slope then s3
          else (s3.modThermal d (fun h => { h with slope := true, slopeHolds := satAdd 16 h.slopeHolds 1 })).notice Code.thermalSlope
            (subjectOf tag 0xFF 0xFF e.1 0xFF) 0 0 0
      State.junctionSteps d 4 s4

/-- The readings of a hearth's four sensors (R393). -/
def State.hearthReadings (s : State) (k : Nat) (counts : List Nat) : State :=
  let y := s.panel.hearth k
  if y.fail then s
  else
    let t := sensorRound 4 (fun i => (List.range 4).filter (fun j => j ≠ i)) y.sensors
      (fun i => sensorValue (y.n25.getD i 2500) (y.n105.getD i 1700) (counts.getD i 0))
    let good := goodOnes t
    let hot := good.any (fun e => decide (1520 ≤ e.2.reading))
    let cool := good.all (fun e => decide (e.2.reading < 1440))
    let s1 := s.modHearth k (fun y => { y with sensors := t, warm := hot || (y.warm && ! cool) })
    let s2 := (newlyFlagged y.sensors t).foldl (fun s i => s.notice Code.thmSensorFlagged (subjectOf 0xFF 0xFF 0xFF i k) 0 0 0) s1
    let s3 := if hot && ! y.warm then s2.notice Code.thermalWarning (hearthSubject k) 0 0 0 else s2
    if good.any (fun e => decide (2 ≤ e.2.hot)) then s3.hearthFails k else s3

/-- SENSOR_READING: the counts of one window of a die (`d` below 52) or of hearth `d` − 52. -/
def execSensorReading (d : Nat) (counts : List Nat) (s : State) : Host.Outcome State Fault Refusal :=
  .next (if d < 52 then (if counts.length = 16 then s.dieReadings d counts else s)
    else if d < 54 && counts.length = 4 then s.hearthReadings (d - 52) counts else s)

/-- SLOPE_HOLD_END: 2 ms after the last reading that met the condition (R394). -/
def execSlopeHoldEnd (d : Nat) (s : State) : Host.Outcome State Fault Refusal :=
  .next (if (s.die d).thermal.sensors.any (fun e => e.2.rises) then s else s.modThermal d (fun t => { t with slope := false }))

/-- One step of a throttle loop: down at `hot`, up below `cold`, else held. -/
def dutyStep (v hot cold : Int) (n : Nat) : Nat := if hot ≤ v then max 2 (n - 1) else if v < cold then min 16 (n + 1) else n

/-- The hottest of the stack readings. -/
def Thermal.hottest (t : Thermal) : Int := max (t.hbmTemp.getD 0 (-273)) (t.hbmTemp.getD 1 (-273))

/-- The stack loop leaves THROTTLE at full duty 5 °C below HBM_THROTTLE (R392). -/
def Thermal.hbmClear (t : Thermal) : Thermal :=
  if t.hbmState = .throttle && t.dHbm = 16 && t.hottest < (t.hbmThrottle : Int) - 5 then { t with hbmState := .warning } else t

/-- THERMAL_THROTTLE_STEP: ten turns after the entry or the last step, the junction loop and the stack loop step their
duties (R390, R392). -/
def execThermalThrottleStep (d : Nat) (s : State) : Host.Outcome State Fault Refusal :=
  .next (let t := (s.die d).thermal
    let t1 : Thermal := if t.state = .throttle && decide (10 ≤ turnsSince t.throttleTurn s.turn) then
      { t with dThr := dutyStep t.tmax 1680 1648 t.dThr, throttleTurn := turnPlus t.throttleTurn 10 } else t
    let t2 : Thermal := if t1.hbmState = .throttle && decide (10 ≤ turnsSince t1.hbmTurn s.turn) then
      { t1 with dHbm := dutyStep t1.hottest t1.hbmThrottle ((t1.hbmThrottle : Int) - 2) t1.dHbm, hbmTurn := turnPlus t1.hbmTurn 10 } else t1
    State.junctionSteps d 4 (s.modThermal d (fun _ => t2.hbmClear)))

/-- GRACE_TIMER_EXPIRY: the 50 ms timer ends in GRACE (R390). -/
def execGraceTimerExpiry (d : Nat) (s : State) : Host.Outcome State Fault Refusal :=
  .next (if (s.die d).thermal.state = .grace then
      (s.modThermal d (fun t => { t with graceExpired := satAdd 16 t.graceExpired 1 })).enterThrottle d
    else s)

/-- HBM_TEMP_READ: the stacks' temperatures in °C; the stack loop warns, throttles and clears (R385, R392). -/
def execHbmTempRead (d : Nat) (t0 t1 : Int) (s : State) : Host.Outcome State Fault Refusal :=
  .next (let x := s.die d
    if ! (x.power.good.testBit 20 && x.power.good.testBit 21) then s
    else
      let stack := if t0 ≤ t1 ∧ t0 ≠ t1 then 1 else 0
      let say := fun (s : State) => s.notice Code.hbmThermal (subjectOf (s.dieTag d) 0xFF 0xFF stack 0xFF) 0 0 0
      let s1 := s.modThermal d (fun t => { t with hbmTemp := [(0, t0), (1, t1)] })
      let hot := max t0 t1
      let t := x.thermal
      let s2 := if t.hbmState = .normal && (t.hbmWarn : Int) ≤ hot then say (s1.modThermal d (fun t => { t with hbmState := .warning })) else s1
      if (s2.die d).thermal.hbmState = .warning then
        if (t.hbmThrottle : Int) ≤ hot then
          say (s2.modThermal d (fun t => { t with
            hbmState := .throttle, dHbm := 12, hbmTurn := s.turn, hbmThrottles := satAdd 16 t.hbmThrottles 1 }))
        else if hot < (t.hbmWarn : Int) - 5 then s2.modThermal d (fun t => { t with hbmState := .normal })
        else s2
      else s2.modThermal d Thermal.hbmClear)

/-- THM_CFG: MANAGED and the stack thresholds, over the site's management link (R26, R390, R396). -/
def execThmCfg (d v : Nat) (s : State) : Host.Outcome State Fault Refusal :=
  .next (if ! s.reaches d then s
    else (s.modThermal d (fun t => { t with hbmThrottle := bits v 15 8, hbmWarn := bits v 7 0 })).setManaged d (v.testBit 16))

/-- FAB_FENCE: 1 blocks the egress of the die's own packets; 0 is ignored while FAB_SELF.VALID is 1 (R460), and any write while the
fabric interface has no power (R369, R370, log 171). -/
def execFabFence (d v : Nat) (s : State) : Host.Outcome State Fault Refusal :=
  .next (if ! s.reaches d || ! (s.die d).power.good.testBit 27 then s
    else s.modDie d (fun x => { x with fab := { x.fab with fenced := v.testBit 0 || (x.fab.fenced && x.fab.selfValid) } }))

end Sys2Proof.Machine
end

