-- ==== Sys2Proof/Machine/Package.lean ====
section
/-! DEFINITION. The parts of a menu package (R67, R68, R509) and the region tables that the hearth keeps (R185, R186). -/
namespace Sys2Proof.Machine

/-! ### Header and course table (R67, R68) -/

def Menu.format (m : Menu) : Nat := leAt m.pkg 0x00 4
def Menu.flags (m : Menu) : Nat := leAt m.pkg 0x04 4
def Menu.reqFeatures (m : Menu) : Nat := leAt m.pkg 0x10 4
def Menu.courseCount (m : Menu) : Nat := leAt m.pkg 0x20 4
def Menu.courseTableOff (m : Menu) : Nat := leAt m.pkg 0x28 8
def Menu.scheduleOff (m : Menu) : Nat := leAt m.pkg 0x30 8
def Menu.leaveOff (m : Menu) : Nat := leAt m.pkg 0x38 8
def Menu.packageLen (m : Menu) : Nat := leAt m.pkg 0x48 8

/-- Byte offset and word count of a course. -/
def Menu.course (m : Menu) (i : Nat) : Nat × Nat :=
  (leAt m.pkg (m.courseTableOff + 16 * i) 8, leAt m.pkg (m.courseTableOff + 16 * i + 8) 4)
def Menu.courses (m : Menu) : List (Nat × Nat) := (List.range m.courseCount).map m.course

/-- Place of a logical die in DIE_SET. -/
def Menu.dieIndex (m : Menu) (n : Nat) : Nat := (m.dies.findIdx? (· = n)).getD 0

/-- Schedule entry of a core of a die at a turn offset. -/
def Menu.entryAt (m : Menu) (n c t : Nat) : Nat :=
  leAt m.pkg (m.scheduleOff + 2 * ((2 * m.dieIndex n + c) * m.roundLen + t % m.roundLen)) 2
def Menu.ckpt (m : Menu) (n c t : Nat) : Bool := (m.entryAt n c t).testBit 15
def Menu.idleAt (m : Menu) (n c t : Nat) : Bool := m.entryAt n c t % 32768 = 0x7FFF

/-- LEVEL of ticket `k` that the leave plan books for a die at a turn offset (R374). -/
def Menu.levelAt (m : Menu) (n t k : Nat) : Nat :=
  leAt m.pkg (m.leaveOff + 32 * (m.dieIndex n * m.roundLen + t % m.roundLen) + 2 * (k - 1)) 2

/-! ### Memory section (R509) -/

/-- An entry of the memory section. -/
structure MemEntry where
  die : Nat := 0
  use : Nat := 0
  odd : Bool := false
  word0 : Nat := 0
  word1 : Nat := 0
  deriving DecidableEq, Repr

def Menu.memCount (m : Menu) : Nat := leAt m.pkg (m.section_ 0) 4
def Menu.descCount (m : Menu) : Nat := leAt m.pkg (m.section_ 0 + 4) 4
def Menu.descOff (m : Menu) : Nat := leAt m.pkg (m.section_ 0 + 8) 8
def memEntryOf (b : Bytes) : MemEntry :=
  { die := byteAt b 0, use := byteAt b 1, odd := ! allZero (sliceAt b 2 6), word0 := leAt b 8 8, word1 := leAt b 16 8 }
def Menu.memEntries (m : Menu) : List MemEntry :=
  (List.range m.memCount).map (fun i => memEntryOf (sliceAt m.pkg (m.section_ 0 + 16 + 24 * i) 24))

/-- C0 and L: the lowest course offset, and the distance from it to the highest end of course words. -/
def Menu.courseLow (m : Menu) : Nat := m.courses.foldl (fun a c => min a c.1) (m.course 0).1
def Menu.courseLen (m : Menu) : Nat := m.courses.foldl (fun a c => max a (c.1 + 8 * c.2)) 0 - m.courseLow

/-! ### Regions (R185, R186) -/

/-- A region entry from its two words. -/
def Region.ofWords (w0 w1 : Nat) : Region :=
  { base := bits w0 63 36, blocksM1 := bits w0 35 11, valid := w0.testBit 2, frozen := w0.testBit 1, gather := w0.testBit 0
    crcBase := bits w1 59 32, tensor := bits w1 31 0 }

/-- The words of a region entry. -/
def Region.word0 (r : Region) : Nat :=
  r.base % 2 ^ 28 * 2 ^ 36 + r.blocksM1 % 2 ^ 25 * 2 ^ 11 + (if r.valid then 4 else 0) + (if r.frozen then 2 else 0) +
    (if r.gather then 1 else 0)
def Region.word1 (r : Region) : Nat := r.crcBase % 2 ^ 28 * 2 ^ 32 + r.tensor % 2 ^ 32

/-- Two entries are identical in every field. -/
def Region.same (r q : Region) : Bool := r.word0 = q.word0 && r.word1 = q.word1

def MemEntry.region (e : MemEntry) : Region := Region.ofWords e.word0 e.word1

/-- Extent of a GATHER region's CRC table. -/
def Region.crcSpan (r : Region) : Nat × Nat := (r.crcBase * 4096, (r.blocksM1 + 1) * 256)

/-- Two spans (start, length) overlap. -/
def spansOverlap (a b : Nat × Nat) : Bool := decide (a.1 < b.1 + b.2) && decide (b.1 < a.1 + a.2)

def Region.span (r : Region) : Nat × Nat := (r.start, r.stop - r.start)

/-- The rules of R186 that an entry keeps by itself. -/
def regionWordsOk (w0 w1 : Nat) : Bool :=
  let r := Region.ofWords w0 w1
  r.valid && bits w0 10 3 = 0 && bits w1 63 60 = 0 && (r.gather || r.crcBase = 0) &&
    (spanPlace r.start (r.stop - r.start)).isSome &&
    (! r.gather || (spanPlace r.start (r.stop - r.start) = some .larder &&
      spanPlace r.crcSpan.1 r.crcSpan.2 = some .larder && ! spansOverlap r.span r.crcSpan))

/-- The rules of R186 between an entry and a table: no overlap with another entry or CRC table, unless identical. -/
def regionFits (t : Tab Region) (r : Region) : Bool :=
  t.all (fun e => ! e.2.valid || e.2.same r ||
    (! spansOverlap e.2.span r.span && ! (e.2.gather && spansOverlap e.2.crcSpan r.span) &&
      ! (r.gather && (spansOverlap e.2.span r.crcSpan || (e.2.gather && spansOverlap e.2.crcSpan r.crcSpan)))))

/-- Put an entry into a table: shared with an identical one, else in the lowest free place; none when no place is free. -/
def regionPut (t : Tab Region) (r : Region) : Option (Tab Region) :=
  match t.find? (fun e => e.2.valid && e.2.same r) with
  | some (i, q) => some (t.put i { q with users := q.users + 1 })
  | none => ((List.range 256).find? (fun i => ! (t.getD i {}).valid)).map (fun i => t.put i { r with users := 1 })

/-- Remove one user of an entry; the whole entry goes with its last. R186 says of it only that VALID clears (DESIGN CHOICE, log 204). -/
def regionDel (t : Tab Region) (r : Region) : Option (Tab Region) :=
  (t.find? (fun e => e.2.valid && e.2.same r)).map (fun e =>
    if e.2.users ≤ 1 then t.del e.1 else t.put e.1 { e.2 with users := e.2.users - 1 })

/-- The table of a logical die in the hearth's copy. -/
def Panel.regionTable (p : Panel) (n : Nat) : Tab Region := p.regions.getD n []

/-- The hearth writes the region tables of logical dies from its copy into their dies (R186). -/
def State.writeRegions (s : State) (ns : List Nat) : State :=
  ns.foldl (fun s n => match s.siteOf n with
    | some d => if s.inService d then s.modDie d (fun x => { x with mem := { x.mem with regions := s.panel.regionTable n } }) else s
    | none => s) s

/-- Install entries of (logical die, word 0, word 1) in order: the tables, or the code of the first rule that fails. -/
def installAll (t : Tab (Tab Region)) : List (Nat × Nat × Nat) → Tab (Tab Region) ⊕ Nat
  | [] => .inl t
  | (n, w0, w1) :: rest =>
    let r := Region.ofWords w0 w1
    if ! regionWordsOk w0 w1 || ! regionFits (t.getD n []) r then .inr Code.regionConflict
    else match regionPut (t.getD n []) r with
      | none => .inr Code.regionTableFull
      | some u => installAll (t.put n u) rest

/-- All conflicts are found before a full table is (R507 step 13). -/
def installRegions (t : Tab (Tab Region)) (l : List (Nat × Nat × Nat)) : Tab (Tab Region) ⊕ Nat :=
  match installAll t l with
  | .inl u => .inl u
  | .inr c =>
    let bad := fun (e : Nat × Nat × Nat) => ! regionWordsOk e.2.1 e.2.2 || ! regionFits (t.getD e.1 []) (Region.ofWords e.2.1 e.2.2) ||
      l.any (fun f => f.1 = e.1 && ! regionFits [(0, Region.ofWords f.2.1 f.2.2)] (Region.ofWords e.2.1 e.2.2))
    .inr (if c = Code.regionTableFull && l.any bad then Code.regionConflict else c)

/-- Remove entries, each one user at a time; an entry that matches nothing is passed over. -/
def removeAll (t : Tab (Tab Region)) (l : List (Nat × Nat × Nat)) : Tab (Tab Region) :=
  l.foldl (fun t e => match regionDel (t.getD e.1 []) (Region.ofWords e.2.1 e.2.2) with
    | some u => t.put e.1 u
    | none => t) t

/-- The region entries of a menu. -/
def Menu.regionList (m : Menu) : List (Nat × Nat × Nat) := m.memEntries.map (fun e => (e.die, e.word0, e.word1))

/-- A menu is unloaded: its entry is freed and its region entries removed (R74, R509). -/
def State.unload (s : State) (m : Menu) : State :=
  let s1 := s.modPanel (fun p => { p with regions := removeAll p.regions m.regionList })
  ({ s1 with menus := s1.menus.filter (fun k => k.id ≠ m.id) } : State).writeRegions m.dies

end Sys2Proof.Machine
end

