-- ==== Sys2Proof/Machine/Sequencer.lean ====
section
/-! DEFINITION. The sequencer of a core (R76 to R87): fetch, start and end of courses, the operations of UNIT 0x0, and
the checkpoint test's place between courses (R456). -/
namespace Sys2Proof.Machine


/-- The next course of a core waits for the test of a checkpoint (R456). -/
def State.awaitsTest (s : State) (m : Menu) (d c : Nat) : Bool :=
  let q := (s.die d).seq c
  decide (0 < q.off) && m.ckpt (s.die d).standsFor c (q.off - 1) && decide (q.tested < q.off)

/-- Every core has finished the last offset and no test is due: the menu is DONE (R74). -/
def State.doneCheck (s : State) (id : Nat) : State :=
  match s.menu id with
  | none => s
  | some m =>
    let core := fun (n c : Nat) => decide (m.finished.getD (2 * n + c) 0 = m.offsets) &&
      match s.siteOf n with
      | some d => ! s.awaitsTest m d c
      | none => true
    if m.state = .running && m.err.isNone && m.dies.all (fun n => core n 0 && core n 1) then s.endMenu id 0 { code := 0 } else s

/-- The course of a core finishes (R77): its offset is done, and lateness ends when it finished before the tick after its
own (R84). -/
def State.courseFinished (s : State) (d c : Nat) : State :=
  let q := (s.die d).seq c
  match q.menu with
  | none => s
  | some id =>
    let n := (s.die d).standsFor
    let s1 := s.modDie d (fun x => x.modSeq c (fun q => { q with
      running := false, off := q.off + 1, late := q.late && decide (q.off < turnsSince q.start s.turn) }))
    (s1.modMenu id (fun m => { m with finished := m.finished.put (2 * n + c) (q.off + 1) })).doneCheck id

/-! ### Fetch and start (R76, R77) -/

/-- Start of a die's COURSES region (R509). -/
def Menu.courseBase (m : Menu) (n : Nat) : Nat :=
  ((m.memEntries.find? (fun e => e.die = n && e.use = 1)).map (fun e => e.region.start)).getD 0

/-- The course words that a string of bytes holds. -/
def wordsIn : Nat → Bytes → List W64
  | 0, _ => []
  | k + 1, bs => BitVec.ofNat 64 (leNat 8 bs) :: wordsIn k (bs.drop 8)

/-- COURSE_FETCH_DONE: the next course is in the spare buffer, verified; a block that failed all reads marks the fetch as
failed (R76). A die whose STANDS_FOR is 0x3F accepts no course (R48). -/
def execCourseFetchDone (d c : Nat) (s : State) : Host.Outcome State Fault Refusal :=
  .next (match s.menuAt d c with
    | none => s
    | some m =>
      let x := s.die d
      let q := x.seq c
      let t := if q.running then q.off + 1 else q.off
      if x.standsFor = 0x3F || ! m.active || q.stopped || q.next.isSome || decide (m.offsets ≤ t) || m.idleAt x.standsFor c t then s
      else
        let e := m.course (m.entryAt x.standsFor c t % 32768)
        let a := m.courseBase x.standsFor + (e.1 - m.courseLow)
        let f : Fetched := match (x.mem.verifiedRead (.sequencer c) a (8 * e.2)).fault Code.glazeFault with
          | .inl bs => { off := t, words := wordsIn e.2 bs }
          | .inr g => { off := t, failed := some g }
        s.modDie d (fun x => (x.readDone (.sequencer c) (some c) [(a, 8 * e.2)]).modSeq c (fun q => { q with next := some f })))

/-- COURSE_START: the course of the next offset starts when its tick has come, the course before it has finished, its
fetch is in and no test is due; an idle entry finishes at its own start; a failed fetch raises GLAZE_FAULT. `lag` counts the
core clocks from its tick (R76, R77, R87). -/
def execCourseStart (d c lag : Nat) (s : State) : Host.Outcome State Fault Refusal :=
  .next (match s.menuAt d c with
    | none => s
    | some m =>
      let x := s.die d
      let q := x.seq c
      if x.standsFor = 0x3F || m.state ≠ .running || q.running || q.stopped || decide (m.offsets ≤ q.off) || decide (turnsSince q.start s.turn < q.off) ||
          s.awaitsTest m d c || (s.panel.kats.find d).isSome then s
      else
        let lagged := fun (q : Seq) => { q with maxLag := max q.maxLag (min lag (2 ^ 24 - 1)) }
        if m.idleAt x.standsFor c q.off then (s.modDie d (fun x => x.modSeq c lagged)).courseFinished d c
        else match q.next with
          | none => s
          | some f =>
            if f.off ≠ q.off then s
            else if let some g := f.failed then
              (s.modDie d (fun x => x.modSeq c (fun q => { q with next := none, faultBlock := some g.1 }))).raiseAt d c g.2 q.off 0xFF
                0xFFFFFFFF
            else s.modDie d (fun x => x.modSeq c (fun q => { lagged q with
              running := true, words := f.words, next := none
              threads := (q.threads.mapVal (fun _ th => { th with started := false, wait := .ready })).put 0
                { q.thread 0 with started := true, pc := 0, wait := .ready, ctr := [] } })))

/-- COURSE_WATCHDOG: a course still runs at the tick of turn S + t + WATCHDOG (R85). -/
def execCourseWatchdog (d c : Nat) (s : State) : Host.Outcome State Fault Refusal :=
  .next (match s.menuAt d c with
    | none => s
    | some m =>
      let q := (s.die d).seq c
      if m.active && q.running && decide (q.off + m.watchdog ≤ turnsSince q.start s.turn) then
        s.raiseAt d c Code.courseWatchdog q.off 0xFF 0xFFFFFFFF
      else s)

/-- KAT_CHECKPOINT: both cores have finished a course with CKPT, and the arrays, vector units and ladle channels are idle: the
test runs (R456). -/
def execKatCheckpoint (d : Nat) (s : State) : Host.Outcome State Fault Refusal :=
  .next (match s.menuAt d 0 with
    | none => s
    | some m =>
      let x := s.die d
      let q0 := x.seq 0
      let q1 := x.seq 1
      let idle := [0, 1, 2, 3].all (fun a => (x.arr a).idle) &&
        [0, 1].all (fun v => (x.vec v).queue.isEmpty && (x.vec v).running.isNone) &&
        [0, 1, 2, 3].all (fun ch => (x.chan ch).cq.isEmpty && (x.chan ch).dq.isEmpty && (x.chan ch).active.isEmpty)
      if m.state ≠ .running || q0.off ≠ q1.off || q0.running || q1.running || ! s.awaitsTest m d 0 ||
          (s.panel.kats.find d).isSome || ! idle then s
      else s.modPanel (fun p => { p with
        kats := p.kats.put d { trigger := 1, turn := s.turn, budget := x.leave.cur, off := q0.off - 1 } }))

/-! ### UNIT 0x0 (R82, R83) -/

/-- A word of UNIT 0x0 with only the listed fields set. -/
def badSeqWord (w : W64) (mask : Nat) : Bool := ! bodyOk w mask || wTicket w ≠ 0

/-- The target of a branch offset within the course. -/
def Seq.target (q : Seq) (o : Origin) (w : W64) : Option Nat :=
  let t : Int := (o.word : Int) + signed 16 (wField w 15 0)
  if 0 ≤ t && t < q.words.length then some t.toNat else none

/-- NOP. -/
def execNop (d c t : Nat) (w : W64) (s : State) : Host.Outcome State Fault Refusal :=
  .next (s.issue d c t w 0 0 (fun s o =>
    if badSeqWord w 0 then s.raise d o Code.courseDecode else s.countTag d o))

/-- END: the thread ends; when no thread of the course is left, the course finishes (R77). -/
def execEndThread (d c t : Nat) (w : W64) (s : State) : Host.Outcome State Fault Refusal :=
  .next (s.issue d c t w 0 1 (fun s o =>
    if badSeqWord w 0 then s.raise d o Code.courseDecode
    else
      let s1 := (s.countTag d o).modThread d c t (fun th => { th with started := false })
      if ((s1.die d).seq c).threads.any (fun e => e.2.started) then s1 else s1.courseFinished d c))

/-- A met WAIT_TAG: the tag is lowered, the wait completes, and its own TAG counts (R79). -/
def State.tagMet (s : State) (d : Nat) (o : Origin) (k n : Nat) : State :=
  (s.modThread d o.core o.thread (fun th => { th with wait := .ready, tags := th.tags.put k (th.tags.getD k 0 - n) })).countTag d o

/-- WAIT_TAG. -/
def execWaitTag (d c t : Nat) (w : W64) (s : State) : Host.Outcome State Fault Refusal :=
  .next (s.issue d c t w 0 2 (fun s o =>
    let k := wField w 45 42
    let n := wField w 41 32
    if badSeqWord w (maskOf 45 32) || k = 0 || n = 0 then s.raise d o Code.courseDecode
    else if n ≤ (((s.die d).seq c).thread t).tags.getD k 0 then s.tagMet d o k n
    else s.modThread d c t (fun th => { th with wait := .tag k n o.tag })))

/-- WAIT_TAG_SATISFIED. -/
def execWaitTagSatisfied (d c t : Nat) (s : State) : Host.Outcome State Fault Refusal :=
  .next (let q := (s.die d).seq c
    let th := q.thread t
    match th.wait with
    | .tag k n own =>
      if n ≤ th.tags.getD k 0 then (s.tagMet d { core := c, thread := t, off := q.off, tag := own } k n).runOff d c t else s
    | _ => s)

/-- WAIT_QUEUE. -/
def execWaitQueue (d c t : Nat) (w : W64) (s : State) : Host.Outcome State Fault Refusal :=
  .next (s.issue d c t w 0 3 (fun s o =>
    let x := s.die d
    let q := wField w 45 32
    let n := wField w 31 16
    if badSeqWord w (maskOf 45 16) || n = 0 then s.raise d o Code.courseDecode
    else if ! s.plansQueue d c q then s.raise d o Code.qplNoQueue
    else if (x.queue q).max < n then s.raise d o Code.qplWaitRange
    else if n ≤ (x.queue q).depth then s.countTag d o
    else s.modThread d c t (fun th => { th with wait := .queue q n o.tag })))

/-- WAIT_QUEUE_SATISFIED. -/
def execWaitQueueSatisfied (d c t : Nat) (s : State) : Host.Outcome State Fault Refusal :=
  .next (let x := s.die d
    let q := x.seq c
    match (q.thread t).wait with
    | .queue k n own =>
      if n ≤ (x.queue k).depth then
        ((s.modThread d c t (fun th => { th with wait := .ready })).countTag d { core := c, thread := t, off := q.off, tag := own }).runOff d c t
      else s
    | _ => s)

/-- SET_CTR. -/
def execSetCtr (d c t : Nat) (w : W64) (s : State) : Host.Outcome State Fault Refusal :=
  .next (s.issue d c t w 0 4 (fun s o =>
    if badSeqWord w (maskOf 45 43 + maskOf 31 0) then s.raise d o Code.courseDecode
    else (s.modThread d c t (fun th => { th with ctr := th.ctr.put (wField w 45 43) (wField w 31 0) })).countTag d o))

/-- ADD_CTR. -/
def execAddCtr (d c t : Nat) (w : W64) (s : State) : Host.Outcome State Fault Refusal :=
  .next (s.issue d c t w 0 5 (fun s o =>
    if badSeqWord w (maskOf 45 43 + maskOf 31 0) then s.raise d o Code.courseDecode
    else (s.modThread d c t (fun th =>
      let k := wField w 45 43
      { th with ctr := th.ctr.put k ((th.ctr.getD k 0 + wField w 31 0) % 2 ^ 32) })).countTag d o))

/-- LOOP. -/
def execLoop (d c t : Nat) (w : W64) (s : State) : Host.Outcome State Fault Refusal :=
  .next (s.issue d c t w 0 6 (fun s o =>
    match ((s.die d).seq c).target o w with
    | none => s.raise d o Code.courseDecode
    | some goal =>
      if badSeqWord w (maskOf 45 43 + maskOf 15 0) then s.raise d o Code.courseDecode
      else (s.modThread d c t (fun th =>
        let k := wField w 45 43
        let v := (th.ctr.getD k 0 + (2 ^ 32 - 1)) % 2 ^ 32
        { th with ctr := th.ctr.put k v, pc := if v = 0 then th.pc else goal })).countTag d o))

/-- The conditions of BRANCH on a counter. -/
def branchHolds (cond ctr : Nat) : Bool :=
  let v := signed 32 ctr
  match cond with
  | 0 => true
  | 1 => v = 0
  | 2 => v ≠ 0
  | 3 => v < 0
  | 4 => 0 ≤ v
  | 5 => 0 < v
  | 6 => v ≤ 0
  | _ => false

/-- BRANCH. -/
def execBranch (d c t : Nat) (w : W64) (s : State) : Host.Outcome State Fault Refusal :=
  .next (s.issue d c t w 0 7 (fun s o =>
    match ((s.die d).seq c).target o w with
    | none => s.raise d o Code.courseDecode
    | some goal =>
      if badSeqWord w (maskOf 45 40 + maskOf 15 0) || wField w 42 40 = 7 then s.raise d o Code.courseDecode
      else (s.modThread d c t (fun th =>
        if branchHolds (wField w 42 40) (th.ctr.getD (wField w 45 43) 0) then { th with pc := goal } else th)).countTag d o))

/-- FORK. -/
def execFork (d c t : Nat) (w : W64) (s : State) : Host.Outcome State Fault Refusal :=
  .next (s.issue d c t w 0 8 (fun s o =>
    let k := wField w 45 42
    match ((s.die d).seq c).target o w with
    | none => s.raise d o Code.courseDecode
    | some goal =>
      if badSeqWord w (maskOf 45 42 + maskOf 15 0) then s.raise d o Code.courseDecode
      else if (((s.die d).seq c).thread k).started then s.raise d o Code.seqThreadBusy
      else (s.modThread d c k (fun th => { th with started := true, pc := goal, wait := .ready, ctr := [] })).countTag d o))

end Sys2Proof.Machine
end

