-- ==== Sys2Proof/Machine/Bringup.lean ====
section
/-! DEFINITION. Known-answer tests (R454 to R458), bring-up (R441 to R447), and the hearths' heartbeats, claims and watchdogs (R400 to R405). -/
namespace Sys2Proof.Machine

/-! ### Known-answer tests -/

/-- The KAT area of every bank holds no defined contents after a test, and the test has used the unused last 512 KiB of each tag range
(R184, R455): their bytes are free. -/
def State.scrubKat (s : State) (d : Nat) : State :=
  let f := s.fresh
  f.2.modDie d (fun x =>
    let m := (List.range 8).foldl (fun (m : MemUnit) b =>
      m.panWrite (pantryBase + 12582912 * b + 11534336) ((List.range 1048576).map (fun i => Config.freeByte f.1 (1048576 * b + i)))) x.mem
    let tail := fun (c : Mem) (k a : Nat) => c.write a ((List.range 524288).map (fun i => Config.freeByte f.1 (1048576 * k + i)))
    { x with mem := { m with cells := tail (tail m.cells 8 0x1FFFF80000) 9 0x3FFFF80000
                             panCorrected := x.mem.panCorrected, panUncorrectable := x.mem.panUncorrectable
                             panLastBank := x.mem.panLastBank } })

/-- A die joins after its reset or its repeat (R439, R443): it is rewritten, its number is no longer VACANT, the mesh routes and
topology follow, and the end is logged (R461). -/
def State.join (s : State) (d : Nat) : State :=
  let s1 := (s.modPanel (fun p => { p with
    restarts := p.restarts.del d, bring := { p.bring with unreadable := p.bring.unreadable.filter (· ≠ d) } })).rewrite d
  ((if s.transit then s1.topology else s1).meshRoutes).resetEnds (dieSubject (s.site d).standsFor) 5

/-- A die declared hard-failed outside a reset (R45, R457). -/
def State.declareHard (s : State) (d : Nat) : State :=
  (s.notice Code.dieHardFailed (dieSubject (s.site d).standsFor) 0 0 0).hardFail d

/-- The test of a die is over: it holds no leave any more. -/
def State.katClosed (s : State) (d : Nat) : State :=
  (s.modDie d (fun x => { x with leave := x.leave.katEnded s.turn })).modPanel (fun p => { p with kats := p.kats.del d })

/-- The phases that the test itself runs: what power, links and memory training find, at bring-up and at a die reset, is the outcome of
their own steps (R443, R454). -/
def katPhases (failed : Nat) : Nat := 8 * bits failed 7 3

/-- KAT_DONE: the test of a die ends with the failed phases as a mask; `tmax`, `duty` and `leave` are what R457 records of it. What a
phase finds is a matter of the silicon, and comes with the command (log 203). -/
def execKatDone (d failed : Nat) (tmax : Int) (duty leave : Nat) (s : State) : Host.Outcome State Fault Refusal :=
  .next (match s.panel.kats.find d with
    | none => s
    | some k =>
      let n := (s.site d).standsFor
      let r := katRecord k.turn n d (katPhases failed) k.trigger tmax duty leave k.budget
      let s1 := (((if k.trigger = 1 then s.katCounts d else s).scrubKat d).katClosed d).logKat n r
      let bad := katPhases failed ≠ 0
      let h := if bad then s1.holdKey d (katKey tmax duty leave) else (s1, false)
      match k.trigger with
      | 0 => if bad then h.1.dieFailed d h.2
             else if (s.panel.restarts.find d).isSome then h.1.join d else h.1
      | 1 =>
        if bad then
          let s2 := h.1.abortMenus (fun m => m.dies.contains n) { code := Code.katFailed, die := n, off := k.off }
          if h.2 then s2.declareHard d else s2
        else
          let s2 := h.1.modDie d (fun x => [0, 1].foldl (fun x c => x.modSeq c (fun q => { q with tested := k.off + 1 })) x)
          match ((s.die d).seq 0).menu with
          | some id => s2.doneCheck id
          | none => s2
      | _ =>
        let s2 := h.1.modPanel (fun p => { p with katRun := p.katRun.map (fun q => { q with
          round := q.round.put n r, failed := q.failed || bad }) })
        if h.2 then s2.declareHard d else s2.katAdvance)

/-! ### Classes of commands (R415, R417) -/

/-- The classes of R415 that replay treats apart. -/
def isStateOp (op : Nat) : Bool :=
  [0x0100, 0x0101, 0x0104, 0x0105, 0x0106, 0x0107, 0x0108, 0x010D, 0x0202, 0x0203, 0x0204, 0x0205, 0x0207, 0x0208].contains op

/-- The outcome of a LAUNCH that a panel reset ends (R417): as kept when its menu was stopped, else of a menu of which no
offset is complete. -/
def Entry.interruptedAnswer (e : Entry) : Bytes :=
  if e.answer.isEmpty then leBytes 8 (leAt e.payload 0 8) ++ leBytes 6 (2 ^ 48 - 1) ++ [0xFF, 0xFF] ++ leBytes 6 0 ++ [0xFF, 0] ++
    leBytes 4 0xFFFFFFFF ++ List.replicate 32 0
  else e.answer

/-! ### Firmware (R444 to R447) -/

def Slot.image (s : Slot) : Bytes := if s.factory then Config.factoryImage else s.data
def Slot.version (s : Slot) : Nat := leAt s.image 0x0C 4
def Slot.bodyLen (s : Slot) : Nat := leAt s.image 0x18 8

/-- A slot is verified (R445). -/
def Slot.verified (p : Panel) (s : Slot) : Bool :=
  if s.factory then true
  else
    let b := s.data
    let n := s.bodyLen
    let key := sliceAt b 0x20 64
    leAt b 0 4 = 0x48575246 && leAt b 4 4 = 1 && leAt b 8 4 = 0x30 && decide (256 + n + 64 ≤ b.length) &&
      Sm3.digest key = p.fwKeyHash && decide (p.minSvn ≤ leAt b 0x10 2) && Sm3.digest (sliceAt b 0x100 n) = sliceAt b 0x60 32 &&
      Config.sm2Verify key (Sm3.digest (sliceAt b 0 (256 + n))) (sliceAt b (256 + n) 64)

/-- The slot that a hearth boots, and whether it is the second that its ROM verified (R446). -/
def Panel.bootOf (p : Panel) (k : Nat) (readable : Bool) : Option (Nat × Bool) :=
  let y := p.hearth k
  let ok := fun i => (y.slots.getD i {}).verified p
  let first := ((p.mrams.find k).map Mram.bootSlot).getD p.bootSlot
  if ! (readable && y.tested && ! y.fail) then none
  else if ok first then some (first, false)
  else if ok (1 - first) then some (1 - first, true)
  else none

/-- ROM mode (R447): the serving hearth has booted no firmware. -/
def Panel.romMode (p : Panel) : Bool :=
  match p.server with
  | some k => (p.hearth k).booted.isNone
  | none => false

/-- The journal copy of step 3 (R402). When both hearths run, the one with the newer journal copies it to the other; one that
runs alone goes on from what its own MRAM holds, and the other keeps what it has. -/
def State.journalCopy (s : State) (both : Bool) : State :=
  match s.panel.server with
  | none => s
  | some k =>
    let alone := (s.panel.hearth (1 - k)).role = .down
    let set := fun (s : State) (t : Tab Mram) => s.modPanel (fun p => { p with mrams := t })
    if both then (if alone then (set s []).mramStops (1 - k) else set s [])
    else match s.panel.mrams.find k with
      | some m => set (s.fromMram m) [(1 - k, s.mramOf)]
      | none => s.mramStops (1 - k)

/-- Step 3: the roles (R400, R446, R447) and the journal copy. -/
def State.bootRoles (s : State) (ok0 ok1 : Bool) : State :=
  let p := s.panel
  let b0 := p.bootOf 0 ok0
  let b1 := p.bootOf 1 ok1
  let put := fun (s : State) (k : Nat) (b : Option (Nat × Bool)) (r : Role) =>
    s.modHearth k (fun y => { y with role := r, booted := b.map Prod.fst, fellBack := (b.map Prod.snd).getD false })
  let up := fun k => (p.hearth k).tested && ! (p.hearth k).fail
  let two := fun (a b : Role) (s : State) => put (put s 0 b0 a) 1 b1 b
  let s1 := match b0, b1 with
    | some x0, some x1 =>
      let i0 := (p.hearth 0).slots.getD x0.1 {}
      let i1 := (p.hearth 1).slots.getD x1.1 {}
      if (i0.factory && i1.factory) || i0.version = i1.version then two .primary .partner s
      else (two .sole .down s).notice Code.hearthVersionMismatch noSubject 0 0 0
    | some _, none => two .sole .down s
    | none, some _ => two .down .sole s
    | none, none =>
      if up 0 && up 1 then two .primary .partner s
      else if up 0 then two .sole .down s
      else if up 1 then two .down .sole s
      else s
  let s2 := s1.modPanel (fun p => { p with bridgeOwner := p.server.getD p.bridgeOwner })
  if s2.panel.server.isNone then s
  else (s2.journalCopy (b0.isSome = b1.isSome && up 0 && up 1)).modPanel (fun p => { p with bring := { p.bring with step := if p.romMode then 12 else 4 } })

/-! ### The live map (R44, R52, R437) -/

/-- First pass: sites whose stepping lies outside the class become INCOMPAT; the numbers their ACTIVE sites served. -/
def excludedSites (s : State) (m : SiteMap) : List Nat :=
  (List.range 52).filter (fun d =>
    let e := m.entry d
    (e.state = .active || e.state = .spare || e.state = .off) && ! classAdmits s.panel.compatClass (s.die d).stepping)

/-- Both passes on a map. -/
def formMap (s : State) (m : SiteMap) : SiteMap :=
  let out := excludedSites s m
  let m1 := out.foldl (fun m d => m.put d { state := .incompat, standsFor := 0x3F }) m
  ((List.range 52).filter homeNumber).foldl (fun t v =>
    match out.find? (fun d => (m.entry d).state = .active && (m.entry d).standsFor = v) with
    | some f => SiteMap.substitute t v f
    | none => t) m1

/-- The feature level: the AND of FEATURES over the ACTIVE dies, restricted to the bits of the level in force (R52, R500). -/
def State.levelOf (s : State) : Nat :=
  match s.activeSites with
  | [] => 1
  | l => l.foldl (fun a d => a &&& (s.die d).features) 0xF

/-- Step 4: the live map, STEPPING_EXCLUDED, the feature level, menus whose numbers have moved, vacant numbers. -/
def State.liveMap (s : State) : State :=
  let snap : SiteMap := (s.panel.bring.snapshot).getD s.panel.pendingMap
  let out := excludedSites s snap
  let m : SiteMap := formMap s snap
  let s1 := out.foldl (fun s d =>
    let e := snap.entry d
    s.notice Code.steppingExcluded (dieSubject (if e.standsFor = 0x3F then 0xFF else e.standsFor)) d ((s.die d).stepping % 4)
      s.panel.compatClass) s
  let s2 := ({ s1 with live := m } : State).modPanel (fun p => { p with pendingMap := m })
  let s3 := s2.modPanel (fun p => { p with featureLevel := s2.levelOf })
  let moved := (List.range 52).filter (fun n => match s3.siteOf n, s.panel.served.find n with
    | some d, some e => d ≠ e
    | _, _ => false)
  let gone := s3.menus.filter (fun k => k.dies.any (fun n => moved.contains n))
  let s4 := gone.foldl (fun s k => (s.unload k).noticeTo (some k.noticeHatch) Code.menuUnloaded noSubject k.id 0 0) s3
  let s5 := ((List.range 52).filter (fun n => homeNumber n && (s4.siteOf n).isNone)).foldl
    (fun s n => s.vacantNotice n (s.panel.served.getD n 0xFF)) s4
  let served := (List.range 52).foldl (fun t n => match s5.siteOf n with
    | some d => Tab.put t n d
    | none => t) s.panel.served
  s5.modPanel (fun p => { p with served := served })

/-! ### Steps 5 to 11 -/

/-- Dies on which a step works: ACTIVE, in service. -/
def State.stepDies (s : State) : List Nat := s.activeSites.filter s.inService

/-- Step 5 at one site whose sampled straps differ from R28 (R32, R45). -/
def State.orientFailed (s : State) (d v : Nat) : State :=
  let n := (s.site d).standsFor
  let s1 := s.modDie d (fun x => { x with orient := v % 4 })
  let s2 := (s1.notice Code.orientMismatch (dieSubject (s.dieTag d)) d (v % 4) (strapsOf d)).hardFail d
  s2.vacantNotice n d

/-- The exit from SHUTDOWN at a panel reset (R390): cool, with at least four sensors plausible. -/
def State.shutdownExit (s : State) (d : Nat) : State :=
  let x := s.die d
  if ! x.power.shutdown then s
  else
    let good := (goodOnes x.thermal.sensors).filter (fun e => decide (0 < e.2.taken))
    if decide (4 ≤ good.length) && x.thermal.tmax < 1440 then
      s.modDie d (fun x => { x with thermal := { x.thermal with state := .normal, dThr := 16 }, power := { x.power with shutdown := false } })
    else s.thermalNotice d Code.thermalShutdown 0

/-- Step 9 at one port: its own bay, or a spare for a bay that is not STANDBY (R252, R442). -/
def State.feedPort (s : State) (n : Nat) : State :=
  let own := ownBay n
  let cur := (s.port n).feed
  let st := (s.bay own).state
  if st = 2 || (st = 3 && cur = some own) then
    let s1 := match cur with
      | some o => if o ≠ own && (s.bay o).state = 3 then s.modBay o (fun y => { y with state := 2 }) else s
      | none => s
    (s1.modBay own (fun y => { y with state := 3 })).modPort n (fun p => { p with feed := some own })
  else if (cur.map (fun o => decide (o ≠ own) && decide ((s.bay o).state = 3))).getD false then s
  else
    let s1 := s.modPort n (fun p => { p with feed := none })
    match s1.freeSpare n with
    | some b => s1.feedFrom n b 4
    | none => s1.modPort n (fun p => { p with feed := if st = 1 then cur else none })

/-- Step 9: feeds, and every port not held OFF goes to RUN; with LASER_OFF no output is enabled. Presses that a switchover held are
applied (R492). -/
def State.stepPorts (s : State) : State :=
  let s1 := if s.panel.laserOff then s else (List.range 9).foldl State.feedPort s
  let s2 := (List.range 9).foldl State.afterSwitch s1
  (List.range 8).foldl (fun s n => s.modPort n (fun p => { p with state := if p.held then 0 else 2 })) s2

/-- Step 10 starts: the test of every ACTIVE die in service. -/
def State.startKats (s : State) : State :=
  s.stepDies.foldl (fun s d => s.modPanel (fun p => { p with
    kats := p.kats.put d { trigger := 0, turn := s.turn, budget := (s.die d).leave.cur } })) s

/-! ### Bring-up commands -/

/-- REFERENCE_CLOCK_RELEASE: step 1 ends once the busbar is in range, the flow at least 15 L/min and the inlet at most 40 °C
(R442). -/
def execReferenceClockRelease (mv : Nat) (inlet outlet : Int) (flow : Nat) (s : State) : Host.Outcome State Fault Refusal :=
  .next (if s.panel.bring.step ≠ 1 || s.panel.busbar = .lost || mv < 48000 || 58000 < mv || flow < 1500 || 640 < inlet then s
    else ({ s with turn := 0 } : State).modPanel (fun p => { p with
      bring := { p.bring with step := 2 }, busbarMv := mv, inlet := inlet, outlet := outlet, flow := flow }))

/-- BRING_UP_START: 1 ms after a panel warm reset starts the hearths are released; dies in SHUTDOWN leave it when they have
cooled (R390, R438). -/
def execBringUpStart (s : State) : Host.Outcome State Fault Refusal :=
  .next (if s.panel.bring.step ≠ 0 then s
    else
      let s1 := (List.range 52).foldl State.shutdownExit s
      s1.modPanel (fun p => { p with bring := { p.bring with step := 2 } }))

/-- The sites against which links that failed training are counted (R443). `l` holds the receivers that failed to lock, as site and
direction (0 N, 1 E, 2 S, 3 W): each counts against its die, but of two receivers of one link only against the higher site. -/
def linkBlame (l : List (Nat × Nat)) : List Nat :=
  (l.filter (fun f => match (neighbours f.1).find? (fun e => e.1 = f.2) with
    | some e => decide (e.2 < f.1) || ! l.contains (e.2, (f.2 + 2) % 4)
    | none => false)).foldl (fun t f => insertNat f.1 t) []

/-- The receiver `f` belongs to a link that trains: both its dies are in service, or one is `own`, the die that is being restarted
(R37, R439, R442). -/
def State.linkTrains (s : State) (own : Nat) (f : Nat × Nat) : Bool :=
  let on := fun (d : Nat) => d = own || s.inService d
  on f.1 && (neighbours f.1).any (fun e => e.1 = f.2 && on e.2)

/-- The receiver `f` sits at one end of a link of site `d`. -/
def touches (d : Nat) (f : Nat × Nat) : Bool := f.1 = d || (neighbours f.1).any (fun e => e.1 = f.2 && e.2 = d)

/-- One step of bring-up before the last ends. `failed` names sites with what failed there: unreadable dies (4), sampled straps (5),
dies without power-good (6), receivers of links that did not lock, with their direction (7), PHYs not trained (8). -/
def State.stepDone (s : State) (ok0 ok1 : Bool) (failed : List (Nat × Nat)) : State :=
  let goOn := fun (s : State) => s.modPanel (fun p => { p with bring := { p.bring with step := p.bring.step + 1 } })
  let mine := failed.filter (fun f => s.stepDies.contains f.1)
  match s.panel.bring.step with
  | 2 =>
    let test := fun (s : State) (k : Nat) (ok : Bool) => if ok then s.modHearth k (fun y => { y with tested := ! y.fail }) else s.hearthFails k
    let s1 := test (test s 0 ok0) 1 ok1
    let s2 := if s.panel.bring.cold then (List.range 12).foldl (fun s b =>
      if (s.bay b).seated then s.modBay b (fun y => { y with state := 1 }) else s) s1 else s1
    goOn s2
  | 3 => s.bootRoles ok0 ok1
  | 4 =>
    if s.panel.compatClass ≠ 1 && s.panel.compatClass ≠ 2 then s
    else
      let s1 := s.liveMap.modPanel (fun p => { p with bring := { p.bring with unreadable := failed.map Prod.fst } })
      goOn ((failed.filter (fun f => s1.stepDies.contains f.1)).foldl (fun s f => s.phaseFailed f.1 0) s1)
  | 5 => goOn ((failed.filter (fun f => s.activeSite f.1)).foldl (fun s f => if f.2 % 4 = strapsOf f.1 then s else s.orientFailed f.1 f.2) s)
  | 6 =>
    let s1 := if s.panel.bring.cold then (List.range 52).foldl State.shutdownExit s else s
    let s2 := (s1.activeSites.filter (fun d => (s1.die d).power.shutdown)).foldl (fun s d => s.vacantNotice (s.site d).standsFor d) s1
    let s3 := s2.stepDies.foldl State.powerUp s2
    goOn ((failed.filter (fun f => s2.stepDies.contains f.1)).foldl (fun s f => s.phaseFailed f.1 0) s3)
  | 7 => goOn (((linkBlame (mine.filter (s.linkTrains 52))).foldl (fun s d => s.phaseFailed d 1) s).meshRoutes)
  | 8 =>
    let s1 := s.stepDies.foldl (fun s d => s.modDie d Die.train) s
    goOn (mine.foldl (fun s f => s.phaseFailed f.1 2) s1)
  | 9 => goOn (s.stepPorts.startKats)
  | 10 => if s.panel.kats.any (fun k => k.2.trigger = 0 && (s.panel.restarts.find k.1).isNone) then s else goOn s
  | 11 => s.settlePorts (goOn (s.stepDies.foldl State.rewrite s)) true
  | _ => s

/-- Steps 6 to 8 for a die that is being restarted: what fails is recorded and handled as in bring-up (R443, R457); else its test
starts. `links` holds the receivers that failed to lock. -/
def State.restartSteps (s : State) (d : Nat) (power : Bool) (links : List (Nat × Nat)) (mem : Bool) : State :=
  let s1 := s.powerUp d
  let blamed := linkBlame (links.filter (fun f => touches d f && s.linkTrains d f))
  if ! power then s1.phaseFailed d 0
  else
    let s2 := (blamed.foldl (fun s e => s.phaseFailed e 1) s1).meshRoutes
    if blamed.contains d then s2
    else if ! mem then s2.phaseFailed d 2
    else (s2.modDie d Die.train).modPanel (fun p => { p with
      kats := p.kats.put d { trigger := 0, turn := s.turn, budget := (s.die d).leave.cur } })

/-- DIE_RESET_RESTART: 1 ms after a die reset starts, or at once for a repeat, the die samples its straps, steps 5 to 8 run for it and
its test starts (R28, R439, R443); step 5 compares the straps (R32). A die that stays at ALWAYS_ON until the next panel reset does
so: its reset ends (R427, R443, log 158). -/
def execDieResetRestart (f : Restarting) (s : State) : Host.Outcome State Fault Refusal :=
  .next (match s.panel.restarts.find f.die with
    | none => s
    | some r =>
      if ! r.waiting then s
      else if s.panel.out.contains f.die then
        (s.modPanel (fun p => { p with restarts := p.restarts.del f.die })).resetEnds (dieSubject (s.site f.die).standsFor) 5
      else if f.strap % 4 ≠ strapsOf f.die then s.orientFailed f.die f.strap
      else ((s.modDie f.die (fun x => { x with orient := f.strap % 4 })).modPanel (fun p => { p with
        restarts := p.restarts.put f.die { r with waiting := false } })).restartSteps f.die f.power f.links f.mem)

/-! ### Hearths (R400 to R405) -/

/-- HEARTBEAT: a hearth hears its partner. -/
def execHeartbeat (k : Nat) (s : State) : Host.Outcome State Fault Refusal :=
  .next (if k < 2 then s.modHearth k (fun y => { y with missed := 0 }) else s)

/-- HEARTBEAT_LOSS: a hearth has missed five heartbeats of its partner in a row (R402). -/
def execHeartbeatLoss (k : Nat) (s : State) : Host.Outcome State Fault Refusal :=
  .next (if 2 ≤ k || s.panel.bring.step < 4 then s
    else
      let primary := (s.panel.hearth k).role = .primary
      let s1 := (s.modHearth k (fun y => { y with missed := 5 })).partnerLost k
      if primary then s1.modHearth (1 - k) (fun y => { y with role := .down }) else s1)

/-- FAIL_LINE: a hearth's FAIL line rises. -/
def execFailLine (k : Nat) (s : State) : Host.Outcome State Fault Refusal := .next (s.hearthFails k)

/-- FIRMWARE_WATCHDOG: 4 ms without service raise the FAIL line; boot firmware must be running. -/
def execFirmwareWatchdog (k : Nat) (s : State) : Host.Outcome State Fault Refusal :=
  .next (if (s.panel.hearth k).role = .down && 3 < s.panel.bring.step then s else s.hearthFails k)

/-- BRIDGE_CLAIM: the claim of hearth `k` is granted while the owner's FAIL line is high, or when the owner has not refreshed
for 3 ms (`stale`). -/
def execBridgeClaim (k : Nat) (stale : Bool) (s : State) : Host.Outcome State Fault Refusal :=
  .next (if s.panel.takeover = some k && ((s.panel.hearth s.panel.bridgeOwner).fail || stale) then
      s.modPanel (fun p => { p with bridgeOwner := k })
    else s)

/-- NEIGHBOUR_SOLICITATION: the port bridge answers from its own state, through a takeover too. -/
def execNeighbourSolicitation (s : State) : Host.Outcome State Fault Refusal :=
  .next (if (s.port 8).up then { s with outbox := s.outbox ++ [.solicitation] } else s)

/-- PTP_MESSAGE: the hearth that serves takes its time from the HOST port. -/
def execPtpMessage (time : Nat) (s : State) : Host.Outcome State Fault Refusal :=
  .next (if (s.port 8).up && s.panel.serves then s.modPanel (fun p => { p with ptp := some time }) else s)

end Sys2Proof.Machine
end

