-- ==== Sys2Proof/Machine/Turns.lean ====
section
/-! DEFINITION. The turn tick and its per-turn work (R56 to R58), and the turn discipline loop (R60 to R66). -/
namespace Sys2Proof.Machine

/-! ### The discipline loop -/

def State.modTime (s : State) (f : TimeBase → TimeBase) : State := s.modPanel (fun p => { p with time := f p.time })

/-- The group number of the module, 0xFF while it has no coordinates. -/
def State.ownGroup (s : State) : Nat := if s.panel.fabric.coordValid then cGroup s.panel.fabric.coord else 0xFF

/-- A beacon that came in turn `turn`. -/
def TimeBase.fresh (t : TimeBase) (port turn : Nat) : Option Beacon :=
  match t.beacons.find port with
  | some b => if b.arrTurn = turn && b.hops ≠ 0xFF then some b else none
  | none => none

/-- The parent of a MEMBER (R62): the local port whose fresh beacons carry the own group number and the smallest HOPS. A module that
has no group number yet takes none. -/
def TimeBase.memberParent (t : TimeBase) (group turn : Nat) : Option Nat :=
  (List.range 6).foldl (fun best p =>
    match t.fresh p turn with
    | none => best
    | some b =>
      if group = 0xFF || b.group ≠ group then best
      else match best with
        | none => some p
        | some q => match t.fresh q turn with
          | some a => if b.hops < a.hops then some p else best
          | none => some p) none

/-- The parent that R61 and R62 give now, if one has valid beacons. -/
def State.parentNow (s : State) (turn : Nat) : Option Nat :=
  let t := s.panel.time
  if t.role = 2 then (t.fresh t.rootPort turn).map (fun _ => t.rootPort)
  else if t.role = 3 then t.memberParent s.ownGroup turn
  else none

/-- A stamp (turn, phase) in 1/64 reference clock, counted from the start of turn `rel`. -/
def stampFrom (rel turn phase : Nat) : Int := turnsTo rel turn * 65536 + phase

/-- The delay of a link from the four stamps of R60. The spec does not round the half; the model rounds down
(DESIGN CHOICE, log 63). -/
def linkDelay (t1 t2 t3 t4 : Int) : Int := ((t2 - t1) + (t4 - t3)) / 2

/-- The offset of the own tick minus the parent's, in 1/64 reference clock, from the beacons of the two directions of the
link (R60, R66); none until this end has sent one. -/
def Beacon.offset (b : Beacon) : Option Int :=
  b.own.map (fun o =>
    let t1 := stampFrom b.arrTurn o.1 o.2
    let t2 := Config.farStamp b.far
    let t3 := stampFrom b.arrTurn b.turn b.phase
    let t4 : Int := b.arrPhase
    t3 + linkDelay t1 t2 t3 t4 - t4)

/-- The bound of R63 for one hop to the parent, in 1/64 reference clock: 8 ns over a global port, 2 ns over a local one. -/
def TimeBase.hopBound (t : TimeBase) : Int := if 6 ≤ t.parent then 51 else 12

/-- The loop takes a port as parent, whose last beacon is `b`: HOPS is the parent's plus 1 (R62). -/
def TimeBase.follow (t : TimeBase) (port : Nat) (b : Option Beacon) : TimeBase :=
  { t with parent := port, chosen := true, hops := match b with
      | some b => min 0x1F (b.hops + 1)
      | none => 0x1F }

/-- A fresh beacon of the parent from which no offset can be measured yet, because this end has sent none: the loop measures again, so
HOLDOVER ends (R64). -/
def TimeBase.unmeasured (t : TimeBase) : TimeBase :=
  { t with
    silent := 0, good := 0, holdover := 0, holdNoticed := false, state := if t.state = 3 then 1 else t.state
    corrNext := t.corrSent, corrSent := 0 }

/-- A menu is LAUNCHED or RUNNING on the panel. -/
def State.anyActive (s : State) : Bool := s.menus.any Menu.active

/-- A tick after a turn without a beacon of the parent. -/
def TimeBase.silence (t : TimeBase) : TimeBase :=
  { t with
    silent := t.silent + 1, good := 0, holdover := if t.state = 3 then t.holdover + 1 else 0
    corrNext := if t.state = 3 then t.held else t.corrSent, corrSent := if t.state = 3 then t.held else 0 }

/-- A tick after a turn with a beacon of the parent, from which `off` was measured; `step` when the turn number steps. -/
def TimeBase.measured (t : TimeBase) (off : Int) (step : Bool) : TimeBase :=
  let near := decide (-12 ≤ off) && decide (off ≤ 12)
  let out := decide (off < -t.hopBound) || decide (t.hopBound < off)
  let corr : Int := if step then 0 else max (-32) (min 32 (-off))
  { t with
    offset := off, silent := 0, holdover := 0
    good := if near then t.good + 1 else 0
    state := if t.state = 3 then 1 else t.state, holdNoticed := false
    outside := if out then t.outside + 1 else 0, misNoticed := t.misNoticed && out
    corrNext := t.corrSent, corrSent := corr, held := if step then t.held else corr }

/-- The parent is selected anew at this tick (R62, R64): while none has been found, in HOLDOVER, and in ACQUIRING when the
beacons of the selected parent do not come, for which R64 has no row (DESIGN CHOICE, log 206). -/
def TimeBase.reselects (t : TimeBase) (old : Nat) : Bool :=
  t.state = 3 || ! t.chosen || (t.state = 1 && (t.fresh t.parent old).isNone)

/-- The loop at a tick that ends turn `old`: the offset is measured from the beacons of that turn; in ACQUIRING, without an
active menu, the turn number steps to the parent's; otherwise the next turn is corrected (R60, R64, R65). -/
def State.discipline (s : State) (old : Nat) : State :=
  let t := s.panel.time
  if t.role ≠ 2 && t.role ≠ 3 then s
  else
    let pick := if t.reselects old then s.parentNow old else some t.parent
    match pick.bind (fun p => (t.fresh p old).map (fun b => (p, b))) with
    | none => s.modTime TimeBase.silence
    | some (p, b) =>
      let t1 := t.follow p (some b)
      match b.offset with
      | none => s.modTime (fun _ => t1.unmeasured)
      | some off =>
        let step := t.state = 1 && ! s.anyActive
        let s1 := s.modTime (fun _ => t1.measured off step)
        if step then { s1 with turn := (((s1.turn : Int) + (off + 32768) / 65536) % (2 ^ 48 : Nat)).toNat } else s1

/-! ### Coolant (R383) -/

/-- The derated limit, in watts: inlet in 1/16 °C, flow in 0.01 L/min. -/
def coolantLimit (inlet : Int) (flow : Nat) : Nat :=
  let full : Int := 20000 * min 3000 (flow : Int)
  let excess : Int := max 0 (inlet - 560)
  ((full - 375000 * excess) / 3000).toNat

/-- The readings of one turn; on entry into the condition of R383 every budget is 260 W. -/
def State.coolant (s : State) (inlet outlet : Int) (flow : Nat) : State :=
  let out := decide (640 < inlet) || decide (flow < 1500)
  let s1 := s.modPanel (fun p => { p with
    inlet := inlet, outlet := outlet, flow := flow, coolantLimit := coolantLimit inlet flow, coolantOut := out })
  let s2 := if out then s1.onActive (fun x => { x with leave := { x.leave with next := 260 } }) else s1
  if out && ! s.panel.coolantOut then s2.notice Code.coolantOutOfRange noSubject (unsigned 16 inlet) flow (unsigned 16 outlet) else s2

/-! ### Menus and dies at a tick -/

/-- At the tick of turn S a LAUNCHED menu is RUNNING: counters start, and halves with START 0 record (R74, R476, R481). -/
def State.startMenus (s : State) : State :=
  (s.menus.filter (fun m => m.state = .launched && decide (m.s = s.turn))).foldl (fun s m =>
    let s1 := s.modMenu m.id (fun m => { m with state := .running })
    (m.dies.filterMap s1.siteOf).foldl (fun s d =>
      let s2 := s.modDie d (fun x => { x with obs := { x.obs with held := false } })
      [0, 1].foldl (fun s h =>
        let v := if h = 0 then (s.die d).obs.half0 else (s.die d).obs.half1
        if v.cfg.testBit 63 && v.start = 0 && (m.claimOf (s.die d).standsFor 4 h).isSome && ! (s.die d).stopsAt v s.turn 0 then s.startHalf d h else s) s2) s1) s

/-- A core that has not finished the course of the offset before at this tick is late (R84). -/
def Seq.lateAt (q : Seq) (turn offsets : Nat) : Seq :=
  if decide (q.off < turnsSince q.start turn) && decide (turnsSince q.start turn < offsets) then
    { q with late := true, lateTurns := satAdd 24 q.lateTurns 1 }
  else q

/-- The work of one die at a tick: lateness, quiet windows that begin, the leave controller's bookings, sessions and exclusions. -/
def State.dieTick (s : State) (d : Nat) : State :=
  let n := (s.die d).standsFor
  let m := s.menus.find? (fun m => m.active && m.dies.contains n)
  let plan := fun k => match m with
    | some m => if m.state = .running && decide (turnsSince m.s s.turn < m.offsets) then m.levelAt n (turnsSince m.s s.turn) k else 0
    | none => 0
  let running := match m with
    | some m => if m.state = .running then m.offsets else 0
    | none => 0
  s.modDie d (fun x =>
    let y := [0, 1].foldl (fun (y : Die) c => if (y.seqs.find c).isSome then y.modSeq c (fun q => q.lateAt s.turn running) else y) x
    { y with
      obs := { y.obs with wNow := if s.turn % y.obs.w0 = 0 then y.obs.w0 else y.obs.wNow }
      pairs := y.pairs.mapVal (fun _ k => k.interrupt s.turn)
      leave := y.leave.tick s.turn plan, rem := y.rem.ageTurn, fab := y.fab.ageExclusions
      whisk := { y.whisk with movedSlots := y.whisk.movedSlots.filter (fun h => turnCome s.turn h.1) } })

/-- TURN_TICK: the turn number of the panel increments, modulo 2^48, and the turn's work is set up. `inlet`, `outlet` and
`flow` are the coolant readings, `light` the monitor readings of the laser sources (R251, R383). -/
def execTurnTick (inlet outlet : Int) (flow : Nat) (light : List (Nat × Nat × Int)) (s : State) : Host.Outcome State Fault Refusal :=
  .next (if s.panel.bring.step = 1 || s.panel.busbar = .lost then s
    else
      let sites := List.range 52
      let s0 := sites.foldl State.settle s
      let s1 : State := { s0 with turn := (s0.turn + 1) % 2 ^ 48 }
      let s2 := s1.discipline s.turn
      let s3 := s2.coolant inlet outlet flow
      let s4 := s3.startMenus
      let s5 := sites.foldl State.dieTick s4
      let s6 := s5.lightReadings light
      if s6.gp0 = 3 then { s6 with outbox := s6.outbox ++ [.pulse 160] } else s6)

/-! ### Beacons and the states of the loop -/

/-- HOPS in a beacon: 0xFF while FREE. -/
def TimeBase.beaconHops (t : TimeBase) : Nat := if t.state = 0 then 0xFF else t.hops

/-- BEACON_SEND: the idle frame of a turn with its beacon, at `phase` of the turn: one in each turn, and none while the light
is interrupted, not even late (R242). -/
def execBeaconSend (d p phase : Nat) (s : State) : Host.Outcome State Fault Refusal :=
  .next (if ! (s.pair d p).lit || s.darkens d p || s.beaconDone d p then s
    else if (s.port (portOf d p)).gap then s.missBeacon d p
    else (s.modTime (fun t => { t with sent := t.sent.put (8 * d + p) (s.turn, phase) })).sendIdle d p (fun f => { f with
      hasBeacon := true
      beacon := leBytes 6 s.turn ++ leBytes 2 phase ++ leBytes 1 s.panel.time.beaconHops ++ leBytes 1 s.ownGroup }))

/-- TURN_LOCK (R64). -/
def execTurnLock (s : State) : Host.Outcome State Fault Refusal :=
  .next (if s.panel.time.state = 1 && decide (16 ≤ s.panel.time.good) then s.modTime (fun t => { t with state := 2 }) else s)

/-- TURN_HOLDOVER_ENTRY: four turns without a parent beacon in LOCKED; a MEMBER selects its parent again (R62, R64). -/
def execTurnHoldoverEntry (s : State) : Host.Outcome State Fault Refusal :=
  .next (let t := s.panel.time
    if t.state ≠ 2 || t.silent < 4 || (t.role ≠ 2 && t.role ≠ 3) then s
    else
      let t1 := match (if t.role = 3 then s.parentNow s.turn else none) with
        | some p => t.follow p (t.fresh p s.turn)
        | none => t
      s.modTime (fun _ => { t1 with state := 3, holdover := 0, holdNoticed := false, corrSent := t.held }))

/-- TURN_HOLDOVER: 64 turns in HOLDOVER (R64). -/
def execTurnHoldover (s : State) : Host.Outcome State Fault Refusal :=
  .next (let t := s.panel.time
    if t.state = 3 && decide (64 ≤ t.holdover) && ! t.holdNoticed then
      (s.modTime (fun t => { t with holdNoticed := true })).notice Code.turnHoldover noSubject 0 0 0
    else s)

/-- TURN_MISALIGNED: more than 64 turns in a row outside the bound (R65). -/
def execTurnMisaligned (s : State) : Host.Outcome State Fault Refusal :=
  .next (let t := s.panel.time
    if decide (64 < t.outside) && ! t.misNoticed then
      (s.modTime (fun t => { t with misNoticed := true })).notice Code.turnMisaligned noSubject 0 0 0
    else s)

/-- The turn whose beacons say which parent there is now: this turn when a beacon has come in it that `ok` takes, else the one before. -/
def lastHeard (turn : Nat) (ok : Nat → Bool) : Nat := if ok turn then turn else turnPlus turn (2 ^ 48 - 1)

/-- A new role is written, or a ROOT's port (R61, R64); the same again changes nothing, and ROOT_PORT is ignored for other
roles. The last measured offset stands (R66). A MEMBER that hears no beacon of its group yet selects its parent at the first
tick after one has come. A change between two roles other than FREE, for which R64 has no row, starts the loop as from FREE
(DESIGN CHOICE, log 66). -/
def State.setRole (s : State) (role rootPort : Nat) : State :=
  let t := s.panel.time
  if t.role = role && (role ≠ 2 || t.rootPort = rootPort) then s.modTime (fun t => { t with rootPort := rootPort })
  else
    let base : TimeBase := { role := role, rootPort := rootPort, beacons := t.beacons, sent := t.sent, offset := t.offset }
    match role with
    | 0 => s.modTime (fun _ => base)
    | 1 => s.modTime (fun _ => { base with state := 2, hops := 0 })
    | 2 => s.modTime (fun _ => { base with state := 1 }.follow rootPort
        (t.fresh rootPort (lastHeard s.turn (fun u => (t.fresh rootPort u).isSome))))
    | _ =>
      let u := lastHeard s.turn (fun u => (t.memberParent s.ownGroup u).isSome)
      s.modTime (fun _ => match t.memberParent s.ownGroup u with
        | some p => { base with state := 1 }.follow p (t.fresh p u)
        | none => { base with state := 1 })

end Sys2Proof.Machine
end

