-- ==== Sys2Proof/Machine/Registers.lean ====
section
/-! DEFINITION. The control window of a die: the value of every register, what a read clears, and what a write over the
management link sets (R13 to R17 and the register sections of the chapters). An offset is taken from 0x7F_F000_0000. -/
namespace Sys2Proof.Machine

/-! ### Small values -/

def bNat (b : Bool) : Nat := if b then 1 else 0

/-- Fields as (value, lowest bit), each with its width. -/
def packed (l : List (Nat × Nat × Nat)) : Nat := l.foldl (fun w f => w + f.1 % 2 ^ f.2.1 * 2 ^ f.2.2) 0

/-! ### Orientation (R29 to R31) -/

/-- The physical edges of a die, as they lie at ROT = 0. -/
inductive Edge where
  | pn | pe | ps | pw
  deriving DecidableEq, Repr

/-- The edges in the order of the logical ports N, E, S, W at ROT = 0. -/
def Edge.at (i : Nat) : Edge := match i % 4 with
  | 0 => .pn
  | 1 => .pe
  | 2 => .ps
  | _ => .pw

/-- The physical edge of logical port `side` (0 N, 1 E, 2 S, 3 W): ROT, bit 0 of the straps, turns the die by 180°. -/
def edgeOf (straps side : Nat) : Edge := Edge.at (side + 2 * (straps % 2))

/-- The lane order is reversed on logical port `side`: on all at ROT = 1 with MIR = 0, on E and W at MIR = 1 with ROT = 0, on N and S
at both. -/
def laneReversed (straps side : Nat) : Bool :=
  match straps % 4 with
  | 0 => false
  | 1 => true
  | 2 => side % 2 = 1
  | _ => side % 2 = 0

/-- The logical lane of physical lane `k` among the `n` lanes of a logical port. -/
def laneOf (straps side n k : Nat) : Nat := if laneReversed straps side then n - 1 - k else k

/-- The logical edge of each memory and each engine: stack 0 N and 1 S, larder packages 0 and 1 W and 2 and 3 E, engine 0 W and 1 E. -/
def stackSide (i : Nat) : Nat := if i = 0 then 0 else 2
def larderSide (i : Nat) : Nat := if i < 2 then 3 else 1
def engineSide (i : Nat) : Nat := if i = 0 then 3 else 1

/-- The channel of a stack that physical PHY slot `p` serves: the slots of a reversed edge count down. -/
def stackChannel (straps stack p : Nat) : Nat := laneOf straps (stackSide stack) 16 p

/-- DIE_ORIENT from the straps in bits 1 and 0: REV of N, E, S, W from bit 5 down to bit 2. -/
def orientWord (v : Nat) : Nat :=
  (List.range 4).foldl (fun w i => w + (if laneReversed v i then 2 ^ (5 - i) else 0)) (v % 4)

/-- Masks of four bits with `k` ones. -/
def masksOf (k : Nat) : List Nat := (List.range 16).filter (fun m => popCount m 4 = k)

/-- CTX_BUSY: as many ones as instances hold contexts; which contexts they hold is free (R367). -/
def Whisk.ctxBusy (w : Whisk) : Nat :=
  let busy := (w.insts.filter (fun e => e.2.ctx)).map Prod.fst
  let l := masksOf busy.length
  l.getD (Config.freeContexts ((busy.map (fun b => 2 ^ b)).foldl (· + ·) 0) % l.length) 0

/-- The head descriptor of a channel waits per ORDER (R203). -/
def Die.orderWait (x : Die) (ch : Nat) : Bool :=
  match x.headDesc ch with
  | some (_, _, b) => b.order && ! (x.chan ch).active.isEmpty
  | none => false

def Die.leaveWait (x : Die) (unit : Nat) : Bool := x.leave.reqs.any (fun r => r.unit = unit)

/-- The state of the junction loop in the coding of THM_STATUS. -/
def ThState.code : ThState → Nat
  | .normal => 0
  | .warning => 1
  | .grace => 2
  | .throttle => 3
  | .shutdown => 4

def PairState.code : PairState → Nat
  | .dark => 0
  | .safe => 1
  | .light => 2
  | .run => 3
  | .paused => 4

/-! ### Reading -/

/-- SEQ_LATE and the address registers (R87, R331). -/
def Die.peekSeq (x : Die) (r : Nat) : Nat :=
  let q := x.seq (r / 4096)
  let o := r % 4096
  if r / 4096 ≥ 2 then 0
  else if o = 0 then packed [(q.lateTurns, 24, 40), (q.maxLag, 24, 16), (q.slotMoves, 16, 0)]
  else if 0x100 ≤ o ∧ o < 0x180 then q.raddr.getD ((o - 0x100) / 8) 0
  else 0

/-- ARR_STATUS, ARR_SAT_COUNT, ARR_STALL and ARR_SKILLET (R123, R168). -/
def Die.peekArr (x : Die) (r : Nat) : Nat :=
  let o := r % 4096
  let u := r / 4096
  if u < 4 then
    let a := x.arr u
    let g := x.gang (u / 2)
    let all := ([0, 1, 2, 3] : List Nat).map x.arr
    if o = 0 then packed
      [(a.sq.length, 5, 35), (a.wq.length, 5, 30), (a.flips, 4, 26), (bNat a.gen, 1, 25), (bNat a.shadowLoaded, 1, 24),
       (bNat (all.any (fun b => b.flights.any (fun f => f.cmd.arrays.contains u))), 1, 23),
       (bNat (all.any (fun b => (b.loading.map (fun k => k.arrays.contains u)).getD false)), 1, 22),
       (bNat g.pending.isSome, 1, 21), (g.mode, 3, 18)]
    else if o = 8 then a.satCount % 2 ^ 32
    else if o = 16 then packed [(a.feedStall, 32, 32), (a.drainStall, 32, 0)]
    else 0
  else if (u = 8 || u = 9) && o = 0 then
    let g := x.gang (u - 8)
    packed [(g.fGroups, 20, 44), (g.bGroups, 20, 24), (g.crossings, 12, 12), (g.hazardWaits, 12, 0)]
  else 0

/-- VEC_STATUS, VEC_SAT_COUNT and VEC_PARAMi (R154). -/
def Die.peekVec (x : Die) (r : Nat) : Nat :=
  let v := x.vec (r / 4096)
  let o := r % 4096
  if 2 ≤ r / 4096 then 0
  else if o = 0 then packed
    [(v.queue.length, 5, 35), (bNat v.running.isSome, 1, 34), (v.lastOp, 6, 28), (bNat (x.leaveWait (9 + r / 4096)), 1, 27)]
  else if o = 8 then v.satCount % 2 ^ 32
  else if 0x100 ≤ o ∧ o < 0x300 then v.params.getD ((o - 0x100) / 8) 0 % 2 ^ 32
  else 0

/-- Ladle registers (R210). -/
def Die.peekLadle (x : Die) (r : Nat) : Nat :=
  let l := x.ladle
  if r < 0x400 ∧ r % 0x100 = 0 then
    let c := x.chan (r / 0x100)
    packed [(c.curDesc, 20, 20), (c.cq.length, 5, 15), (c.dq.length, 6, 9), (bNat (! c.active.isEmpty), 1, 8),
            (bNat (x.leaveWait (11 + r / 0x100)), 1, 7), (bNat (x.orderWait (r / 0x100)), 1, 6)]
  else if r = 0x800 then packed [(l.descBase, 28, 32), (l.descCount, 21, 0)]
  else if r = 0x808 then packed [(l.rereads, 32, 32), (l.faults, 16, 16)]
  else if r = 0x810 then l.faultAddr % 2 ^ 64
  else 0

/-- PAN_ECC, HBM_STATUSs and LAR_STATUS (R210). -/
def Die.peekMem (x : Die) (r : Nat) : Nat :=
  let m := x.mem
  if r = 0 then packed [(m.panCorrected, 32, 32), (m.panUncorrectable, 16, 16), (m.panLastBank, 3, 0)]
  else if r = 0x1000 ∨ r = 0x1100 then
    let i := (r - 0x1000) / 0x100
    packed [(m.hbmCorrected.getD i 0, 32, 32), (m.hbmUncorrected.getD i 0, 16, 16), (bNat m.selfRefresh, 1, 1), (bNat (m.hbmTrained.testBit i), 1, 0)]
  else if r = 0x2000 then packed [(m.gatherRows, 32, 32), (bNat m.selfRefresh, 1, 1), (bNat m.larTrained, 1, 0)]
  else 0

/-- The words of a queue and QPL_POOL (R226). -/
def Die.peekPool (x : Die) (r : Nat) : Nat :=
  if r < 0x8000 then
    let q := x.queue (r / 32)
    let n := q.cells
    match r % 32 / 8 with
    | 0 => packed [(bNat q.enable, 1, 63), (q.consumer, 2, 61), (q.maxItemM1, 7, 54), (q.max, 16, 32), (q.minRes, 16, 16), (q.idleTo, 16, 0)]
    | 1 => packed [(q.batch, 16, 48), (q.idleAct, 2, 46), (q.lastFlush, 44, 1)]
    | 2 => packed [(q.headCell, 16, 48), (q.tailCell, 16, 32), (q.depth, 16, 16), (n, 16, 0)]
    | _ => packed [(q.refused, 16, 48), (q.flushedItems, 16, 32), (q.flushedPartial, 16, 16), (q.idleEvents, 16, 0)]
  else if r = 0x8000 then packed [(x.pool.free, 17, 47), (x.pool.ru, 17, 30), (x.pool.exhausted, 16, 0)]
  else 0

/-- OPT_PAIR_STATUSp, OPT_PAIR_COUNTp and OPT_PAIR_EVENTSp (R259). -/
def State.peekPair (s : State) (d r : Nat) : Nat :=
  let x := s.die d
  let p := r / 0x100
  let k := x.pair p
  let placed := x.siteNum ≠ 0x3F
  if 4 ≤ p then 0
  else match r % 0x100 with
    | 0x00 => packed
      [(k.txLanes, 16, 48), (k.rxLanes, 16, 32), (if placed then pairNumber d (portOf d p) else 0x1F, 5, 27),
       (if placed then portOf d p else 0, 3, 24), (bNat (placed && (s.port (portOf d p)).contact), 1, 5), (bNat k.light, 1, 4),
       (k.state.code, 3, 0)]
    | 0x08 => packed [(k.fecCorrected, 32, 32), (k.fecUncorrectable, 16, 16), (k.replayCount, 16, 0)]
    | 0x10 => packed [(k.safetyTrips, 16, 48), (k.trainFailCount, 16, 32), (k.linkLosts, 16, 16)]
    | _ => 0

/-- Entry e of FAB_GWg with its EXCLUDED bit. -/
def Fabric.gwWord (f : Fabric) (g : Nat) : Nat :=
  ([0, 1, 2, 3] : List Nat).foldl (fun w e =>
    w + (gwEntry (f.gw.getD g 0) e + (if (f.gwExcluded.find (4 * g + e)).isSome then 0x4000 else 0)) * 2 ^ (16 * e)) 0

def Held.onShared (h : Held) : Bool :=
  match h.from_ with
  | .inject => false
  | .pair _ _ b => b
  | .mesh _ _ b => b

/-- Fabric and remote access registers (R299, R332, R460). -/
def Die.peekFab (x : Die) (r : Nat) : Nat :=
  let f := x.fab
  let m := x.rem
  match r with
  | 0x000 => packed [(bNat f.selfValid, 1, 63), (f.job, 12, 51), (f.rank, 14, 37), (f.epoch, 16, 21)]
  | 0x008 => packed [(bNat f.coordValid, 1, 46), (f.coord, 14, 32), (f.present, 8, 16), (f.ring, 16, 0)]
  | 0x010 => packed [(f.markTh, 16, 48), (f.nmMarks, 8, 40), (f.nmDepth, 16, 24)]
  | 0x018 => packed [(f.wMax, 16, 48), (f.wInit, 16, 32), (f.wMin, 16, 16)]
  | 0x020 => packed [(f.t2Hi, 16, 48), (f.t2Lo, 16, 32), (f.rate, 5, 0)]
  | 0x028 => packed [(f.arbCtl, 4, 12), (f.arbCol, 4, 8), (f.arbRsp, 4, 4), (f.arbReq, 4, 0)]
  | 0x030 => packed [(f.stale, 16, 48), (f.foreign, 16, 32), (f.evictedSrc, 16, 16), (f.unroutable, 16, 0)]
  | 0x038 =>
    let l := f.held.filter (fun h => h.from_ ≠ .inject)
    packed [(32768 - l.length, 16, 48), ((l.filter Held.onShared).length, 16, 32)]
  | 0x040 => f.viaMask % 2 ^ 64
  | 0x048 => f.viaMask / 2 ^ 64 % 2 ^ 63
  | 0x060 => packed [(m.retx, 16, 48), (m.duplicates, 16, 32), (m.busySent, 16, 16), (m.aged, 16, 0)]
  | 0x068 => packed [(m.src.length, 16, 48), (m.tgt.length, 16, 32), ((m.tgt.map (fun t => t.2.flags.length)).foldl (· + ·) 0, 16, 16),
                     ((m.reqs.filter (fun q => q.lost)).length, 16, 0)]
  | 0x070 => m.faultAddr % 2 ^ 64
  | 0x078 => m.faultCode % 2 ^ 16
  | 0x080 => bNat f.fenced
  | _ => if 0x1000 ≤ r ∧ r < 0x1000 + 8 * 127 then f.gwWord ((r - 0x1000) / 8) else 0

/-- Whisk registers (R367). Buffers reserved by a context count as not free (DEDUCED from R352, log 201). -/
def Die.peekWhisk (x : Die) (r : Nat) : Nat :=
  let w := x.whisk
  let sum := fun (f : Inst → Nat) => (w.insts.map (fun e => f e.2)).foldl (· + ·) 0
  match r with
  | 0x000 => packed [(w.done, 32, 32), (w.ctxBusy, 4, 20), (64 - sum Inst.rxRes, 7, 13), (64 - sum Inst.holdRes, 7, 6)]
  | 0x008 => packed [(w.sat, 32, 32), (w.resends, 16, 16), (w.aborts, 16, 0)]
  | 0x010 => packed [(w.abortCode, 16, 48), (w.abortPlan, 16, 32), (w.abortInstance, 16, 16), (w.abortPhase, 2, 14)]
  | _ =>
    if 0x1000 ≤ r ∧ r < 0x1200 then
      let i := x.inst ((r - 0x1000) / 8)
      packed [(i.count, 29, 35), (i.number, 16, 19), (i.state, 4, 15)]
    else 0

/-- Leave controller registers (R396); WAIT_CYCLES is free once a request has waited. -/
def Die.peekLeave (x : Die) (r k : Nat) : Nat :=
  let l := x.leave
  if r = 0 then packed [(l.next, 10, 16), (l.cur, 10, 0)]
  else if r = 8 then packed [(l.held, 10, 54), (l.reserved, 10, 44), (l.rampSeen k, 10, 34), (l.headroom, 10, 24), (l.reqs.length, 5, 19)]
  else if r = 0x10 then packed [(l.trimmed, 32, 32), (if l.waited then Config.freeCount k else 0, 32, 0)]
  else if 0x108 ≤ r ∧ r < 0x180 then packed [(l.booked.getD ((r - 0x100) / 8) 0, 10, 16), (l.ticket ((r - 0x100) / 8), 10, 0)]
  else 0

/-- Thermal registers (R396). -/
def Die.peekThermal (x : Die) (r : Nat) : Nat :=
  let t := x.thermal
  if r < 0x20 then packed (([0, 1, 2, 3] : List Nat).map (fun i => (unsigned 16 (t.sensors.getD (4 * (r / 8) + i) {}).reading, 16, 16 * i)))
  else if r = 0x20 then packed
    ([(unsigned 16 t.tmax, 16, 48), (t.dHbm, 5, 22), (bNat t.sensorsLost, 1, 21), (bNat t.slope, 1, 20), (t.dThr, 5, 15), (t.duty, 5, 10),
      (t.state.code, 3, 0)] ++ (List.range 16).map (fun i => (bNat (t.sensors.getD i {}).flagged, 1, 32 + i)))
  else if r = 0x28 then packed [(bNat t.managed, 1, 16), (t.hbmThrottle, 8, 8), (t.hbmWarn, 8, 0)]
  else if r = 0x30 then packed [(t.slopeHolds, 16, 48), (t.throttles, 16, 32), (t.graceExpired, 16, 16), (t.hbmThrottles, 16, 0)]
  else 0

/-- Counters and port windows (R474, R480). -/
def Die.peekCnt (x : Die) (r : Nat) : Nat :=
  let o := x.obs
  if r < 0x2000 ∧ r % 0x1000 < 0x100 then
    let k := x.cnt (r / 0x1000) (r % 0x1000 / 16)
    if r % 16 = 0 then packed [(bNat k.enable, 1, 63), (bNat k.edge, 1, 62), (k.event, 8, 48)] else k.value
  else if 0x8000 ≤ r ∧ r < 0x8080 then ((o.ports.getD ((r - 0x8000) / 0x20) {}).words).getD (r % 0x20 / 8) 0
  else if r = 0x8080 then packed [(o.w1, 17, 17), (o.w0, 17, 0)]
  else 0

/-- SIV_STATUS, TRC_CFGh and TRC_STATUS (R473, R481). -/
def Die.peekSieve (x : Die) (r : Nat) : Nat :=
  let v := x.sieve
  let o := x.obs
  if r = 0 then packed [(v.nextBlock, 24, 40), (v.wraps, 16, 24), ((v.accs.filter (fun a => a.core = 1)).length, 6, 6),
                        ((v.accs.filter (fun a => a.core = 0)).length, 6, 0)]
  else if r = 0x8000 then o.half0.cfg
  else if r = 0x8008 then o.half1.cfg
  else if r = 0x8010 then packed [(o.half1.next, 12, 52), (o.half0.next, 12, 40), (bNat o.half1.wrapped, 1, 3), (bNat o.half0.wrapped, 1, 2),
                                  (bNat o.half1.run, 1, 1), (bNat o.half0.run, 1, 0)]
  else 0

/-- A word of the trace SRAM (R481). -/
def Die.peekTrace (x : Die) (r : Nat) : Nat :=
  let h := if r < 0x20000 then x.obs.half0 else x.obs.half1
  leAt (h.recs.getD (r % 0x20000 / 32) []) (r % 32) 8

/-- The registers of page 0: identity, site, power, turn. `k` numbers the free REF_COUNT of this read (R58). -/
def State.peekId (s : State) (d r k : Nat) : Nat :=
  let x := s.die d
  match r with
  | 0x00 => packed [(x.stepping, 8, 32), (x.features, 32, 0)]
  | 0x08 => orientWord x.orient
  | 0x10 => packed [(x.standsFor, 6, 8), (x.siteNum, 6, 0)]
  | 0x18 => x.featureEnable &&& x.features
  | 0x20 => x.seed % 2 ^ 64
  | 0x28 => x.power.on % 2 ^ 30
  | 0x30 => packed [(bNat x.power.shutdown, 1, 32), (x.power.good, 30, 0)]
  | 0x100 => packed [(s.turn, 48, 10), (Config.freeRefCount k, 10, 0)]
  | _ => 0

/-- The word at offset `r` of a die's control window; an address that holds no register reads zero (R510). -/
def State.peek (s : State) (d r k : Nat) : Nat :=
  let x := s.die d
  let o := r % 0x10000
  match r / 0x10000 with
  | 0x0 => s.peekId d o k
  | 0x1 => x.peekSeq o
  | 0x2 => x.peekArr o
  | 0x3 => x.peekVec o
  | 0x4 => x.peekLadle o
  | 0x5 => if o < 0x1000 then
      let e := x.mem.regions.getD (o / 16) {}
      if o % 16 = 0 then e.word0 else e.word1
    else 0
  | 0x6 => x.peekMem o
  | 0x7 => x.peekPool o
  | 0x8 => s.peekPair d o
  | 0x9 => x.peekFab o
  | 0xB => x.peekWhisk o
  | 0xC => x.peekLeave o k
  | 0xD => x.peekThermal o
  | 0xE => x.peekCnt o
  | 0xF => x.peekSieve o
  | _ =>
    if 0x100000 ≤ r ∧ r < 0x120000 then x.fab.ranks.getD ((r - 0x100000) / 8) 0x3F80 % 2 ^ 16
    else if 0x1000000 ≤ r ∧ r < 0x1040000 then x.peekTrace (r - 0x1000000)
    else 0

/-- What a read of a register clears: its RC fields (R15). A read of LVE_STATUS keeps the ramp level that it found; `k` is the
number of the read's free value. -/
def Die.afterRead (x : Die) (r k : Nat) : Die :=
  let o := r % 0x10000
  match r / 0x10000 with
  | 0x2 =>
    if o / 4096 < 4 ∧ o % 4096 = 8 then x.modArr (o / 4096) (fun a => { a with satCount := 0 })
    else if o / 4096 < 4 ∧ o % 4096 = 16 then x.modArr (o / 4096) (fun a => { a with feedStall := 0, drainStall := 0 })
    else x
  | 0x3 => if o / 4096 < 2 ∧ o % 4096 = 8 then x.modVec (o / 4096) (fun v => { v with satCount := 0 }) else x
  | 0x4 => if o = 0x808 then { x with ladle := { x.ladle with rereads := 0, faults := 0 } } else x
  | 0x6 =>
    if o = 0 then { x with mem := { x.mem with panCorrected := 0, panUncorrectable := 0 } }
    else if o = 0x1000 ∨ o = 0x1100 then
      let i := (o - 0x1000) / 0x100
      { x with mem := { x.mem with hbmCorrected := x.mem.hbmCorrected.del i, hbmUncorrected := x.mem.hbmUncorrected.del i } }
    else if o = 0x2000 then { x with mem := { x.mem with gatherRows := 0 } }
    else x
  | 0x7 =>
    if o < 0x8000 ∧ o % 32 = 24 ∧ (x.pool.queues.find (o / 32)).isSome then
      x.setQueue (o / 32) { x.queue (o / 32) with refused := 0, flushedItems := 0, flushedPartial := 0, idleEvents := 0 }
    else if o = 0x8000 then { x with pool := { x.pool with exhausted := 0 } }
    else x
  | 0x8 =>
    if o / 0x100 < 4 ∧ o % 0x100 = 8 then x.modPair (o / 0x100) (fun k => { k with fecCorrected := 0, fecUncorrectable := 0, replayCount := 0 })
    else if o / 0x100 < 4 ∧ o % 0x100 = 16 then x.modPair (o / 0x100) (fun k => { k with safetyTrips := 0, trainFailCount := 0, linkLosts := 0 })
    else x
  | 0x9 =>
    if o = 0x30 then { x with fab := { x.fab with stale := 0, foreign := 0, evictedSrc := 0, unroutable := 0 } }
    else if o = 0x60 then { x with rem := { x.rem with retx := 0, duplicates := 0, busySent := 0, aged := 0 } }
    else x
  | 0xB => if o = 8 then { x with whisk := { x.whisk with sat := 0, resends := 0, aborts := 0 } } else x
  | 0xC => if o = 8 then { x with leave := x.leave.rampRead (x.leave.rampSeen k) } else if o = 0x10 then { x with leave := { x.leave with trimmed := 0, waited := ! x.leave.reqs.isEmpty } } else x
  | 0xD => if o = 0x30 then { x with thermal := { x.thermal with slopeHolds := 0, throttles := 0, graceExpired := 0, hbmThrottles := 0 } } else x
  | _ => x

/-- Read one register: the word, with its RC fields cleared after. -/
def State.readReg (s : State) (d r : Nat) : Nat × State :=
  let s1 := if r / 0x10000 = 0xE then s.settle d else s
  let f := s1.fresh
  (s1.peek d r f.1, f.2.modDie d (fun x => x.afterRead r f.1))

/-! ### Writing over the management link -/

/-- The power domain whose loss takes a register (R369). -/
def regDomain (r : Nat) : Nat :=
  let o := r % 0x10000
  match r / 0x10000 with
  | 0x1 => 6 + o / 4096 % 2
  | 0x2 => if o < 0x8000 then o / 4096 % 4 else 6 + o / 4096 % 2
  | 0x3 => 4 + o / 4096 % 2
  | 0x4 => 25
  | 0x5 => 25
  | 0x7 => 25
  | 0x9 => 27
  | 0xB => 26
  | 0xE => 28
  | 0xF => 28
  | 0x10 => 27
  | 0x11 => 27
  | _ => 29

/-- Words 0 and 1 of a queue but for FLUSH (R226). -/
def Queue.putWord0 (q : Queue) (v : Nat) : Queue :=
  { q with enable := v.testBit 63, consumer := bits v 62 61, maxItemM1 := bits v 60 54, max := bits v 47 32, minRes := bits v 31 16
           idleTo := bits v 15 0 }
def Queue.putWord1 (q : Queue) (v : Nat) : Queue :=
  { q with batch := bits v 63 48, idleAct := bits v 47 46, lastFlush := bits v 44 1 }

/-- A write of a queue's words 0 and 1; queues 0 to 3 and 36 to 63 take only FLUSH of queues 0 to 3. -/
def Die.writePool (x : Die) (r v : Nat) : Die :=
  let q := r / 32
  let own := decide (q < 4) || (decide (36 ≤ q) && decide (q < 64))
  if 0x8000 ≤ r then x
  else if r % 32 = 0 then (if own then x else x.setQueue q ((x.queue q).putWord0 v))
  else if r % 32 = 8 then
    let y := if own then x else x.setQueue q ((x.queue q).putWord1 v)
    if v.testBit 0 && (! own || decide (q < 4)) then y.flushQueue q else y
  else x

/-- A write of a region entry's word keeps the count of users. -/
def Die.writeRegion (x : Die) (o v : Nat) : Die :=
  if 0x1000 ≤ o then x
  else
    let e := x.mem.regions.getD (o / 16) {}
    let n := if o % 16 = 0 then Region.ofWords v e.word1 else Region.ofWords e.word0 v
    { x with mem := { x.mem with regions := x.mem.regions.put (o / 16) { n with users := e.users } } }

/-- Gateway entries written by `v`: EXCLUDED of the group's entries clears (R285). -/
def Fabric.putGw (f : Fabric) (g v : Nat) : Fabric :=
  let w := ([0, 1, 2, 3] : List Nat).foldl (fun w e => w + (gwEntry v e % 256 + (if bitAt (gwEntry v e) 15 then 0x8000 else 0)) * 2 ^ (16 * e)) 0
  { f with gw := f.gw.put g w, gwExcluded := f.gwExcluded.filter (fun e => e.1 / 4 ≠ g) }

/-- FAB_ARB: a weight written as 0 is held as 1 (R293). -/
def Fabric.putArb (f : Fabric) (v : Nat) : Fabric :=
  let w := fun n => if n = 0 then 1 else n
  { f with arbCtl := w (bits v 15 12), arbCol := w (bits v 11 8), arbRsp := w (bits v 7 4), arbReq := w (bits v 3 0) }

/-- RW registers of the fabric interface (R299). -/
def Fabric.write (f : Fabric) (r v : Nat) : Fabric :=
  match r with
  | 0x000 => { f with selfValid := v.testBit 63, job := bits v 62 51, rank := bits v 50 37, epoch := bits v 36 21 }
  | 0x008 => { f with coordValid := v.testBit 46, coord := bits v 45 32, present := bits v 23 16, ring := bits v 15 0 }
  | 0x010 => { f with markTh := bits v 63 48, nmMarks := bits v 47 40, nmDepth := bits v 39 24 }
  | 0x018 =>
    let a := bits v 63 48
    let b := bits v 47 32
    let c := bits v 31 16
    if c ≤ b ∧ b ≤ a ∧ a ≤ 4096 ∧ 1 ≤ c then { f with wMax := a, wInit := b, wMin := c } else f
  | 0x020 => { f with t2Hi := bits v 63 48, t2Lo := bits v 47 32 }
  | 0x028 => f.putArb v
  | 0x040 => { f with viaMask := f.viaMask / 2 ^ 64 * 2 ^ 64 + v % 2 ^ 64 }
  | 0x048 => { f with viaMask := v % 2 ^ 63 * 2 ^ 64 + f.viaMask % 2 ^ 64 }
  | 0x080 => { f with fenced := v.testBit 0 || (f.fenced && f.selfValid) }
  | _ => if 0x1000 ≤ r ∧ r < 0x1000 + 8 * 127 then f.putGw ((r - 0x1000) / 8) v else f

/-- CNT_CFG, CNT_VALUE and CNT_WINDOW (R474, R480). -/
def Observe.write (o : Observe) (r v : Nat) : Observe :=
  if r < 0x2000 ∧ r % 0x1000 < 0x100 then
    let i := 16 * (r / 0x1000) + r % 0x1000 / 16
    let k := o.cnts.getD i {}
    let n : Cnt := if r % 16 = 0 then { k.setEnable (v.testBit 63) with edge := v.testBit 62, event := bits v 55 48 }
      else { k with count := v % 2 ^ 48, ovf := k.ovf && ! v.testBit 63 }
    { o with cnts := o.cnts.put i n }
  else if r = 0x8080 ∧ 1 ≤ bits v 16 0 ∧ bits v 16 0 ≤ 65536 then { o with w1 := bits v 33 17, w0 := bits v 16 0 }
  else o

/-- A write of a half's TRC_CFG; a half that is no longer in use stops (R481). -/
def Half.configure (h : Half) (v : Nat) : Half := { h with cfg := v / 2 ^ 41 * 2 ^ 41, run := h.run && v.testBit 63 }

/-- The registers of page 0 that a write sets (R47, R52, R140). -/
def Die.writeId (x : Die) (r v : Nat) : Die :=
  match r with
  | 0x10 => { x with standsFor := bits v 13 8, siteNum := bits v 5 0 }
  | 0x18 => { x with featureEnable := v % 2 ^ 32 &&& x.features }
  | 0x20 => { x with seed := v }
  | _ => x

/-- A write of a register whose domain is at power-good; RO and RC fields ignore it (R15). -/
def Die.writeReg (x : Die) (r v : Nat) : Die :=
  let o := r % 0x10000
  if ! x.power.good.testBit (regDomain r) then x
  else match r / 0x10000 with
    | 0x0 => x.writeId o v
    | 0x4 => if o = 0x800 then { x with ladle := { x.ladle with descBase := bits v 59 32, descCount := bits v 20 0 } } else x
    | 0x5 => x.writeRegion o v
    | 0x7 => x.writePool o v
    | 0x9 => { x with fab := x.fab.write o v }
    | 0xC => if o = 0 then { x with leave := { x.leave with next := max 260 (min 420 (bits v 25 16)) } } else x
    | 0xE => { x with obs := x.obs.write o v }
    | 0xF =>
      if o = 0x8000 then x.modHalf 0 (fun h => h.configure v)
      else if o = 0x8008 then x.modHalf 1 (fun h => h.configure v)
      else x
    | _ =>
      if 0x100000 ≤ r ∧ r < 0x120000 then
        { x with fab := { x.fab with ranks := x.fab.ranks.put ((r - 0x100000) / 8) (v % 2 ^ 14 + (if v.testBit 15 then 0x8000 else 0)) } }
      else x

/-- The state a command leaves, for a register whose write has a command of its own. -/
def nextOf (o : Host.Outcome State Fault Refusal) (s : State) : State :=
  match o with
  | .next t => t
  | _ => s

/-- REGISTER_WRITE: a write over the management link to offset `off` of the control window (R15). A site that no hearth reaches over
its management link takes none (R26). DIE_PWR_ON and THM_CFG act as their own commands do. -/
def execRegisterWrite (d off : Nat) (v : W64) (s : State) : Host.Outcome State Fault Refusal :=
  .next (if ! s.reaches d then s
    else if off = 0x28 then nextOf (execDiePwrOn d v.toNat s) s
    else if off = 0xD0028 then nextOf (execThmCfg d v.toNat s) s
    else if off / 0x10000 = 0xE then (s.settle d).modDie d (fun x => x.writeReg off v.toNat)
    else s.modDie d (fun x => x.writeReg off v.toNat))

end Sys2Proof.Machine
end

