-- ==== Sys2Proof/Machine/Status.lean ====
section
/-! DEFINITION. The registers that the hearths hold, and the read commands (R412, R422, R423, R452, R510). -/
namespace Sys2Proof.Machine

/-! ### Hearth registers -/

/-- HRT_TURN_STATUS (R66). -/
def TimeBase.status (t : TimeBase) : Nat :=
  packed [(unsigned 32 t.offset, 32, 32), (t.parent, 3, 21), (if t.state = 0 then 0x1F else t.hops, 5, 16), (t.state, 2, 0)]

/-- HRT_TURN_CFG (R61). -/
def TimeBase.cfg (t : TimeBase) : Nat := packed [(t.role, 2, 6), (t.rootPort, 3, 3)]

/-- PNL_FEATURES (R53). -/
def Panel.features (p : Panel) : Nat := packed [(p.compatClass, 8, 32), (p.featureLevel, 32, 0)]

/-- PNL_POWER (R397). -/
def Panel.power (p : Panel) : Nat := packed [(p.powerLimit, 16, 48), (p.coolantLimit, 16, 32), (p.busbarW, 16, 16), (p.leaveW, 16, 0)]

def Role.code : Role → Nat
  | .primary => 0
  | .partner => 1
  | .sole => 2
  | .down => 3

/-- Payload store pages in use: one for each entry with more than 128 bytes, and those of rank tables under way (R413, R420). -/
def Panel.pagesUsed (p : Panel) : Nat :=
  (p.journal.filter (fun e => decide (128 < e.payload.length))).length + (p.bulks.map (fun b => b.data.length)).foldl (· + ·) 0

/-- HRT_STATE (R431). -/
def Panel.hrtState (p : Panel) : Nat := packed
  [(min p.failovers 65535, 16, 48), (65536 - p.journal.length, 17, 31), (8192 - p.pagesUsed, 14, 17), (bNat p.job.isSome, 1, 15),
   (p.bridgeOwner, 1, 14), ((p.hearth 1).role.code, 2, 6), ((p.hearth 0).role.code, 2, 4)]

/-- GW_COUNT (R431). -/
def Panel.gwCount (p : Panel) : Nat := packed [(p.authDrops, 16, 48), (p.rejects, 16, 32), (p.busies, 16, 16), (p.duplicates, 16, 0)]

/-- PNL_COMPAT (R502). -/
def Panel.compat (p : Panel) : Nat := packed [(p.clMax, 8, 8), (p.clSet, 8, 0)]

/-- OPT_PORTn (R260). -/
def State.optPort (s : State) (n : Nat) : Nat :=
  let p := s.port n
  let lit := if n = 8 then bNat p.up else (pairsOf n).foldl (fun w q => if (s.pair q.1 q.2).lit then w + 2 ^ pairNumber q.1 n else w) 0
  packed [(if n = 8 then 0 else p.retired, 16, 36), (p.feed.getD 0xF, 4, 32), (if n = 8 then (if p.enabled then 2 else 0) else p.state, 2, 30), (lit, 26, 0)]

/-- LSM_STATUSb (R260). -/
def State.lsmStatus (s : State) (b : Nat) : Nat :=
  let y := s.bay b
  let feeds := if y.state = 3 then ((List.range 9).find? (fun n => (s.port n).feed = some b)).getD 0xF else 0xF
  packed [(y.warn, 16, 48), (y.low, 16, 32), (feeds, 4, 16), (y.state, 3, 0)]

/-- LSM_FADE_LOb (`i` = 0) and LSM_FADE_HIb (`i` = 8). -/
def Bay.fadeWord (y : Bay) (i : Nat) : Nat :=
  packed ((List.range 8).map (fun j => (unsigned 8 (max (-128) (min 127 (y.fade.getD (i + j) 0))), 8, 8 * j)))

/-- FAB_MODULE and FAB_NEIGHBOURn (R300). -/
def FabMod.word (f : FabMod) : Nat := packed [(bNat f.origin, 1, 16), (bNat f.coordValid, 1, 15), (f.coord, 14, 0)]
def Port.neighbour (p : Port) : List Nat :=
  [p.serial % 2 ^ 64, packed [(p.nbState, 2, 22), (p.farPort, 4, 18), (bNat p.farValid, 1, 17), (p.farCoord, 14, 0)]]

/-- A register of STATUS_GET by ID (R423); none for an unknown ID. -/
def State.statusReg (s : State) (id : Nat) : Option Nat :=
  let p := s.panel
  match id with
  | 0x0001 => some p.time.status
  | 0x0002 => some s.siteSummary
  | 0x0003 => some p.features
  | 0x0004 => some p.power
  | 0x0005 => some p.hrtState
  | 0x0006 => some p.gwCount
  | 0x0007 => some p.compat
  | 0x0050 => some p.fabric.word
  | _ =>
    if 0x10 ≤ id ∧ id ≤ 0x18 then some (s.optPort (id - 0x10))
    else if 0x20 ≤ id ∧ id ≤ 0x2B then some (s.lsmStatus (id - 0x20))
    else if 0x30 ≤ id ∧ id ≤ 0x3B then some ((s.bay (id - 0x30)).fadeWord 0)
    else if 0x40 ≤ id ∧ id ≤ 0x4B then some ((s.bay (id - 0x40)).fadeWord 8)
    else if 0x60 ≤ id ∧ id ≤ 0x6F then some ((s.port ((id - 0x60) / 2)).neighbour.getD (id % 2) 0)
    else none

/-- GW_COUNT clears when it is read. -/
def Panel.clearGw (p : Panel) : Panel := { p with authDrops := 0, rejects := 0, busies := 0, duplicates := 0 }

/-- The reads of a list of IDs, in order: the words, whether an ID was unknown, the state after. -/
def State.statusRegs : List Nat → State → List Nat × Bool × State
  | [], s => ([], false, s)
  | id :: rest, s =>
    let s1 := if id = 6 then s.modPanel Panel.clearGw else s
    let r := State.statusRegs rest s1
    ((s.statusReg id).getD 0 :: r.1, (s.statusReg id).isNone || r.2.1, r.2.2)

/-! ### Images -/

/-- The entry of a site map (R42). -/
def State.siteWord (s : State) (m : SiteMap) (d : Nat) : Nat :=
  let e := m.entry d
  packed [(match e.state with | .active => 0 | .spare => 1 | .off => 2 | .failed => 3 | .incompat => 4, 3, 13),
          ((s.die d).stepping, 2, 11), (e.standsFor, 6, 0)]

def State.mapBytes (s : State) (m : SiteMap) : Bytes := (List.range 52).flatMap (fun d => leBytes 2 (s.siteWord m d))

def EntryState.code : EntryState → Nat
  | .accepted => 1
  | .executing => 2
  | .running => 3
  | .finished => 4

/-- A journal entry of 256 bytes (R413). -/
def Entry.image (e : Entry) : Bytes :=
  let long := decide (128 < e.payload.length)
  let b := leBytes 6 e.seq ++ leBytes 1 e.hatch ++ leBytes 1 e.state.code ++ leBytes 2 e.opcode ++ leBytes 2 e.code ++
    leBytes 2 e.payload.length ++ leBytes 2 (if long then e.page else 0xFFFF) ++ leBytes 8 e.index ++ leBytes 6 e.turn ++ leBytes 2 0 ++
    sliceAt e.digest 0 32 ++ sliceAt (if long then [] else e.payload) 0 128 ++ sliceAt (if e.opcode = 0x0206 then e.answer else []) 0 60
  b ++ leBytes 4 (crc32c b)

/-- A notice record of 64 bytes (R429). -/
def Notice.image (n : Notice) : Bytes :=
  leBytes 6 n.seq ++ leBytes 2 n.code ++ leBytes 6 n.turn ++ leBytes 2 0 ++ leBytes 8 n.subject ++ leBytes 8 n.arg1 ++ leBytes 8 n.arg2 ++
    leBytes 8 n.arg3 ++ leBytes 8 n.time ++ leBytes 8 0

/-! ### Read commands -/

/-- Entries of a hatch in a state. -/
def Panel.countIn (p : Panel) (h : Nat) (st : EntryState) : Nat := (p.journal.filter (fun e => e.hatch = h && e.state = st)).length

/-- What a read command answers: the state after it, its code, its payload. -/
abbrev ReadAnswer := State × Nat × Bytes

def badLayout (s : State) : ReadAnswer := (s, Code.gwPayload, [])

def State.readStatus (s : State) (pl : Bytes) : ReadAnswer :=
  if pl.length % 2 ≠ 0 || pl.length < 2 || 512 < pl.length then badLayout s
  else
    let r := State.statusRegs ((List.range (pl.length / 2)).map (fun i => leAt pl (2 * i) 2)) s
    (r.2.2, if r.2.1 then Code.gwPayload else 0, r.1.flatMap (leBytes 8))

def State.readSiteMap (s : State) (pl : Bytes) : ReadAnswer :=
  if pl.length ≠ 0 then badLayout s
  else (s, 0, s.mapBytes s.live ++ s.mapBytes s.panel.pendingMap ++ leBytes 8 s.siteSummary ++ leBytes 8 s.panel.features)

def State.readFabric (s : State) (pl : Bytes) : ReadAnswer :=
  if pl.length ≠ 0 then badLayout s
  else
    let f := s.panel.fabric
    (s, 0, leBytes 8 Config.maskImage ++ leBytes 8 f.word ++ leBytes 8 s.panel.time.cfg ++ leBytes 16 f.viaMask ++
      (List.range 127).flatMap (fun g => leBytes 8 (f.gw.getD g 0)) ++ (List.range 8).flatMap (fun n => (s.port n).neighbour.flatMap (leBytes 8)))

def State.readHatch (s : State) (pl : Bytes) : ReadAnswer :=
  if pl.length ≠ 8 || bits (byteAt pl 0) 7 4 ≠ 0 || ! allZero (sliceAt pl 1 7) then badLayout s
  else
    let h := byteAt pl 0
    let x := s.panel.hatch h
    (s, 0, leBytes 8 x.nextSeq ++ leBytes 8 (x.noticeSeq - 1) ++
      [EntryState.accepted, .executing, .running, .finished].flatMap (fun st => leBytes 4 (s.panel.countIn h st)))

/-- BOOT_h of an attestation record: what hearth `k` runs from. -/
def Hearth.bootInfo (k : Hearth) : Bytes :=
  match k.booted with
  | none => leBytes 6 0 ++ [0xFF, 0] ++ List.replicate 40 0
  | some b =>
    let i := (k.slots.getD b {}).image
    leBytes 4 (leAt i 0x0C 4) ++ leBytes 2 (leAt i 0x10 2) ++ leBytes 1 b ++ leBytes 1 (bNat k.fellBack) ++
      Sm3.digest (i.take (256 + leAt i 0x18 8 + 64)) ++ List.replicate 8 0

/-- The signed part of an attestation record, bytes 0x000 to 0x0E7 (R452). -/
def State.attestBody (s : State) (k : Nat) (nonce : Bytes) : Bytes :=
  let p := s.panel
  leBytes 4 1 ++ leBytes 4 k ++ leBytes 8 p.serial ++ sliceAt nonce 0 32 ++ leBytes 8 s.turn ++ leBytes 4 p.keyEpoch ++ leBytes 1 p.minSvn ++
    leBytes 1 p.clMax ++ leBytes 1 p.compatClass ++ leBytes 1 (bNat p.job.isSome + 2 * bNat p.fenced + 4 * bNat p.romMode) ++
    leBytes 4 p.featureLevel ++ leBytes 4 0 ++ (p.hearth 0).bootInfo ++ (p.hearth 1).bootInfo ++ Sm3.digest (s.mapBytes s.live) ++
    Sm3.digest p.ownerKey

def State.readAttest (s : State) (pl : Bytes) : ReadAnswer :=
  if pl.length ≠ 40 || bits (byteAt pl 0x20) 7 1 ≠ 0 || ! allZero (sliceAt pl 0x21 7) then badLayout s
  else
    let k := (s.panel.server).getD 0
    let b := s.attestBody k (pl.take 32)
    let cert := fun h => if bitAt (byteAt pl 0x20) 0 then (Config.certificate h).take 1024 else []
    (s, 0, b ++ sliceAt (Config.sm2Sign k (Sm3.digest b)) 0 64 ++ leBytes 2 (cert 0).length ++ leBytes 2 (cert 1).length ++ cert 0 ++ cert 1)

/-- `n` registers of a die from offset `r` on. -/
def State.readRegs (d : Nat) : Nat → Nat → State → List Nat × State
  | 0, _, s => ([], s)
  | n + 1, r, s =>
    let a := s.readReg d r
    let b := State.readRegs d n (r + 8) a.2
    (a.1 :: b.1, b.2)

def State.readDie (s : State) (pl : Bytes) : ReadAnswer :=
  let n := byteAt pl 1
  let a := leAt pl 8 8
  if pl.length ≠ 16 || n < 1 || 64 < n || ! allZero (sliceAt pl 2 6) || a % 8 ≠ 0 || a < controlBase || 0x8000000000 < a + 8 * n then badLayout s
  else if s.vacant (byteAt pl 0) then (s, Code.siteVacant, [])
  else match s.siteOf (byteAt pl 0) with
    | none => (s, Code.siteVacant, [])
    | some d =>
      let r := State.readRegs d n (a - controlBase) s
      (r.2, 0, r.1.flatMap (leBytes 8))

/-- The read commands by opcode. -/
def State.readBy (s : State) (op : Nat) (pl : Bytes) : ReadAnswer :=
  match op with
  | 0x0001 => s.readStatus pl
  | 0x0002 => s.readSiteMap pl
  | 0x0003 => s.readFabric pl
  | 0x0004 => s.readHatch pl
  | 0x0005 => s.readAttest pl
  | _ => s.readDie pl

/-- A hearth serves Gwyntu and the HOST link is up. -/
def State.listens (s : State) : Bool := s.panel.serves && (s.port 8).up

/-- A hatch on which read commands are served: it has a key; in ROM mode only hatch 0 (R412, R447). -/
def State.readable (s : State) (h op : Nat) : Bool :=
  s.listens && (s.panel.hatch h).key.isSome && (! s.panel.romMode || h = 0) && ((op ≠ 0x0003 && op ≠ 0x0006) || h = 15)

/-- A read command is executed on arrival and answered with one FINISH (R412). -/
def State.doRead (s : State) (h op : Nat) (pl : Bytes) : State :=
  if ! s.readable h op then s
  else
    let r := s.readBy op pl
    r.1.reply h (2 ^ 48 - 1) op .finish r.2.1 false r.2.2

/-- STATUS_GET. -/
def execStatusGet (h : Nat) (pl : Bytes) (s : State) : Host.Outcome State Fault Refusal := .next (s.doRead h 0x0001 pl)
/-- SITE_MAP_GET. -/
def execSiteMapGet (h : Nat) (pl : Bytes) (s : State) : Host.Outcome State Fault Refusal := .next (s.doRead h 0x0002 pl)
/-- FABRIC_GET. -/
def execFabricGet (h : Nat) (pl : Bytes) (s : State) : Host.Outcome State Fault Refusal := .next (s.doRead h 0x0003 pl)
/-- HATCH_STATUS. -/
def execHatchStatus (h : Nat) (pl : Bytes) (s : State) : Host.Outcome State Fault Refusal := .next (s.doRead h 0x0004 pl)
/-- ATTEST_GET. -/
def execAttestGet (h : Nat) (pl : Bytes) (s : State) : Host.Outcome State Fault Refusal := .next (s.doRead h 0x0005 pl)
/-- DIE_READ. -/
def execDieRead (h : Nat) (pl : Bytes) (s : State) : Host.Outcome State Fault Refusal := .next (s.doRead h 0x0006 pl)

end Sys2Proof.Machine
end

