-- ==== Sys2Proof/Machine/Commands.lean ====
section
/-! DEFINITION. Sequenced commands of hatch 15 (R422): jobs, fabric, site map, power, notices, tests, resets, firmware, keys. -/
namespace Sys2Proof.Machine

/-! ### Execution (R415) -/

/-- What a command's effect answers: the state after it, and its code and payload when it is finished. -/
abbrev Effect := State × Option (Nat × Bytes)

def State.done (s : State) (code : Nat) : Effect := (s, some (code, []))

/-- Commands are carried out: Gwyntu is served, by firmware, and the panel is not powered down (R427, R447). -/
def State.works (s : State) : Bool := s.panel.serves && ! s.panel.romMode && ! s.panel.powerDown

/-- The stamp (HATCH, SEQ) of a state command (R415). -/
def State.stampHatch (s : State) (h seq : Nat) : State := s.modPanel (fun p => p.modHatch h (fun x => { x with stamp := seq }))

/-- Execute the EXECUTING entry of a hatch for an opcode; a finished state command is stamped. -/
def State.perform (s : State) (h op : Nat) (f : State → Entry → Effect) : State :=
  match s.panel.executing h op with
  | none => s
  | some e =>
    if ! s.works then s
    else
      let r := f s e
      match r.2 with
      | none => r.1
      | some (c, a) => (if isStateOp op then r.1.stampHatch h e.seq else r.1).finishEntry h e.seq c a

/-! ### Job contexts (R425, R327) -/

def jobHatches : List Nat := (List.range 14).map (· + 1)
def isJobHatch (h : Nat) : Bool := decide (1 ≤ h) && decide (h ≤ 14)

/-- The payload of JOB_CLOSE and TEARDOWN keeps its layout. -/
def jobTagOk (pl : Bytes) : Bool := pl.length = 8 && bits (leAt pl 0 2) 15 12 = 0 && allZero (sliceAt pl 2 6)

/-- The JOB of a payload is the tag of the open job context. -/
def State.jobIs (s : State) (tag : Nat) : Bool := (s.panel.job.map Job.tag) = some tag

def State.jobOpen (s : State) (pl : Bytes) : Effect :=
  if pl.length ≠ 528 || bits (leAt pl 0 2) 15 12 ≠ 0 || bits (leAt pl 2 2) 15 1 ≠ 0 || ! allZero (sliceAt pl 4 4) then s.done Code.gwPayload
  else if s.panel.job.isSome then s.done Code.jobContextOpen
  else
    let seed := leAt pl 8 8
    let s1 := s.modPanel (fun p =>
      let q : Panel := { p with
        job := some { tag := leAt pl 0 2, counterRead := bitAt (byteAt pl 2) 0, seed := seed, menuKey := sliceAt pl 0x10 64 }
        journal := p.journal.filter (fun e => ! isJobHatch e.hatch) }
      jobHatches.foldl (fun q h => q.modHatch h (fun x => { x with
        key := some (leAt pl (0x50 + 32 * (h - 1)) 32), nextSeq := 1, stamp := 0, ackedSeq := 0, held := [], finSeq := 0, finCode := 0 })) q)
    (s1.onActive (fun x => { x with seed := seed })).done 0

/-- A fabric interface forgets its sessions and requests; its counters stand (R327). -/
def Remote.tearDown (r : Remote) : Remote :=
  { r with src := [], reqs := [], tgt := [], pendingStores := [], rx := r.rx.filter (fun q => q.owner = 0), lostThisTurn := [] }

/-- Instances end silently (R363): no code is raised for them later, and nothing of them is sent again. -/
def Whisk.tearDown (w : Whisk) : Whisk :=
  { w with pending := [], joins := []
           insts := (w.insts.filter (fun e => decide (e.1 < 64))).map (fun e => (e.1, { e.2 with abortRaised := true, ctlSent := [] })) }

/-- Commands that still wait are discarded, whatever menu left them; FAB_SELF and the rank table take their reset values, when the
job's fabric state ends (R273, R327). -/
def Die.tearDown (x0 : Die) (turn : Nat) : Die :=
  let x := x0.discardQueued turn
  { x with
    rem := x.rem.tearDown
    whisk := x.whisk.tearDown
    fab := { x.fab with selfValid := false, job := 0, rank := 0, epoch := 0, ranks := [], handoff := [], wins := [], marks := [] } }

/-- The steps of R327. -/
def State.tearJob (s : State) : State :=
  let s1 := s.abortMenus (fun _ => true) (panelErr Code.jobTornDown 0xFF)
  (s1.onActive (fun x => x.tearDown s.turn)).modPanel (fun p => { p with fabric := { p.fabric with pendingTables := [], inForce := none } })

def State.teardown (s : State) (pl : Bytes) : Effect :=
  if ! jobTagOk pl then s.done Code.gwPayload
  else if ! s.jobIs (leAt pl 0 2) then s.done Code.noJobContext
  else s.tearJob.done 0

/-- The job context ends (R6, R425, R436, R460). -/
def State.endJob (s : State) : State :=
  let s1 := if s.anyActive then s.tearJob else s
  let s2 := (s1.onActive (fun x => x.tearDown s.turn)).onActive (fun x => { x with
    mem := { x.mem with regions := [] }, fab := { x.fab with fenced := false } })
  let s3 := s2.modPanel (fun p =>
    let q : Panel := { p with
      job := none, fenced := false, plans := [], regions := []
      fabric := { p.fabric with pendingTables := [], inForce := none }
      journal := p.journal.filter (fun e => ! isJobHatch e.hatch)
      bulks := p.bulks.filter (fun b => ! isJobHatch b.hatch) }
    jobHatches.foldl (fun q h => q.modHatch h (fun x => { x with key := none, held := [] })) q)
  { s3 with menus := [] }

def State.jobClose (s : State) (pl : Bytes) : Effect :=
  if ! jobTagOk pl then s.done Code.gwPayload
  else if ! s.jobIs (leAt pl 0 2) then s.done Code.noJobContext
  else s.endJob.done 0

/-! ### Eviction (R459, R460) -/

def State.fence (s : State) : State :=
  if s.panel.fenced then s
  else
    let s1 := (s.modPanel (fun p => { p with fenced := true })).onActive (fun x => { x with fab := { x.fab with fenced := true } })
    (s1.abortMenus (fun _ => true) (panelErr Code.fenced 0xFF)).notice Code.fenced noSubject 0 0 0

def State.evict (s : State) (pl : Bytes) : Effect :=
  if pl.length ≠ 88 || leAt pl 0 4 ≠ 1 || bits (leAt pl 4 2) 15 12 ≠ 0 || bits (leAt pl 6 2) 15 14 ≠ 0 || ! allZero (sliceAt pl 0x12 6) then
    s.done Code.gwPayload
  else
    let p := s.panel
    let t := p.fabric.inForce.getD {}
    if p.job.isNone || leAt pl 4 2 ≠ t.job || leAt pl 6 2 ≠ t.rank || leAt pl 8 8 ≠ p.serial ||
        decide (32767 < (leAt pl 0x10 2 + 65536 - t.epoch) % 65536) ||
        ! Config.sm2Verify p.fmKey (Sm3.digest (pl.take 0x18)) (sliceAt pl 0x18 64) then s.done Code.evictInvalid
    else s.fence.done 0

/-! ### The fabric manager's commands (R270, R274) -/

/-- FABRIC_PUT keeps its layout: every reserved bit is zero (R61, R299, R300, R422). -/
def fabricOk (pl : Bytes) : Bool :=
  let m := leAt pl 8 8
  let c := leAt pl 0x10 8
  pl.length = 1056 && leAt pl 0 8 < 16 && m < 2 ^ 17 && ! bitAt m 14 && c < 256 && c % 8 = 0 && ! bitAt (leAt pl 0x20 8) 63 &&
    (List.range 508).all (fun e => bits (leAt pl (0x28 + 2 * e) 2) 13 8 = 0)

/-- The gateway words of a FABRIC_PUT image. -/
def gatewayWords (pl : Bytes) : Tab Nat := (List.range 127).map (fun g => (g, leAt pl (0x28 + 8 * g) 8))

/-- FAB_MODULE is written: COORD_VALID 0 clears the coordinates, else they are set as written (R268, R300). -/
def FabMod.write (f : FabMod) (m : Nat) : FabMod :=
  if bitAt m 15 then { f with origin := bitAt m 16, coordValid := true, coord := m % 2 ^ 14 }
  else { f with origin := bitAt m 16, coordValid := false, coord := 0x3F80 }

def State.fabricPut (s : State) (pl : Bytes) : Effect :=
  if ! fabricOk pl then s.done Code.gwPayload
  else
    let mask := leAt pl 0 8
    let s1 := if bitAt mask 0 then s.settlePorts (s.modPanel (fun p => { p with fabric := p.fabric.write (leAt pl 8 8) })) false else s
    let s2 := if bitAt mask 1 then s1.setRole (bits (leAt pl 0x10 8) 7 6) (bits (leAt pl 0x10 8) 5 3) else s1
    let s3 := if bitAt mask 2 then
        let v := leAt pl 0x18 16
        (s2.modPanel (fun p => { p with fabric := { p.fabric with viaMask := v } })).onActive (fun x => { x with fab := { x.fab with viaMask := v } })
      else s2
    let s4 := if bitAt mask 3 then
        let f := (gatewayWords pl).foldl (fun f e => f.putGw e.1 e.2) ({} : Fabric)
        (s3.modPanel (fun p => { p with fabric := { p.fabric with gw := f.gw } })).onActive (fun x =>
          { x with fab := { x.fab with gw := f.gw, gwExcluded := [] } })
      else s3
    s4.done 0

/-- Turn `t` − 2 has begun (R72, R274). -/
def State.tooLate (s : State) (t : Nat) : Bool := decide (turnsTo s.turn t ≤ 2)

/-- The checks of R274 on a whole table, in order. -/
def State.tableCode (s : State) (rank epoch turn : Nat) (t : Tab Nat) : Nat :=
  let f := s.panel.fabric
  let own := t.getD rank 0
  if s.panel.job.isNone then Code.fabTableInvalid
  else if ! bitAt own 15 || ! f.coordValid || own % 2 ^ 14 ≠ f.coord || t.any (fun e => bitAt e.2 14) then Code.fabTableInvalid
  else if (f.inForce.map (fun q =>
      let d := (epoch + 65536 - q.epoch) % 65536
      d = 0 || decide (32767 < d))).getD false then Code.fabEpochOld
  else if s.tooLate turn then Code.fabTableLate
  else 0

/-- The entries of a table's eight pages. -/
def rankEntries (pages : Tab Bytes) : Tab Nat :=
  (List.range 16384).map (fun r => (r, leAt (pages.getD (r / 2048) []) (2 * (r % 2048)) 2))

/-- An accepted table waits for its turn; it supersedes the tables of its turn and of later ones (R274). -/
def State.commitTable (s : State) (pl : Bytes) (pages : Tab Bytes) : Effect :=
  let t := rankEntries pages
  let rank := leAt pl 2 2
  let epoch := leAt pl 4 2
  let turn := leAt pl 8 6
  let c := s.tableCode rank epoch turn t
  if c ≠ 0 then s.done c
  else
    let n : RankTable := { job := (s.panel.job.map Job.tag).getD 0, rank := rank, epoch := epoch, turn := turn, table := t }
    (s.modPanel (fun p => { p with fabric := { p.fabric with
      pendingTables := p.fabric.pendingTables.filter (fun q => ! turnCome turn q.turn) ++ [n] } })).done 0

/-! ### Site map, power, notices (R43, R382, R430) -/

/-- An entry of a SITE_MAP_PUT: its state, when the code is not reserved. -/
def siteStateOf (w : Nat) : Option SiteState :=
  match bits w 15 13 with
  | 0 => some .active
  | 1 => some .spare
  | 2 => some .off
  | 3 => some .failed
  | 4 => some .incompat
  | _ => none

/-- The map that a payload gives; none when an entry breaks rule 1 of R43. -/
def mapOf (pl : Bytes) : Option SiteMap :=
  let words := (List.range 52).map (fun d => (d, leAt pl (2 * d) 2))
  if words.any (fun e => bits e.2 10 6 ≠ 0 || (siteStateOf e.2).isNone) then none
  else some (words.map (fun e => (e.1, { state := (siteStateOf e.2).getD .off, standsFor := e.2 % 64 })))

/-- Rules 2 to 7 of R43 at one site. -/
def siteRule (old new : SiteMap) (d : Nat) : Bool :=
  let o := old.entry d
  let n := new.entry d
  let dead := fun (st : SiteState) => st = .failed || st = .incompat
  let spare := ! homeNumber d
  (if dead o.state then n = o else ! dead n.state) &&
    (n.state ≠ .active || (if spare then homeNumber n.standsFor && (new.entry n.standsFor).state ≠ .active else n.standsFor = d)) &&
    (n.state ≠ .active || (List.range 52).all (fun e => e = d || (new.entry e).state ≠ .active || (new.entry e).standsFor ≠ n.standsFor)) &&
    (n.state = .active || n.standsFor = 0x3F) &&
    (spare || n.state ≠ .spare || o.state = .spare) && (! spare || n.state ≠ .off || o.state = .off)

def State.siteMapPut (s : State) (pl : Bytes) : Effect :=
  if pl.length ≠ 104 then s.done Code.gwPayload
  else match mapOf pl with
    | none => s.done Code.siteMapInvalid
    | some m =>
      let old : SiteMap := s.panel.pendingMap
      if (List.range 52).all (siteRule old m) then (s.modPanel (fun p => { p with pendingMap := m })).done 0
      else s.done Code.siteMapInvalid

def State.powerLimitSet (s : State) (pl : Bytes) : Effect :=
  let w := leAt pl 0 4
  if pl.length ≠ 8 || w < 12000 || 20000 < w || ! allZero (sliceAt pl 4 4) then s.done Code.gwPayload
  else (s.modPanel (fun p => { p with powerLimit := w })).done 0

def State.noticeRoute (s : State) (pl : Bytes) : Effect :=
  if pl.length ≠ 11 || pl.any (fun b => decide (16 ≤ b.toNat)) then s.done Code.gwPayload
  else (s.modPanel (fun p => { p with route := (List.range 11).map (fun i => (i + 1, byteAt pl i)) })).done 0

/-! ### Known-answer tests (R458) -/

def State.katStart (s : State) (h : Nat) (pl : Bytes) : Effect :=
  let set := leAt pl 0 8
  let reps := byteAt pl 8
  let ns := (List.range 64).filter (fun n => set.testBit n)
  if pl.length ≠ 16 || ! allZero (sliceAt pl 9 7) || reps < 1 || 16 < reps || set = 0 || ns.any (fun n => ! homeNumber n) || 127 < ns.length * reps then
    s.done Code.gwPayload
  else if ns.any s.vacant then s.done Code.siteVacant
  else if s.menus.any (fun m => m.active && m.dies.any (fun n => ns.contains n)) then s.done Code.menuDieBusy
  else
    let ds := ns.filterMap s.siteOf
    let s1 := ds.foldl (fun s d => s.setManaged d true) s
    (s1.modPanel (fun p => { p with
      katRun := some { hatch := h, dies := ns, left := reps - 1 }
      kats := ds.foldl (fun t d => t.put d { trigger := 2, turn := s.turn, budget := (s.die d).leave.cur }) p.kats }), none)

/-! ### Resets (R435) -/

/-- The code of a RESET, and what follows its FINISH. -/
def State.resetOf (s : State) (pl : Bytes) : Nat × (State → State) :=
  let k := byteAt pl 0
  let t := byteAt pl 1
  if pl.length ≠ 8 then (Code.gwPayload, id)
  else if ! allZero (sliceAt pl 2 6) then (Code.resetInvalid, id)
  else if k = 1 then
    if 52 ≤ t || (s.site t).state ≠ .active || (s.panel.restarts.find t).isSome then (Code.resetInvalid, id)
    else if (s.die t).power.shutdown then (Code.thermalShutdown, id)
    else (0, fun s => s.dieReset t)
  else if k = 2 then (if 8 ≤ t then (Code.resetInvalid, id) else (0, fun s => s.portReset t))
  else if k = 3 then (if t ≠ 0 then (Code.resetInvalid, id) else (0, State.panelWarm))
  else (Code.resetInvalid, id)

/-! ### Firmware (R503 to R505) -/

/-- The hearths that run. -/
def Panel.running (p : Panel) : List Nat := ([0, 1] : List Nat).filter (fun k => (p.hearth k).role ≠ .down)

def Hearth.slot (k : Hearth) (i : Nat) : Slot := k.slots.getD i {}

/-- A piece is written into a slot. -/
def Slot.write (x : Slot) (off : Nat) (bs : Bytes) : Slot :=
  { factory := false, data := sliceAt x.image 0 off ++ bs ++ x.image.drop (off + bs.length), fill := off + bs.length }

def State.firmwarePut (s : State) (pl : Bytes) : Effect :=
  let i := byteAt pl 0
  let off := leAt pl 4 4
  let n := leAt pl 8 4
  let p := s.panel
  if pl.length < 16 || 1 < i || ! allZero (sliceAt pl 1 3) || n < 1 || 4080 < n || ! allZero (sliceAt pl 0x0C 4) || pl.length ≠ 16 + n ||
      16777216 < off + n then s.done Code.gwPayload
  else if p.running.any (fun k => (p.hearth k).booted = some i) then s.done Code.fwSlotBusy
  else if p.running.any (fun k => decide (((p.hearth k).slot i).fill < off)) then s.done Code.fwSlotOrder
  else (p.running.foldl (fun s k => s.modHearth k (fun y => { y with slots := y.slots.put i ((y.slot i).write off (pl.drop 16)) })) s).done 0

/-- A slot is verified, with BODY_LEN within its fill; a slot as manufacture left it holds a whole image (log 16). -/
def Slot.activates (p : Panel) (x : Slot) : Bool := x.verified p && (x.factory || decide (x.bodyLen ≤ x.fill))

/-- The code of a FIRMWARE_ACTIVATE, and the state with its slot and level in force. -/
def State.activateOf (s : State) (pl : Bytes) : Nat × State :=
  let i := byteAt pl 0
  let p := s.panel
  let cl := if byteAt pl 1 = 0 then p.clMax else byteAt pl 1
  if pl.length ≠ 8 || 1 < i || ! allZero (sliceAt pl 2 6) then (Code.gwPayload, s)
  else if p.running.any (fun k => ! ((p.hearth k).slot i).activates p) then (Code.fwImageInvalid, s)
  else if p.clMax < cl then (Code.clUnsupported, s)
  else (0, s.modPanel (fun p => { p with bootSlot := i, clSet := cl }))

/-! ### Keys (R448, R450) -/

/-- The plaintext that the running hearths decrypt, when all of them succeed and agree. -/
def State.keyBlock (s : State) (pl : Bytes) : Option Bytes :=
  let ks := s.panel.running.map (fun k => Config.sm2Decrypt k (sliceAt pl (0x90 + 160 * k) 160))
  match ks with
  | some b :: rest => if b.length = 64 && rest.all (fun r => r = some b) then some b else none
  | _ => none

def State.keysPut (s : State) (pl : Bytes) : Effect :=
  let p := s.panel
  if pl.length ≠ 528 then s.done Code.gwPayload
  else if leAt pl 0 4 ≠ 1 || leAt pl 8 8 ≠ p.serial || leAt pl 4 4 ≤ p.keyEpoch ||
      ! Config.sm2Verify p.ownerKey (Sm3.digest (pl.take 0x1D0)) (sliceAt pl 0x1D0 64) then s.done Code.keysInvalid
  else match s.keyBlock pl with
    | none => s.done Code.keysInvalid
    | some b =>
      (s.modPanel (fun p =>
        let q : Panel := { p with ownerKey := sliceAt pl 0x10 64, fmKey := sliceAt pl 0x50 64, keyEpoch := leAt pl 4 4 }
        (q.modHatch 0 (fun x => { x with key := some (leAt b 0 32), nextSeq := 1, record := none })).modHatch 15 (fun x =>
          { x with key := some (leAt b 32 32), nextSeq := 1, ackedSeq := 0, held := [] }))).done 0

/-! ### The rows -/

/-- JOB_OPEN. -/
def execJobOpen (h : Nat) (s : State) : Host.Outcome State Fault Refusal := .next (s.perform h 0x0100 (fun s e => s.jobOpen e.payload))
/-- JOB_CLOSE. -/
def execJobClose (h : Nat) (s : State) : Host.Outcome State Fault Refusal := .next (s.perform h 0x0101 (fun s e => s.jobClose e.payload))
/-- TEARDOWN. -/
def execTeardown (h : Nat) (s : State) : Host.Outcome State Fault Refusal := .next (s.perform h 0x0102 (fun s e => s.teardown e.payload))
/-- EVICT. -/
def execEvict (h : Nat) (s : State) : Host.Outcome State Fault Refusal := .next (s.perform h 0x0103 (fun s e => s.evict e.payload))
/-- FABRIC_PUT. -/
def execFabricPut (h : Nat) (s : State) : Host.Outcome State Fault Refusal := .next (s.perform h 0x0104 (fun s e => s.fabricPut e.payload))
/-- SITE_MAP_PUT. -/
def execSiteMapPut (h : Nat) (s : State) : Host.Outcome State Fault Refusal := .next (s.perform h 0x0106 (fun s e => s.siteMapPut e.payload))
/-- POWER_LIMIT_SET. -/
def execPowerLimitSet (h : Nat) (s : State) : Host.Outcome State Fault Refusal :=
  .next (s.perform h 0x0107 (fun s e => s.powerLimitSet e.payload))
/-- NOTICE_ROUTE. -/
def execNoticeRoute (h : Nat) (s : State) : Host.Outcome State Fault Refusal :=
  .next (s.perform h 0x0108 (fun s e => s.noticeRoute e.payload))
/-- KAT_RUN: a command whose tests run is not started again. -/
def execKatRun (h : Nat) (s : State) : Host.Outcome State Fault Refusal :=
  .next (if s.panel.katRun.isSome then s else s.perform h 0x0109 (fun s e => s.katStart h e.payload))
/-- FIRMWARE_PUT. -/
def execFirmwarePut (h : Nat) (s : State) : Host.Outcome State Fault Refusal :=
  .next (s.perform h 0x010B (fun s e => s.firmwarePut e.payload))
/-- KEYS_PUT; the stamp of hatch 15 restarts with its sequence numbers. -/
def execKeysPut (h : Nat) (s : State) : Host.Outcome State Fault Refusal :=
  .next (let t := s.perform h 0x010D (fun s e => s.keysPut e.payload)
    if t.panel.keyEpoch = s.panel.keyEpoch then t else t.stampHatch 15 0)

/-- RESET: the entry becomes FINISHED before the reset starts (R415). -/
def execReset (h : Nat) (s : State) : Host.Outcome State Fault Refusal :=
  .next (match s.panel.executing h 0x010A with
    | none => s
    | some e =>
      if ! s.works then s
      else
        let r := s.resetOf e.payload
        r.2 (s.finishEntry h e.seq r.1 []))

/-- FIRMWARE_ACTIVATE: the command finishes, and a panel warm reset follows (R504). -/
def execFirmwareActivate (h : Nat) (s : State) : Host.Outcome State Fault Refusal :=
  .next (match s.panel.executing h 0x010C with
    | none => s
    | some e =>
      if ! s.works then s
      else
        let r := s.activateOf e.payload
        let t := r.2.finishEntry h e.seq r.1 []
        if r.1 = 0 then t.panelWarm else t)

end Sys2Proof.Machine
end

