-- ==== Sys2Proof/Machine/Loading.lean ====
section
/-! DEFINITION. The hearth's own reads and writes of die memory, transfers in pages (R419, R420), regions, plans, queue
flushes, and the checks of MENU_LOAD (R507). -/
namespace Sys2Proof.Machine

/-- The code of the first check that fails, or 0. -/
def firstCode : List (Bool × Nat) → Nat
  | [] => 0
  | (bad, c) :: l => if bad then c else firstCode l

/-! ### The hearth at a die's memory (R187, R191 to R195) -/

/-- The span rules of R419 but for alignment. -/
def Die.spanOk (x : Die) (a n : Nat) : Bool :=
  match spanPlace a n with
  | none => false
  | some p => decide (0 < n) && (p = .pantry || (x.mem.regionOf a n).isSome)

/-- A verified read by the hearth: the bytes, or the code of the fault. An uncorrectable pantry word is counted, and its bytes
are not good (R180). -/
def State.hearthRead (s : State) (d a n : Nat) : State × (Bytes ⊕ Nat) :=
  let x := s.die d
  let r := x.mem.panScan a n
  let s1 := s.setDie d { x with mem := r.1 }
  let s2 := s1.modDie d (fun x => { x with mem := x.mem.forget .hearth a n })
  if r.2 then (s1, .inr Code.panUncorrectable)
  else match (x.mem.verifiedRead .hearth a n).fault Code.glazeFault with
    | .inl bs => (s2, .inl bs)
    | .inr e => (s2, .inr e.2)

/-- A write by the hearth of one block, or part of one, once the kiln has applied the writes to it that came before (R191). -/
def State.hearthBlock (s : State) (d : Nat) (e : Nat × List (Nat × Bytes)) : State :=
  let larder := decide (larderBase ≤ e.1)
  (State.kilnClear d e.1 larder ((s.die d).mem.kiln larder).length s).modDie d (fun x =>
    let r := x.mem.kilnApply e.1 e.2
    let y : Die := { x with mem := r.1.forget .kiln e.1 4096 }
    if r.2 = .written then e.2.foldl (fun y p => y.landed (e.1 + p.1) p.2.length) y else y)

/-- A write by the hearth: pantry bytes, or whole blocks through the kiln of their tier; the bytes land (R191, R344). -/
def State.hearthWrite (s : State) (d a : Nat) (bs : Bytes) : State :=
  if placeOf a = .pantry then s.modDie d (fun x => x.panPut a bs) else (blocksOf a bs).foldl (fun s e => s.hearthBlock d e) s

/-- Bytes padded with zeros to whole blocks. -/
def padBlocks (bs : Bytes) : Bytes := bs ++ List.replicate ((4096 - bs.length % 4096) % 4096) 0

/-! ### Transfers in pages (R419, R420) -/

def State.modBulk (s : State) (h seq : Nat) (f : Bulk → Bulk) : State :=
  s.modPanel (fun p => { p with bulks := p.bulks.map (fun b => if b.hatch = h && b.seq = seq then f b else b) })

def Panel.bulk (p : Panel) (h seq : Nat) : Option Bulk := p.bulks.find? (fun b => b.hatch = h && b.seq = seq)

/-- The lowest page that the receiver does not hold, from page `k` on. -/
def firstMissing (held : List Nat) : Nat → Nat → Nat
  | 0, k => k
  | fuel + 1, k => if held.contains k then firstMissing held fuel (k + 1) else k

def Bulk.missing (b : Bulk) : Nat := firstMissing b.held b.held.length 0

/-- A BULK_ACK: a bitmap of 4,096 pages from the lowest missing one on. -/
def State.sendBulkAck (s : State) (b : Bulk) : State :=
  let m := b.missing
  { s with outbox := s.outbox ++ [.bulkAck b.hatch b.seq m (b.held.filter (fun k => decide (m ≤ k) && decide (k < m + 4096)))] }

/-- The place of a page, while its die is in service and the page keeps the span rules. -/
def State.pagePlace (s : State) (b : Bulk) (k : Nat) : Option (Nat × Nat) :=
  match s.siteOf b.die with
  | none => none
  | some d =>
    let a := b.addr + 4096 * k
    if s.inService d && (s.die d).spanOk a 4096 then some (d, a) else none

/-- A BULK_GET sends page `k`: the state, and a code when the transfer ends here. -/
def State.sendPage (s : State) (b : Bulk) (k : Nat) : State × Nat :=
  match s.pagePlace b k with
  | none => (s, Code.bulkRange)
  | some (d, a) =>
    match s.hearthRead d a 4096 with
    | (s1, .inr c) => (s1, c)
    | (s1, .inl bs) => ({ s1 with outbox := s1.outbox ++ [.bulkData b.hatch b.seq k bs] }, 0)

/-- It sends the pages that its window allows, at most `fuel`. -/
def State.sendPages (h seq : Nat) : Nat → State → State × Nat
  | 0, s => (s, 0)
  | fuel + 1, s =>
    match s.panel.bulk h seq with
    | none => (s, 0)
    | some b =>
      if b.pages ≤ b.next || b.missing + 4096 ≤ b.next then (s, 0)
      else match s.sendPage b b.next with
        | (s1, 0) => State.sendPages h seq fuel (s1.modBulk h seq (fun b => { b with next := b.next + 1 }))
        | r => r

/-- A transfer leaves, and its command finishes; RANK_TABLE_PUT is a state command and is stamped (R415). -/
def State.dropBulk (s : State) (h seq code : Nat) : State :=
  let s1 := if ((s.panel.bulk h seq).map Bulk.kind) = some .ranks then s.stampHatch h seq else s
  (s1.modPanel (fun p => { p with bulks := p.bulks.filter (fun b => ! (b.hatch = h && b.seq = seq)) })).finishEntry h seq code []

/-- Transfers that wait start while fewer than eight run: a BULK_ACK with an empty bitmap, and the first pages of a
BULK_GET. -/
def State.startBulks : Nat → State → State
  | 0, s => s
  | fuel + 1, s =>
    if 8 ≤ (s.panel.bulks.filter Bulk.running).length then s
    else match s.panel.bulks.find? (fun b => ! b.running) with
      | none => s
      | some b =>
        let s1 := (s.modBulk b.hatch b.seq (fun b => { b with running := true })).sendBulkAck { b with held := [] }
        if b.kind = .get then
          match State.sendPages b.hatch b.seq 4096 s1 with
          | (s2, 0) => State.startBulks fuel s2
          | (s2, c) => State.startBulks fuel (s2.dropBulk b.hatch b.seq c)
        else State.startBulks fuel s1

def State.bulksGo (s : State) : State := State.startBulks (s.panel.bulks.length + 1) s

/-- A transfer ends, and another may start. -/
def State.endBulk (s : State) (h seq code : Nat) : State := (s.dropBulk h seq code).bulksGo

/-- The code of a bulk command's checks (R419, R510). -/
def State.bulkCode (s : State) (put : Bool) (pl : Bytes) : Nat :=
  let n := byteAt pl 0
  let a := leAt pl 8 8
  let k := leAt pl 0x10 8
  let ok := match s.siteOf n with
    | none => false
    | some d => s.inService d && (s.die d).spanOk a (4096 * k) && ! (put && (s.die d).mem.frozen a (4096 * k))
  firstCode [(pl.length ≠ 24 || ! allZero (sliceAt pl 1 7) || k = 0 || decide (2 ^ 24 < k), Code.gwPayload),
    (s.panel.job.isNone, Code.noJobContext), (a % 4096 ≠ 0 || ! ok, Code.bulkRange)]

/-- A bulk command starts: its checks, or its transfer. A command whose transfer stands already is not started again. -/
def State.bulkStart (s : State) (h op : Nat) (kind : BulkKind) : State :=
  match s.panel.executing h op with
  | none => s
  | some e =>
    if ! s.works then s
    else if (s.panel.bulk h e.seq).isSome then s.bulksGo
    else
      let c := s.bulkCode (kind = .put) e.payload
      if c ≠ 0 then s.finishEntry h e.seq c []
      else (s.modPanel (fun p => { p with bulks := p.bulks ++
        [{ hatch := h, seq := e.seq, kind := kind, die := byteAt e.payload 0, addr := leAt e.payload 8 8, pages := leAt e.payload 0x10 8 }] })).bulksGo

/-- BULK_PUT. -/
def execBulkPut (h : Nat) (s : State) : Host.Outcome State Fault Refusal := .next (s.bulkStart h 0x0200 .put)
/-- BULK_GET. -/
def execBulkGet (h : Nat) (s : State) : Host.Outcome State Fault Refusal := .next (s.bulkStart h 0x0201 .get)

/-- The eight pages of a rank table are held: the table is checked and committed (R274, R420). -/
def State.ranksHeld (s : State) (b : Bulk) : State :=
  match s.panel.entry b.hatch b.seq with
  | none => s
  | some e =>
    let r := s.commitTable e.payload b.data
    (r.1.endBulk b.hatch b.seq ((r.2.map Prod.fst).getD 0))

/-- RANK_TABLE_PUT: a table whose eight pages are held commits without a new transfer, at a replay too (R420). -/
def execRankTablePut (h : Nat) (s : State) : Host.Outcome State Fault Refusal :=
  .next (match s.panel.executing h 0x0105 with
    | none => s
    | some e =>
      let pl := e.payload
      if ! s.works then s
      else if pl.length ≠ 16 || bits (leAt pl 0 2) 15 12 ≠ 0 || bits (leAt pl 2 2) 15 14 ≠ 0 || leAt pl 6 2 ≠ 0 || leAt pl 0x0E 2 ≠ 0 then
        s.finishEntry h e.seq Code.gwPayload []
      else if s.panel.fenced then s.finishEntry h e.seq Code.fenced []
      else match s.panel.bulk h e.seq with
        | some b => if b.held.length = 8 then s.ranksHeld b else s.bulksGo
        | none => (s.modPanel (fun p => { p with bulks := p.bulks ++ [{ hatch := h, seq := e.seq, kind := .ranks, pages := 8 }] })).bulksGo)

/-! ### Regions (R186, R510) -/

/-- The layout of REGION_PUT and REGION_DELETE: the entries as (logical die, word 0, word 1). -/
def regionEntries (pl : Bytes) : Option (List (Nat × Nat × Nat)) :=
  let n := leAt pl 0 2
  if pl.length < 8 || n = 0 || 170 < n || pl.length ≠ 8 + 24 * n || ! allZero (sliceAt pl 2 6) ||
      (List.range n).any (fun i => ! allZero (sliceAt pl (8 + 24 * i + 1) 7)) then none
  else some ((List.range n).map (fun i => (byteAt pl (8 + 24 * i), leAt pl (16 + 24 * i) 8, leAt pl (24 + 24 * i) 8)))

/-- The logical dies of entries. -/
def entryDies (l : List (Nat × Nat × Nat)) : List Nat := l.foldl (fun t e => insertNat e.1 t) []

/-- Every entry matches a valid entry of its die, one user at a time; the tables after the removals. -/
def deleteAll (t : Tab (Tab Region)) : List (Nat × Nat × Nat) → Option (Tab (Tab Region))
  | [] => some t
  | (n, w0, w1) :: rest =>
    match regionDel (t.getD n []) (Region.ofWords w0 w1) with
    | none => none
    | some u => if bits w0 10 3 ≠ 0 || bits w1 63 60 ≠ 0 then none else deleteAll (t.put n u) rest

def State.regionCmd (s : State) (pl : Bytes) (f : Tab (Tab Region) → List (Nat × Nat × Nat) → Tab (Tab Region) ⊕ Nat) : Effect :=
  match regionEntries pl with
  | none => s.done Code.gwPayload
  | some l =>
    if s.panel.job.isNone then s.done Code.noJobContext
    else if l.any (fun e => s.vacant e.1) then s.done Code.siteVacant
    else match f s.panel.regions l with
      | .inr c => s.done c
      | .inl t => ((s.modPanel (fun p => { p with regions := t })).writeRegions (entryDies l)).done 0

/-- REGION_PUT. -/
def execRegionPut (h : Nat) (s : State) : Host.Outcome State Fault Refusal :=
  .next (s.perform h 0x0202 (fun s e => s.regionCmd e.payload installRegions))

/-- REGION_DELETE. -/
def execRegionDelete (h : Nat) (s : State) : Host.Outcome State Fault Refusal :=
  .next (s.perform h 0x0203 (fun s e => s.regionCmd e.payload (fun t l =>
    match deleteAll t l with
    | some u => .inl u
    | none => .inr Code.regionConflict)))

/-! ### Collective plans (R334, R335) -/

/-- Numbers that DIE_SETs may not name. -/
def dieSetOk (v : Nat) : Bool := (List.range 64).all (fun n => ! v.testBit n || homeNumber n)

/-- A plan keeps the rules of R335. -/
def planOk (pl : Bytes) : Bool :=
  let b : Bind := { plan := pl }
  let sc := leAt pl 0x010 4
  decide (leAt pl 0 2 ≤ 255) && decide (b.kind < 4) && b.algo ≠ 3 && bits (byteAt pl 3) 7 3 = 0 &&
    (b.srcFmt = 0x8 || b.srcFmt = 0xA) && [0x0, 0x1, 0x8, 0x9, 0xA].contains b.outFmt && bits (byteAt pl 5) 7 4 = 0 &&
    [0x00, 0x30, 0x31, 0x32].contains b.opt && decide (b.pbase ≤ 63) && decide (b.opt ≠ 0x31 ∨ b.pbase + 6 ≤ 63) &&
    decide ((b.opt ≠ 0x30 ∧ b.opt ≠ 0x32) ∨ b.pbase + 4 ≤ 63) && decide ((b.opt = 0) ↔ (b.kind ≠ 0)) &&
    bits sc 30 23 ≠ 255 && bits sc 30 0 ≠ 0 && leAt pl 0x014 4 = 0 && dieSetOk b.dieSet && b.dieSet ≠ 0 &&
    allZero (sliceAt pl 0x020 32) && ! allZero (sliceAt pl 0x040 2048)

/-- A loaded menu binds a plan. -/
def State.planBound (s : State) (id : Nat) : Bool :=
  s.menus.any (fun m => (List.range m.bindCount).any (fun i => leAt (m.bindBytes i) 2 2 = id))

def State.collPlanPut (s : State) (pl : Bytes) : Effect :=
  let id := leAt pl 0 2
  let c := firstCode [(pl.length ≠ 2112, Code.gwPayload), (s.panel.job.isNone, Code.noJobContext), (! planOk pl, Code.collPlanInvalid),
    (decide (256 ≤ s.panel.plans.length), Code.collPlanTableFull), (s.planBound id, Code.collPlanBusy)]
  if c ≠ 0 then s.done c else (s.modPanel (fun p => { p with plans := p.plans.put id pl })).done 0

/-- COLL_PLAN_PUT. -/
def execCollPlanPut (h : Nat) (s : State) : Host.Outcome State Fault Refusal :=
  .next (s.perform h 0x0207 (fun s e => s.collPlanPut e.payload))

def State.collPlanDelete (s : State) (pl : Bytes) : Effect :=
  let id := leAt pl 0 2
  let c := firstCode [(pl.length ≠ 8 || decide (255 < id) || ! allZero (sliceAt pl 2 6), Code.gwPayload),
    (s.panel.job.isNone, Code.noJobContext), (s.planBound id, Code.collPlanBusy)]
  if c ≠ 0 then s.done c else (s.modPanel (fun p => { p with plans := p.plans.del id })).done 0

/-- COLL_PLAN_DELETE; a plan that is not registered changes nothing. -/
def execCollPlanDelete (h : Nat) (s : State) : Host.Outcome State Fault Refusal :=
  .next (s.perform h 0x0208 (fun s e => s.collPlanDelete e.payload))

/-! ### QUEUE_FLUSH (R224, R416) -/

/-- Queues that a menu may configure. -/
def menuQueue (q : Nat) : Bool := (decide (4 ≤ q) && decide (q ≤ 35)) || (decide (64 ≤ q) && decide (q < 1024))

def State.queueFlush (s : State) (e : Entry) : Effect :=
  let pl := e.payload
  let q := leAt pl 2 2
  if pl.length ≠ 8 || byteAt pl 1 ≠ 0 || ! menuQueue q || ! allZero (sliceAt pl 4 4) then s.done Code.gwPayload
  else if s.panel.job.isNone then s.done Code.noJobContext
  else match s.siteOf (byteAt pl 0) with
    | none => s.done Code.siteVacant
    | some d =>
      if ! s.inService d then s.done Code.siteVacant
      else (s.modDie d (fun x =>
        let y := x.flushQueue q
        y.setQueue q { y.queue q with lastFlush := e.index % 2 ^ 44 })).done 0

/-- QUEUE_FLUSH: the flush and LAST_FLUSH in one write. -/
def execQueueFlush (h : Nat) (s : State) : Host.Outcome State Fault Refusal := .next (s.perform h 0x0209 State.queueFlush)

/-! ### Checks of MENU_LOAD (R507) -/

/-- `n` bytes from `off` lie in a package of `len` bytes. -/
def inside (off n len : Nat) : Bool := decide (off + n ≤ len)

/-- Step 6 but for the MENU_ID (R69): the header. -/
def Menu.headerOk (m : Menu) (len : Nat) : Bool :=
  decide (192 ≤ len) && m.format = 1 && m.flags < 4 && decide (1 ≤ m.roundLen) && decide (m.roundLen ≤ 65536) && dieSetOk m.dieSet &&
    m.dieSet ≠ 0 && decide (1 ≤ m.courseCount) && decide (m.courseCount ≤ 32767) && leAt m.pkg 0x26 2 = 0 && m.packageLen = len &&
    allZero (sliceAt m.pkg 0x50 48)

/-- Step 6: the course table, with its words inside the package. -/
def Menu.coursesOk (m : Menu) (len : Nat) : Bool :=
  inside m.courseTableOff (16 * m.courseCount) len &&
    (List.range m.courseCount).all (fun i =>
      let c := m.course i
      leAt m.pkg (m.courseTableOff + 16 * i + 12) 4 = 0 && decide (1 ≤ c.2) && decide (c.2 ≤ 32768) && inside c.1 (8 * c.2) len)

/-- Step 6: the schedule. -/
def Menu.scheduleOk (m : Menu) (len : Nat) : Bool :=
  inside m.scheduleOff (4 * m.roundLen * m.dies.length) len &&
    m.dies.all (fun n => (List.range m.roundLen).all (fun t =>
      [0, 1].all (fun c => m.idleAt n c t || decide (m.entryAt n c t % 32768 < m.courseCount)) && m.ckpt n 0 t = m.ckpt n 1 t))

/-- Step 6: the leave plan's offset and the sections of the resource plan lie inside the package. -/
def Menu.sectionsIn (m : Menu) (len : Nat) : Bool :=
  inside m.leaveOff 0 len && inside m.resOff 32 len && inside (m.section_ 0) 16 len && inside (m.section_ 0 + 16) (24 * m.memCount) len &&
    inside (m.section_ 1) 4 len && inside (m.section_ 1 + 4) (16 * m.queueCount) len &&
    inside (m.section_ 2) 8 len && inside (m.section_ 2 + 8) (64 * m.bindCount + 8 * m.slotCount) len &&
    inside (m.section_ 3) 4 len && inside (m.section_ 3 + 4) (16 * m.claimCount) len

/-- Step 8: an entry of the memory section by itself. -/
def Menu.memEntryOk (m : Menu) (e : MemEntry) : Bool :=
  let r := e.region
  let need := if e.use = 1 then m.courseLen else 64 * m.descCount
  m.dies.contains e.die && decide (e.use ≤ 2) && ! e.odd &&
    (e.use = 0 || (spanPlace r.start (r.stop - r.start) = some .hbm && r.frozen && ! r.gather && decide (need ≤ r.stop - r.start)))

/-- Step 8: the memory section (R509). -/
def Menu.memoryOk (m : Menu) (len : Nat) : Bool :=
  let count := fun n use => (m.memEntries.filter (fun e => e.die = n && e.use = use)).length
  decide (1 ≤ m.memCount) && decide (m.memCount ≤ 256 * m.dies.length) && decide (m.descCount ≤ 1048576) &&
    (m.descCount ≠ 0 || m.descOff = 0) && m.memEntries.all m.memEntryOk &&
    m.dies.all (fun n => count n 1 = 1 && count n 2 = (if m.descCount = 0 then 0 else 1)) &&
    inside m.descOff (64 * m.descCount) (len - 64)

/-- Offsets at which parts of the package begin, for the length of the leave plan (R374). -/
def Menu.partStarts (m : Menu) (len : Nat) : List Nat :=
  [m.courseTableOff, m.scheduleOff, m.resOff, m.section_ 0, m.section_ 1, m.section_ 2, m.section_ 3, len - 64] ++
    m.courses.map Prod.fst ++ (if m.descCount = 0 then [] else [m.descOff])

/-- Step 9: the leave booking plan (R374). -/
def Menu.leaveOk (m : Menu) (len : Nat) : Bool :=
  let n := m.dies.length * m.roundLen * 32
  let nearest := ((m.partStarts len).filter (fun o => decide (m.leaveOff < o))).foldl min len
  nearest - m.leaveOff = n && m.leaveOff < nearest &&
    (List.range (m.dies.length * m.roundLen)).all (fun i =>
      let b := sliceAt m.pkg (m.leaveOff + 32 * i) 32
      let ls := (List.range 15).map (fun k => leAt b (2 * k) 2)
      leAt b 0x1E 2 = 0 && decide (ls.foldl (· + ·) 0 ≤ 420))

/-- Step 10: a queue entry by itself (R219, R220). -/
def Menu.queueOk (m : Menu) (b : Bytes) : Bool :=
  let q := leAt b 2 2
  let w := leAt b 0x0C 2
  let most := leAt b 6 2
  m.dies.contains (byteAt b 0) && byteAt b 1 = 0 && menuQueue q && decide (1 ≤ most) && decide (leAt b 4 2 ≤ most) && leAt b 0x0A 2 ≠ 0 &&
    bits w 1 0 ≠ 3 && bits w 3 2 ≠ 3 && (bits w 1 0 ≠ 0 || (leAt b 0x0A 2 = 1 && bits w 3 2 ≠ 1)) && (64 ≤ q || bits w 1 0 = 0) &&
    decide (bits w 10 4 + 1 ≤ most) && bits w 15 11 = 0 && leAt b 0x0E 2 = 0

/-- No element stands twice in a list. -/
def noTwice : List Nat → Bool
  | [] => true
  | a :: t => ! t.contains a && noTwice t

/-- Step 10: the queue section. -/
def Menu.queuesOk (m : Menu) : Bool :=
  let bs := (List.range m.queueCount).map m.queueBytes
  decide (m.queueCount ≤ 61440) && bs.all m.queueOk && noTwice (m.queues.map (fun q => 1024 * q.1 + q.2)) &&
    m.dies.all (fun n => decide (((bs.filter (fun b => byteAt b 0 = n)).map (fun b => leAt b 4 2)).foldl (· + ·) 0 ≤ 64512))

/-! ### The collective section (R337 to R341, R170) -/

/-- P of R338: the largest shard. -/
def Bind.shard (b : Bind) : Nat :=
  let wire := (if b.wireF32 then 4 else 1) * b.elems
  let d := if b.perDie then 1 else b.diesOf.length
  if b.algo = 2 || (b.algo = 0 && decide (b.switch ≤ wire)) then (b.chunks + d * b.ranks.length - 1) / (d * b.ranks.length) else b.chunks

/-- Regions that R338 requires, as (start, length): those written by the whisk, with the source apart. -/
def Bind.source (b : Bind) : List (Nat × Nat) := if b.kind = 2 then [] else [(b.src, b.size)]
def Bind.optSpans (b : Bind) : List (Nat × Nat) :=
  if b.kind ≠ 0 then []
  else
    let n := b.shard * b.chunkElems * 4
    [(b.optW, n), (b.optM, n)] ++ (if b.opt = 0x31 then [(b.optV, n)] else []) ++ [(b.stage, 8 * b.chunkElems * 4)]
def Bind.written (b : Bind) : List (Nat × Nat) := (b.dst, b.elems * b.outSize) :: b.optSpans

/-- A span lies wholly in one region of the menu's memory section for a die. -/
def Menu.spanNamed (m : Menu) (n : Nat) (sp : Nat × Nat) : Bool :=
  m.memEntries.any (fun e => e.die = n && decide (e.region.start ≤ sp.1) && decide (sp.1 + sp.2 ≤ e.region.stop))

/-- No two spans of a list overlap. -/
def apart : List (Nat × Nat) → Bool
  | [] => true
  | a :: t => t.all (fun b => ! spansOverlap a b) && apart t

/-- One binding keeps R337 to R339. `b` are its bytes. -/
def Menu.bindingOk (m : Menu) (rank : Nat) (b : Bytes) (k : Bind) : Bool :=
  decide (k.bucket ≤ 63) && byteAt b 1 < 2 && k.size % 4096 = 0 && decide ((if k.fire then 4096 else 4194304) ≤ k.size) &&
    decide (k.size ≤ 268435456) && leAt b 0x3C 4 = 0 && k.diesOf.all (fun n => m.dies.contains n) && k.rankBit rank &&
    k.diesOf.all (fun n => (k.source ++ k.written).all (m.spanNamed n)) &&
    k.optSpans.all (fun sp => spanPlace sp.1 sp.2 = some .pantry) &&
    apart k.written && k.source.all (fun a => k.written.all (fun w => ! spansOverlap a w)) && ! (m.slotsOf k.bucket).isEmpty &&
    decide (k.chunks ≤ 8192)

/-- A slot entry keeps its layout and names a bound bucket. -/
def Menu.slotOk (m : Menu) (ks : List Bind) (e : Bytes) : Bool :=
  decide (leAt e 0 4 < m.roundLen) && byteAt e 4 < 4 && leAt e 6 2 = 0 && ks.any (fun k => k.bucket = byteAt e 5)

/-- Weights that the bound plans name, without zero (R341). -/
def bindWeights (ks : List Bind) : List Nat := (ks.map (fun k => leAt k.plan 0x00E 2)).filter (fun w => w ≠ 0)

/-- Step 11: the code of the collective section, or 0. `rank` is the module's own rank. -/
def Menu.collCode (m : Menu) (plans : Tab Bytes) (rank : Nat) : Nat :=
  let bs := (List.range m.bindCount).map m.bindBytes
  let ks := m.binds plans
  let es := (List.range m.slotCount).map m.slotBytes
  let ws := bindWeights ks
  let frozen := fun (k : Bind) => k.diesOf.any (fun n => m.memEntries.any (fun e => e.die = n && e.region.frozen &&
    (k.source ++ (if k.kind = 0 then k.written else [])).any (fun sp => spansOverlap e.region.span sp)))
  firstCode [(bs.any (fun b => (plans.find (leAt b 2 2)).isNone), Code.collPlanUnknown),
    (decide (64 < m.bindCount) || leAt m.pkg (m.section_ 2 + 2) 2 ≠ 0 || decide (4 * m.roundLen < m.slotCount) ||
      ! noTwice (ks.map Bind.bucket) || (bs.zip ks).any (fun e => ! m.bindingOk rank e.1 e.2) || es.any (fun e => ! m.slotOk ks e) ||
      ! noTwice m.slotsNamed || ws.any (fun w => w ≠ ws.headD 0), Code.collBindingInvalid),
    (m.exact && ks.any Bind.arrival, Code.collExactRequired), (ks.any frozen, Code.frozenTarget)]

/-! ### The shared-resource section (R485, R486, R475) -/

/-- A claim keeps its layout and names its die; `odd` is its reserved word. -/
def Menu.claimOk (m : Menu) (k : Claim) (odd : Nat) : Bool :=
  let v := k.value
  let timer := fun (t : Nat) => (m.claimOf k.die 5 t).isSome
  let gp0 := (m.claimOf 0xFF 6 0).map Claim.value
  odd = 0 && (if k.kind = 6 then k.die = 0xFF else m.dies.contains k.die) &&
  match k.kind with
  | 1 =>
    let a := bits v 39 12 * 4096
    let n := (bits v 63 40 + 1) * 4096
    k.index = 0 && bits v 11 0 = 0 && m.memEntries.any (fun e => e.die = k.die && ! e.region.frozen && decide (e.region.start ≤ a) &&
      decide (a + n ≤ e.region.stop) && (spanPlace a n = some .hbm || spanPlace a n = some .larder))
  | 2 => decide (k.index < 32) && bits v 47 0 = 0 && bits v 61 56 = 0 && (decide (bits v 55 48 ≤ 0x11) || (decide (0x20 ≤ bits v 55 48) && decide (bits v 55 48 ≤ 0x23)))
  | 3 => decide (k.index < 2) && decide (1 ≤ v) && decide (v ≤ 65536)
  | 4 =>
    let h : Half := { cfg := v }
    decide (k.index < 2) && bits v 40 0 = 0 && decide (h.source < 4) && h.start ≠ 3 &&
      (h.source ≠ 3 || (m.claimOf k.die 3 1).isSome) && (h.start ≠ 1 || timer h.startT) && (h.stop ≠ 1 || timer h.stopT) &&
      (h.start ≠ 2 || gp0 = some 1) && (! v.testBit 48 || gp0 = some 2)
  | 5 => decide (k.index < 8) && bits v 63 42 = 0
  | 6 => decide (k.index < 2) && decide (1 ≤ v) && decide (v ≤ 3)
  | _ => false

/-- Step 12: the code of the shared-resource section, or 0. -/
def Menu.claimCode (m : Menu) (level : Nat) : Nat :=
  let cs := m.claims
  let odds := (List.range m.claimCount).map (fun i => leAt m.pkg (m.section_ 3 + 4 + 16 * i + 4) 4)
  let ext := cs.any (fun k => k.kind = 2 && decide (0x20 ≤ bits k.value 55 48))
  firstCode [(decide (1024 < m.claimCount) || (cs.zip odds).any (fun e => ! m.claimOk e.1 e.2) ||
      ! noTwice (cs.map (fun k => (k.die * 256 + k.kind) * 65536 + k.index)), Code.srpInvalid),
    (ext && ! level.testBit 3, Code.featureLevelLow)]

end Sys2Proof.Machine
end

