-- ==== Sys2Proof/Machine/Launch.lean ====
section
/-! DEFINITION. MENU_LOAD, MENU_UNLOAD and LAUNCH (R69 to R74, R484, R507 to R509). -/
namespace Sys2Proof.Machine

/-! ### MENU_LOAD and MENU_UNLOAD -/

/-- Step 5: the menu's signature under the menu key of the job context (R67, R451). -/
def State.menuSigned (s : State) (bs : Bytes) : Bool :=
  let n := bs.length
  let key := (s.panel.job.map Job.menuKey).getD []
  decide (64 ≤ n) && Config.sm2Verify key (Sm3.digest (bs.take (n - 64))) (bs.drop (n - 64))

/-- The module's own rank in FAB_SELF. -/
def State.ownRank (s : State) : Nat := (s.panel.fabric.inForce.map RankTable.rank).getD 0

/-- The feature word has a bit that FEATURE_LEVEL lacks (R54). -/
def State.lacksFeature (s : State) (m : Menu) : Bool := m.reqFeatures &&& s.panel.featureLevel ≠ m.reqFeatures

/-- Steps 4 to 12 of R507 on a package. -/
def State.packageCode (s : State) (m : Menu) : Nat :=
  let len := m.pkg.length
  firstCode [(decide (16 ≤ s.menus.length), Code.menuTableFull), (! s.menuSigned m.pkg, Code.menuSignature),
    (! m.headerOk len || (s.menu m.id).isSome, Code.menuInvalid), (! m.coursesOk len, Code.menuInvalid), (! m.scheduleOk len, Code.menuInvalid),
    (! m.sectionsIn len, Code.menuInvalid), (s.lacksFeature m, Code.featureLevelLow), (m.dies.any s.vacant, Code.siteVacant),
    (! m.memoryOk len, Code.menuInvalid), (! m.leaveOk len, Code.leavePlanInvalid), (! m.queuesOk, Code.qplPlanInvalid),
    (m.collCode s.panel.plans s.ownRank ≠ 0, m.collCode s.panel.plans s.ownRank),
    (m.claimCode s.panel.featureLevel ≠ 0, m.claimCode s.panel.featureLevel)]

/-- The hearth writes course words and descriptors to the start of the regions that the memory section names, as whole padded
blocks (R509). -/
def State.copyMenu (s : State) (m : Menu) : State :=
  m.memEntries.foldl (fun s e =>
    if e.use = 0 then s
    else match s.siteOf e.die with
      | none => s
      | some d =>
        let bs := if e.use = 1 then sliceAt m.pkg m.courseLow m.courseLen else sliceAt m.pkg m.descOff (64 * m.descCount)
        s.hearthWrite d e.region.start (padBlocks bs)) s

/-- The hatch of the most recent accepted LAUNCH of a menu that has not finished; one may be accepted before its menu is loaded
(R430). -/
def Panel.launchOf (p : Panel) (id : Nat) : Option Nat :=
  ((p.journal.filter (fun e => e.opcode = 0x0206 && e.state ≠ .finished && e.payload.length = 20 && leAt e.payload 0 8 = id)).getLast?).map
    Entry.hatch

/-- Step 13, and the loading itself. -/
def State.installMenu (s : State) (m : Menu) : Effect :=
  match installRegions s.panel.regions m.regionList with
  | .inr c => s.done c
  | .inl t =>
    let s1 := ((s.modPanel (fun p => { p with regions := t })).writeRegions m.dies).copyMenu m
    ({ s1 with menus := s1.menus ++ [{ m with lastHatch := s.panel.launchOf m.id }] } : State).done 0

def State.menuLoad (s : State) (h : Nat) (pl : Bytes) : Effect :=
  let a := leAt pl 8 8
  let n := leAt pl 0x10 8
  let c := firstCode [(pl.length ≠ 24 || ! allZero (sliceAt pl 1 7), Code.gwPayload), (s.panel.job.isNone, Code.noJobContext),
    (s.panel.fenced, Code.fenced), (s.vacant (byteAt pl 0), Code.siteVacant)]
  if c ≠ 0 then s.done c
  else match s.siteOf (byteAt pl 0) with
    | none => s.done Code.siteVacant
    | some d =>
      if ! (s.die d).spanOk a n then s.done Code.bulkRange
      else match s.hearthRead d a n with
        | (s1, .inr c) => s1.done c
        | (s1, .inl bs) =>
          let m : Menu := { pkg := bs, loadHatch := h }
          let c := s1.packageCode m
          if c ≠ 0 then s1.done c else s1.installMenu m

/-- MENU_LOAD. -/
def execMenuLoad (h : Nat) (s : State) : Host.Outcome State Fault Refusal := .next (s.perform h 0x0204 (fun s e => s.menuLoad h e.payload))

def State.menuUnload (s : State) (pl : Bytes) : Effect :=
  if pl.length ≠ 8 then s.done Code.gwPayload
  else if s.panel.job.isNone then s.done Code.noJobContext
  else match s.menu (leAt pl 0 8) with
    | none => s.done Code.menuInvalid
    | some m => if m.active then s.done Code.menuDieBusy else (s.unload m).done 0

/-- MENU_UNLOAD. -/
def execMenuUnload (h : Nat) (s : State) : Host.Outcome State Fault Refusal := .next (s.perform h 0x0205 (fun s e => s.menuUnload e.payload))

/-! ### Resources of a LAUNCH (R73, R484) -/

/-- Some `k` below `n` has a turn `t + k · len` among the turns `u + j · len'` with `j` below `n'`: at most `fuel` values of
`k` are tried, from `k` on. -/
def turnsMeet (t len n u len' n' : Nat) : Nat → Nat → Bool
  | 0, _ => false
  | fuel + 1, k =>
    let x := t + k * len
    if n ≤ k || u + n' * len' ≤ x then false
    else if u ≤ x && (x - u) % len' = 0 then true
    else turnsMeet t len n u len' n' fuel (k + 1)

/-- A slot entry of one run meets a slot entry of another in some turn. Start turns are placed around turn `now`, so that runs on
the two sides of the wrap of R58 compare. -/
def slotsMeet (now : Nat) (m : Menu) (e : Nat) (q : Menu) (f : Nat) : Bool :=
  let t := (turnsTo now m.s + 2 ^ 47).toNat + e / 4
  let u := (turnsTo now q.s + 2 ^ 47).toNat + f / 4
  e % 4 = f % 4 && turnsMeet t m.roundLen m.n u q.roundLen q.n q.roundLen (if u ≤ t then 0 else (u - t + m.roundLen - 1) / m.roundLen)

/-- A resource that the run claims is held by a LAUNCHED or RUNNING menu, or by the hearth without yielding. -/
def State.resourceBusy (s : State) (m : Menu) : Bool :=
  let others := s.menus.filter Menu.active
  (m.claimOf 0xFF 6 1).isSome || ((m.claimOf 0xFF 6 0).isSome && others.any (fun q => (q.claimOf 0xFF 6 0).isSome)) ||
    others.any (fun q => m.slotsNamed.any (fun e => q.slotsNamed.any (fun f => slotsMeet s.turn m e q f)))

/-! ### What a LAUNCH writes into a die (R79, R99, R112, R199, R221, R303, R341, R389, R474, R481 to R485) -/

/-- A queue of the plan, enabled and empty (R219, R221). LAST_FLUSH stands. -/
def Queue.fromPlan (old : Queue) (b : Bytes) : Queue :=
  let w := leAt b 0x0C 2
  { enable := true, consumer := bits w 1 0, maxItemM1 := bits w 10 4, max := leAt b 6 2, minRes := leAt b 4 2, idleTo := leAt b 8 2
    batch := leAt b 0x0A 2, idleAct := bits w 3 2, lastFlush := old.lastFlush }

/-- Word 3 of every queue clears at LAUNCH (R226). -/
def Queue.clearCounts (q : Queue) : Queue := { q with refused := 0, flushedItems := 0, flushedPartial := 0, idleEvents := 0 }

/-- The menu's queues of a die. -/
def Die.launchQueues (x : Die) (m : Menu) (n : Nat) : Die :=
  let y : Die := { x with pool := { x.pool with queues := x.pool.queues.mapVal (fun i q => (if i < 4 then q.flush else q).clearCounts) } }
  (((List.range m.queueCount).map m.queueBytes).filter (fun b => byteAt b 0 = n)).foldl (fun y b =>
    y.setQueue (leAt b 2 2) ((y.queue (leAt b 2 2)).fromPlan b)) y

/-- The requests of the commands that go on running hold their leave over a LAUNCH, and so does a known-answer test; other waiting
requests go with their commands. -/
def Leave.launched (l : Leave) (runs : LvGrant → Bool) : Leave :=
  { l with
    reqs := l.reqs.filter (fun r => r.key = katLeaveKey)
    grants := l.grants.filter (fun g => g.key = katLeaveKey || runs g), trimmed := 0, waited := false : Leave }.rampMoved

/-- A grant belongs to a command that has started in an array or a vector unit. -/
def Die.holdsLeave (x : Die) (g : LvGrant) : Bool :=
  if g.unit = 0 then false
  else if g.unit ≤ 8 then
    let r := x.arr ((g.unit - 1) / 2)
    if g.unit % 2 = 1 then r.flights.any (fun f => f.cmd.key = g.key) else r.loading.map ArrCmd.key = some g.key
  else if g.unit ≤ 10 then (x.vec (g.unit - 9)).running.map VecCmd.key = some g.key
  else (x.chan (g.unit - 11)).active.any (fun a => descKey a.run a.index = g.key)

/-- A request of a command that an earlier run issued: its answer reaches no thread of the new run. A SEND that a full queue refuses
is repeated no more (R217). -/
def Req.orphan (r : Req) : Req :=
  { r with halted := r.halted || r.full, owner := match r.owner with
    | .thread o => .thread o.orphan
    | .ladle ch key o => .ladle ch key o.orphan }

/-- The instances of the runs before, at a LAUNCH: those that linger go on, apart from the new run. -/
def Die.whiskLaunched (x : Die) : Die :=
  let y := ((x.whisk.insts.map Prod.fst).filter (fun b => decide (b < 64))).foldl Die.setAside x
  let go := fun (v : VecCmd) => match v.bucket with
    | some b => decide (64 ≤ b)
    | none => false
  { y with
    whisk := { y.whisk with
      insts := (y.whisk.insts.filter (fun e => decide (64 ≤ e.1) && e.2.lingers)).map (fun e =>
        (e.1, { e.2 with ended := true, org := e.2.org.orphan }))
      pending := [], joins := [], movedSlots := [], done := 0, sat := 0, resends := 0, aborts := 0
      abortCode := 0, abortPlan := 0, abortInstance := 0, abortPhase := 0 }
    vecs := y.vecs.mapVal (fun _ v => { lastOp := v.lastOp, lastWhisk := v.lastWhisk
                                        submitted := v.submitted.filter go
                                        running := v.running.map (fun k => { k with org := k.org.orphan }) }) }

/-- The units of a die start empty, but for the commands that an earlier run has started: they run to completion. -/
def Die.launchUnits (x : Die) (m : Menu) : Die :=
  let y := x.launchArrays.whiskLaunched
  let q : Seq := { menu := some m.id, start := m.s }
  { y with
    seqs := [(0, q), (1, q)]
    ladle := { y.ladle with chans := y.ladle.chans.mapVal (fun _ c =>
      { curDesc := c.curDesc, nextKey := c.nextKey
        active := c.active.map (fun a => { a with org := a.org.orphan, stopped := true }) }), rereads := 0, faults := 0 }
    leave := y.leave.launched x.holdsLeave
    fab := { y.fab with
      handoff := y.fab.handoff.filter (fun h => match h with
        | .req i => ! y.rem.reqs.any (fun r => r.id = i && r.full)
        | .pkt .. => true)
      stale := 0, foreign := 0, evictedSrc := 0, unroutable := 0 }
    rem := { y.rem with reqs := y.rem.reqs.map Req.orphan, retx := 0, duplicates := 0, busySent := 0, aged := 0 } }

/-- LDL_DESC_BASE names the DESCRIPTORS region (R199). R199 says nothing of a menu without one, whose DESC_COUNT is 0: BASE and
COUNT are then 0 (DESIGN CHOICE, log 192). -/
def Die.launchDescs (x : Die) (m : Menu) (n : Nat) : Die :=
  match m.memEntries.find? (fun e => e.die = n && e.use = 2) with
  | none => { x with ladle := { x.ladle with descBase := 0, descCount := 0 } }
  | some e => { x with ladle := { x.ladle with descBase := e.region.base, descCount := m.descCount } }

/-- The digest ring of the die, when the menu claims one; SIV_STATUS clears (R472, R473). -/
def Die.launchSieve (x : Die) (m : Menu) (n : Nat) : Die :=
  { x with sieve := match m.claimOf n 1 0 with
      | some k => { ringBase := bits k.value 39 12 * 4096, ringBlocks := bits k.value 63 40 + 1 }
      | none => {} }

/-- The counters that the menu configures; all others clear (R474). -/
def Menu.counters (m : Menu) (n : Nat) : Tab Cnt :=
  (m.claims.filter (fun k => k.die = n && k.kind = 2)).foldl (fun t k =>
    t.put k.index { enable := k.value.testBit 63, edge := k.value.testBit 62, event := bits k.value 55 48 }) []

/-- The turn-slot timers that the menu claims (R482). -/
def Menu.slotTimers (m : Menu) (n : Nat) : Tab SlotTimer :=
  (m.claims.filter (fun k => k.die = n && k.kind = 5)).foldl (fun t k =>
    t.put k.index { turn := (m.s + bits k.value 31 0) % 2 ^ 48, ref := bits k.value 41 32, armed := true }) []

/-- Counters, windows, timers and trace halves of the die: the menu's claims, and fault capture for an unclaimed half. -/
def Die.launchObserve (x : Die) (m : Menu) (n : Nat) : Die :=
  let o := x.obs
  let half := fun (h : Nat) => match m.claimOf n 4 h with
    | some k => ({ cfg := k.value } : Half)
    | none => captureHalf h
  { x with obs := { o with
      cnts := m.counters n, held := true
      w0 := ((m.claimOf n 3 0).map Claim.value).getD o.w0
      w1 := ((m.claimOf n 3 1).map Claim.value).getD o.w1
      timers := m.slotTimers n, half0 := half 0, half1 := half 1 } }

/-- FAB_ARB of the die while the menu runs (R341). -/
def Die.launchArb (x : Die) (ks : List Bind) (n : Nat) : Die :=
  match ks.find? (fun k => leAt k.plan 0x00E 2 ≠ 0 && k.diesOf.contains n) with
  | some k => { x with fab := x.fab.putArb (leAt k.plan 0x00E 2) }
  | none => x

/-- Everything that a LAUNCH writes into one die. -/
def Die.launch (x : Die) (m : Menu) (ks : List Bind) (n : Nat) : Die :=
  (((((x.launchQueues m n).launchUnits m).launchDescs m n).launchSieve m n).launchObserve m n).launchArb ks n

/-! ### LAUNCH (R421, R424, R508) -/

/-- The code of R508 for a LAUNCH. `m` is the named menu with S and N in place. -/
def State.launchCode (s : State) (pl : Bytes) : Nat :=
  let c := firstCode [(pl.length ≠ 20 || leAt pl 0x0E 2 ≠ 0 || leAt pl 0x10 4 = 0, Code.gwPayload), (s.panel.job.isNone, Code.noJobContext),
    (s.panel.fenced, Code.fenced)]
  if c ≠ 0 then c
  else match s.menu (leAt pl 0 8) with
    | none => Code.menuInvalid
    | some m =>
      firstCode [(m.active, Code.menuDieBusy), (s.lacksFeature m, Code.featureLevelLow), (m.dies.any s.vacant, Code.siteVacant),
        (s.menus.any (fun q => q.active && q.dies.any (fun n => m.dies.contains n)), Code.menuDieBusy),
        (s.resourceBusy { m with s := leAt pl 8 6, n := leAt pl 0x10 4 }, Code.resourceBusy), (s.tooLate (leAt pl 8 6), Code.launchTooLate)]

/-- A LAUNCH that passes its checks: the menu is LAUNCHED, its dies are set up, and RESULT leaves. -/
def State.launchGo (s : State) (h : Nat) (e : Entry) : State :=
  let pl := e.payload
  let id := leAt pl 0 8
  let s1 := s.modMenu id (fun m => { m with
    launchHatch := some h, launchSeq := e.seq, state := .launched, s := leAt pl 8 6, n := leAt pl 0x10 4
    err := none, finished := [] })
  match s1.menu id with
  | none => s
  | some m =>
    let ks := m.binds s.panel.plans
    let s2 := m.dies.foldl (fun s n => match s.siteOf n with
      | some d => (s.modDie d (fun x => x.launch m ks n)).setManaged d false
      | none => s) s1
    (s2.modEntry h e.seq (fun e => { e with state := .running, code := 0 })).reply h e.seq e.opcode .result 0 false []

/-- LAUNCH: a failure is a RESULT and then a FINISH with its code. -/
def execLaunch (h : Nat) (s : State) : Host.Outcome State Fault Refusal :=
  .next (match s.panel.executing h 0x0206 with
    | none => s
    | some e =>
      if ! s.works then s
      else
        let c := s.launchCode e.payload
        if c = 0 then s.launchGo h e
        else (s.reply h e.seq e.opcode .result c false []).finishEntry h e.seq c ({ e with answer := [] } : Entry).interruptedAnswer)

end Sys2Proof.Machine
end

