-- ==== Sys2Proof/Machine/Hatches.lean ====
section
/-! DEFINITION. Gwyntu on the wire: authentication, acceptance of commands (R404 to R415), the lifeline (R426 to R428), pages and
notices that arrive (R419, R430), and the sideband (R432). -/
namespace Sys2Proof

/-- The header of a datagram (R406). -/
def GwHeader.parse (b : Bytes) : GwHeader :=
  { magic := leAt b 0x00 4, version := byteAt b 0x04, typ := byteAt b 0x05, hatch := byteAt b 0x06 % 16
    read := bitAt (byteAt b 0x07) 0, single := bitAt (byteAt b 0x07) 1, seq := leAt b 0x08 6, opcode := leAt b 0x0E 2
    arg := leAt b 0x10 6, len := leAt b 0x16 2, code := leAt b 0x18 2, stage := byteAt b 0x1A, serial := leAt b 0x20 8, tag := leAt b 0x30 16
    odd := bits (byteAt b 0x06) 7 4 ≠ 0 || bits (byteAt b 0x07) 7 2 ≠ 0 || ! allZero (sliceAt b 0x1B 5) || ! allZero (sliceAt b 0x28 8) }

/-- The header keeps R406 for its type, and LEN agrees with the datagram's payload of `n` bytes (R407). -/
def GwHeader.ok (g : GwHeader) (n : Nat) : Bool :=
  ! g.odd && g.len = n && decide (n ≤ 4096) && ! g.single && g.code = 0 && g.stage = 0 &&
  match g.typ with
  | 1 => true
  | 4 => ! g.read && g.seq = 0 && g.opcode = 0
  | 5 => ! g.read && g.opcode = 0
  | 6 => ! g.read && g.opcode = 0
  | _ => false

namespace Machine

/-! ### Arrival (R406, R407) -/

/-- TAG of a datagram under a key: the first 16 bytes of HMAC-SM3 over the header with TAG zero and the payload. -/
def tagOf (key : Nat) (dg : Bytes) : Bytes := (Sm3.hmac (leBytes 32 key) (dg.take 48 ++ List.replicate 16 0 ++ dg.drop 64)).take 16

/-- A datagram that R407 does not drop. -/
def Panel.authentic (p : Panel) (dg : Bytes) : Bool :=
  let g := GwHeader.parse dg
  decide (64 ≤ dg.length) && g.magic = 0x47574E59 && g.version = 1 && g.serial = p.serial && g.typ ≠ 2 && g.typ ≠ 3 &&
  match (p.hatch g.hatch).key with
  | none => false
  | some k => tagOf k dg = sliceAt dg 48 16

/-- A REJECT leaves and is counted (R431). -/
def State.reject (s : State) (g : GwHeader) (code : Nat) : State :=
  (s.modPanel (fun p => { p with rejects := satAdd 16 p.rejects 1 })).reply g.hatch g.seq g.opcode .reject code false []

/-- A datagram arrives for the rows of `types`: dropped, rejected for its header, or handled with its payload. It enters the inbound
queue of its hatch, which the firmware empties at once but for commands before their turn; one that the queue does not admit is
dropped (R227, log 205). -/
def State.arrive (s : State) (dg : Bytes) (types : Nat → Bool) (f : State → GwHeader → Bytes → State) : State :=
  let g := GwHeader.parse dg
  if ! s.listens || ! types g.typ then s
  else if ! s.panel.authentic dg then s.modPanel (fun p => { p with authDrops := satAdd 16 p.authDrops 1 })
  else if ! s.panel.hearthAdmits g.hatch ((dg.length + 63) / 64) then s
  else if ! g.ok (dg.length - 64) then s.reject g Code.gwHeader
  else f s g (dg.drop 64)

/-! ### Opcodes and authority (R408, R412, R422) -/

inductive OpClass where
  | read | oper | job | life
  deriving DecidableEq, Repr

def opClass (op : Nat) : Option OpClass :=
  if 0x0001 ≤ op ∧ op ≤ 0x0006 then some .read
  else if 0x0100 ≤ op ∧ op ≤ 0x010D then some .oper
  else if 0x0200 ≤ op ∧ op ≤ 0x0209 then some .job
  else if 0x0F00 ≤ op ∧ op ≤ 0x0F07 then some .life
  else none

/-- The hatch's authority includes the opcode; in ROM mode only hatch 0 and the recovery load on hatch 15 are served (R447,
R505). -/
def State.mayRun (s : State) (h op : Nat) (c : OpClass) : Bool :=
  (match c with
    | .read => (op ≠ 0x0003 && op ≠ 0x0006) || h = 15
    | .oper => h = 15
    | .job => isJobHatch h
    | .life => h = 0) &&
  (! s.panel.romMode || h = 0 || (h = 15 && (op = 0x010B || op = 0x010C)))

/-! ### Records in the order of R426 -/

/-- What a recorded command does: its code, its FINISH payload, whether the FINISH is sent before the action, and the action. -/
structure Recorded where
  code : Nat := 0
  answer : Bytes := []
  early : Bool := false
  act : State → State := id

def Recorded.bad : Recorded := { code := Code.gwPayload }

def State.setRecord (s : State) (h : Nat) (f : LifeRec → LifeRec) : State :=
  s.modPanel (fun p => p.modHatch h (fun x => { x with record := x.record.map f }))

/-- Finish the recorded command of a hatch: its record takes the code, the FINISH leaves, the action is carried out, and the
record is marked done. A panel reset fulfils PANEL_RESET, whose record it meets not marked done. -/
def State.finishRecord (s : State) (h seq op : Nat) (r : Recorded) : State :=
  let s1 := s.setRecord h (fun x => { x with code := r.code, answer := r.answer })
  let send := fun (s : State) => s.reply h seq op .finish r.code false r.answer
  let mark := fun (s : State) => (s.setRecord h (fun x => { x with done := true })).modPanel (fun p =>
    p.modHatch h (fun x => x.noteFinish seq r.code x.finIndex))
  if r.early then
    if op = 0x0F06 then r.act (send s1) else if op = 0x010C then r.act (mark (send s1)) else mark (r.act (send s1))
  else mark (send (r.act s1))

/-- The next SEQ of a hatch is executed: the record and the new NEXT_SEQ are written first. -/
def State.runRecord (s : State) (h op : Nat) (pl : Bytes) (r : State → Recorded) : State :=
  let seq := (s.panel.hatch h).nextSeq
  let s1 := s.modPanel (fun p => p.modHatch h (fun x => { x with
    nextSeq := (seq + 1) % 2 ^ 48, record := some { seq := seq, opcode := op, done := false, request := pl } }))
  s1.finishRecord h seq op (r s1)

/-- SEQ handling of R426. -/
def State.inOrder (s : State) (g : GwHeader) (pl : Bytes) (r : State → Recorded) : State :=
  let x := s.panel.hatch g.hatch
  let d := signed 48 ((g.seq + 2 ^ 48 - x.nextSeq) % 2 ^ 48)
  if d = 0 then s.runRecord g.hatch g.opcode pl r
  else if 0 < d then s
  else
    let last := x.record.filter (fun k => d = -1 && k.seq = g.seq)
    match last with
    | some k => s.reply g.hatch k.seq k.opcode .finish k.code false k.answer
    | none => s.reject g Code.gwSeqStale

/-! ### Lifeline commands (R427, R428) -/

/-- The LIFELINE_STATUS reply; a site whose die does not answer reads 0 in GOOD and 7 in THM. -/
def State.lifeStatus (s : State) : Bytes :=
  let p := s.panel
  let mute := fun (d : Nat) => p.bring.unreadable.contains d || ! s.reaches d
  let thm := fun (d : Nat) => if mute d then 7 else (s.die d).thermal.state.code
  leBytes 8 p.hrtState ++ leBytes 8 p.power ++ leBytes 2 (unsigned 16 p.inlet) ++ leBytes 2 (unsigned 16 p.outlet) ++ leBytes 2 p.flow ++
    (List.range 52).flatMap (fun d => leBytes 4 (if mute d then 0 else (s.die d).power.good % 2 ^ 30)) ++
    (List.range 26).flatMap (fun k => leBytes 1 (thm (2 * k) + 16 * thm (2 * k + 1)))

/-- Entries of the journal for a hatch, from SEQ `first` on over `n` numbers. -/
def Panel.journalBytes (p : Panel) (h first n : Nat) : Bytes :=
  (List.range n).flatMap (fun i => ((p.entry h ((first + i) % 2 ^ 48)).map Entry.image).getD [])

/-- The record in place `q` of the event log's ring; zeros where none has been written. -/
def Panel.logSlot (p : Panel) (q : Nat) : Bytes :=
  let base := p.logged - p.log.length
  ((p.log[(q + 16384 - base % 16384) % 16384]?).map Notice.image).getD (List.replicate 64 0)

/-- 4,096 bytes of the log from byte offset `o` on, modulo 1 MiB. -/
def Panel.logBytes (p : Panel) (o : Nat) : Bytes :=
  sliceAt ((List.range 65).flatMap (fun i => p.logSlot ((o / 64 + i) % 16384))) (o % 64) 4096

/-- LASER_OFF: every output off, every gate closed, HOST included (R255). -/
def State.lasersOff (s : State) : State :=
  let s1 := s.modPanel (fun p => { p with laserOff := true })
  let s2 := (List.range 12).foldl (fun s b => s.modBay b (fun y => if y.seated then { y with state := 5 } else y)) s1
  let s3 := (List.range 8).foldl (fun s n => s.portDown n (s.port n).state (s.port n).held) s2
  s3.modPort 8 (fun p => { p with up := false })

/-- DIE_POWER_OFF: an ACTIVE die above ALWAYS_ON goes down to it; its menus stop. -/
def State.diePowerDown (s : State) (d : Nat) : State :=
  if ! s.activeSite d || (s.die d).power.on = alwaysOn then s
  else
    let n := (s.site d).standsFor
    let s1 := s.abortMenus (fun m => m.dies.contains n) (panelErr Code.diePoweredOff n)
    ((s1.powerOff d).modPanel (fun p => { p with out := insertNat d p.out, restarts := p.restarts.del d })).katLost d

/-- POWER_DOWN. -/
def State.panelDown (s : State) : State :=
  let s1 := s.abortMenus (fun _ => true) (panelErr Code.diePoweredOff 0xFF)
  let s2 := (List.range 52).foldl (fun s d => (s.powerOff d).katLost d) s1
  let s3 := s2.modPanel (fun p => { p with out := List.range 52, restarts := [], powerDown := true })
  (List.range 8).foldl (fun s n => s.portDown n 0 (s.port n).held) s3

/-- A lifeline command by opcode, with its payload. -/
def State.lifeline (op : Nat) (pl : Bytes) (s : State) : Recorded :=
  let bare := pl.isEmpty
  match op with
  | 0x0F00 => if bare then { answer := s.lifeStatus } else .bad
  | 0x0F01 =>
    if pl.length ≠ 8 || bits (byteAt pl 0) 7 4 ≠ 0 || byteAt pl 1 < 1 || 15 < byteAt pl 1 then .bad
    else { answer := s.panel.journalBytes (byteAt pl 0) (leAt pl 2 6) (byteAt pl 1) }
  | 0x0F02 => if pl.length ≠ 8 || ! allZero (sliceAt pl 4 4) then .bad else { answer := s.panel.logBytes (leAt pl 0 4 % 2 ^ 20) }
  | 0x0F03 => if bare then { early := true, act := State.lasersOff } else .bad
  | 0x0F04 =>
    if pl.length ≠ 8 || 7 < byteAt pl 0 || ! allZero (sliceAt pl 1 7) then .bad
    else { act := fun s => s.portDown (byteAt pl 0) 0 true }
  | 0x0F05 =>
    if pl.length ≠ 8 || 51 < byteAt pl 0 || ! allZero (sliceAt pl 1 7) then .bad
    else { act := fun s => s.diePowerDown (byteAt pl 0) }
  | 0x0F06 => if bare then { early := true, act := State.panelWarm } else .bad
  | _ => if bare then { act := State.panelDown } else .bad

/-- A lifeline command that has arrived in order on hatch 0. -/
def State.lifelineNow (s : State) (op : Nat) (pl : Bytes) : State :=
  if s.listens && (s.panel.hatch 0).key.isSome then s.runRecord 0 op pl (State.lifeline op pl) else s

/-- LIFELINE_STATUS. -/
def execLifelineStatus (pl : Bytes) (s : State) : Host.Outcome State Fault Refusal := .next (s.lifelineNow 0x0F00 pl)
/-- JOURNAL_READ. -/
def execJournalRead (pl : Bytes) (s : State) : Host.Outcome State Fault Refusal := .next (s.lifelineNow 0x0F01 pl)
/-- LOG_DUMP. -/
def execLogDump (pl : Bytes) (s : State) : Host.Outcome State Fault Refusal := .next (s.lifelineNow 0x0F02 pl)
/-- LASER_OFF. -/
def execLaserOff (pl : Bytes) (s : State) : Host.Outcome State Fault Refusal := .next (s.lifelineNow 0x0F03 pl)
/-- PORT_OFF. -/
def execPortOff (pl : Bytes) (s : State) : Host.Outcome State Fault Refusal := .next (s.lifelineNow 0x0F04 pl)
/-- DIE_POWER_OFF. -/
def execDiePowerOff (pl : Bytes) (s : State) : Host.Outcome State Fault Refusal := .next (s.lifelineNow 0x0F05 pl)
/-- PANEL_RESET. -/
def execPanelReset (pl : Bytes) (s : State) : Host.Outcome State Fault Refusal := .next (s.lifelineNow 0x0F06 pl)
/-- POWER_DOWN. -/
def execPowerDown (pl : Bytes) (s : State) : Host.Outcome State Fault Refusal := .next (s.lifelineNow 0x0F07 pl)

/-- The recovery load of ROM mode (R505). -/
def State.recovery (op : Nat) (pl : Bytes) (s : State) : Recorded :=
  if op = 0x010B then
    let r := s.firmwarePut pl
    { code := (r.2.map Prod.fst).getD 0, act := fun t => (t.firmwarePut pl).1 }
  else
    let r := s.activateOf pl
    if r.1 = 0 then { early := true, act := fun t => (t.activateOf pl).2.panelWarm } else { code := r.1 }

/-! ### Acceptance (R410, R414) -/

/-- FINISHED entries that ACKED_SEQ covers are retired (R414). -/
def Panel.retire (p : Panel) (h acked : Nat) : Panel :=
  let a := max acked (p.hatch h).ackedSeq
  let q := p.modHatch h (fun x => { x with ackedSeq := a })
  { q with journal := q.journal.filter (fun e => ! (e.hatch = h && e.state = .finished && decide (e.seq ≤ a))) }

/-- The reply that the state of an entry calls for (R410). -/
def State.replyFor (s : State) (e : Entry) : State :=
  match e.state with
  | .running => s.reply e.hatch e.seq e.opcode .result e.code false []
  | .finished => s.reply e.hatch e.seq e.opcode .finish e.code false e.answer
  | _ => s.reply e.hatch e.seq e.opcode .accept 0 false []

/-- A new entry of the journal: ACCEPTED, with the panel-wide index and the turn (R413). -/
def State.journalPut (s : State) (g : GwHeader) (pl : Bytes) : State :=
  let f := s.fresh
  let e : Entry := { hatch := g.hatch, seq := g.seq, opcode := g.opcode, payload := pl, digest := Sm3.digest pl, turn := s.turn
                     page := if 128 < pl.length then Config.freePage f.1 % 8192 else 0xFFFF, index := s.panel.acceptIndex }
  f.2.modPanel (fun p =>
    let q : Panel := { p with
      journal := p.journal.filter (fun o => ! (o.hatch = g.hatch && o.seq = g.seq)) ++ [e], acceptIndex := (p.acceptIndex + 1) % 2 ^ 64 }
    q.modHatch g.hatch (fun x => { x with nextSeq := (x.nextSeq + 1) % 2 ^ 48 }))

/-- An accepted LAUNCH takes the notices of its menu to its hatch (R430). -/
def State.noteLaunch (s : State) (g : GwHeader) (pl : Bytes) : State :=
  if g.opcode = 0x0206 && pl.length = 20 then s.modMenu (leAt pl 0 8) (fun m => { m with lastHatch := some g.hatch }) else s

/-- A command of a SOLE hearth without a journal entry (R410, R421): its effect. -/
def State.singleEffect (s : State) (op : Nat) (pl : Bytes) : Option Effect :=
  if op = 0x0102 then some (s.teardown pl) else if op = 0x0101 then some (s.jobClose pl) else if op = 0x0103 then some (s.evict pl) else none

def State.isSole (s : State) : Bool := (s.panel.server.map (fun k => (s.panel.hearth k).role)) = some .sole

/-- R410 for one command; a held command whose turn has come follows, at most `fuel` of them. A command that the inbound queue
does not admit is not held, and its sender retransmits it (R227, R411). -/
def State.sequence : Nat → State → Bytes → State
  | 0, s, _ => s
  | fuel + 1, s, dg =>
    let g := GwHeader.parse dg
    let pl := dg.drop 64
    let h := g.hatch
    match (if s.isSole && h = 15 then s.singleEffect g.opcode pl else none) with
    | some r =>
      let c := r.2.getD (0, [])
      r.1.reply h g.seq g.opcode .finish c.1 true c.2
    | none =>
      let next := (s.panel.hatch h).nextSeq
      let d := signed 48 ((g.seq + 2 ^ 48 - next) % 2 ^ 48)
      if d < 0 then
        match s.panel.entry h g.seq with
        | none => s.reject g Code.gwSeqStale
        | some e =>
          if Sm3.digest pl ≠ e.digest || g.opcode ≠ e.opcode then s.reject g Code.gwSeqConflict
          else (s.modPanel (fun p => { p with duplicates := satAdd 16 p.duplicates 1 })).replyFor e
      else if 64 ≤ d then s.reject g Code.gwSeqRange
      else if 0 < d then
        if (s.panel.hatch h).held.any (fun k => k.1 = g.seq) || ! s.panel.hearthAdmits h ((dg.length + 63) / 64) then s
        else s.modPanel (fun p => (p.linkCells h g.seq ((dg.length + 63) / 64)).modHatch h (fun x => { x with held := x.held ++ [(g.seq, dg)] }))
      else if s.isSole then s.reject g Code.hearthDegraded
      else if 65536 ≤ s.panel.journal.length || (128 < pl.length && 8192 ≤ s.panel.pagesUsed) then
        (s.modPanel (fun p => { p with busies := satAdd 16 p.busies 1 })).reply h g.seq g.opcode .busy Code.journalFull false []
      else
        let s1 := ((s.journalPut g pl).noteLaunch g pl).reply h g.seq g.opcode .accept 0 false []
        let x := s1.panel.hatch h
        match x.held.find? (fun k => k.1 = x.nextSeq) with
        | none => s1
        | some k =>
          let before := ((x.held.takeWhile (fun q => q.1 ≠ k.1)).map (fun q => (q.2.length + 63) / 64)).foldl (· + ·) 0
          State.sequence fuel (s1.modPanel (fun p => (p.freeCells h before ((k.2.length + 63) / 64)).modHatch h (fun x =>
            { x with held := x.held.filter (fun q => q.1 ≠ k.1) }))) k.2

/-- A command that has kept R406: its class, its hatch's authority and its READ bit; then its row (R408, R410, R412, R426). -/
def State.command (s : State) (g : GwHeader) (pl dg : Bytes) : State :=
  let h := g.hatch
  let s1 := s.modPanel (fun p => p.retire h g.arg)
  match opClass g.opcode with
  | none => s1.reject g Code.gwOpcode
  | some c =>
    if ! s1.mayRun h g.opcode c then s1.reject g Code.gwHatch
    else if g.read ≠ decide (c = .read) || (g.read && g.seq ≠ 2 ^ 48 - 1) then s1.reject g Code.gwHeader
    else if c = .read then s1.doRead h g.opcode pl
    else if c = .life then s1.inOrder g pl (State.lifeline g.opcode pl)
    else if s1.panel.powerDown then s1
    else if s1.panel.romMode then s1.inOrder g pl (State.recovery g.opcode pl)
    else State.sequence ((s1.panel.hatch h).held.length + 1) s1 dg

/-- COMMAND_ACCEPT: a datagram of any type that no other row receives. -/
def execCommandAccept (dg : Bytes) (s : State) : Host.Outcome State Fault Refusal :=
  .next (s.arrive dg (fun t => t ≠ 4 && t ≠ 5 && t ≠ 6) (fun s g pl => s.command g pl dg))

/-- The next entry of a hatch that may start (R415). -/
def Panel.nextEntry (p : Panel) (h : Nat) : Option Entry :=
  (p.journal.filter (fun e => e.hatch = h && e.state = .accepted)).foldl (fun m e => match m with
    | none => some e
    | some f => if e.seq < f.seq then some e else some f) none

/-- COMMAND_EXECUTE_START: no command of the hatch is EXECUTING, and its next one starts. -/
def execCommandExecuteStart (h : Nat) (s : State) : Host.Outcome State Fault Refusal :=
  .next (match s.panel.nextEntry h with
    | none => s
    | some e =>
      if ! s.works || s.panel.journal.any (fun e => e.hatch = h && e.state = .executing) then s
      else s.modEntry h e.seq (fun e => { e with state := .executing }))

/-- FINISH_REPEAT: the FINISH replies of entries not yet retired (R414). -/
def execFinishRepeat (s : State) : Host.Outcome State Fault Refusal :=
  .next (if s.listens && ! s.panel.romMode then
      (s.panel.journal.filter (fun e => e.state = .finished && (s.panel.hatch e.hatch).key.isSome)).foldl (fun s e => s.replyFor e) s
    else s)

/-! ### Pages that arrive (R419, R420) -/

/-- A BULK_ACK is due after 1,024 pages. -/
def State.ackDue (s : State) (h seq : Nat) : State :=
  match s.panel.bulk h seq with
  | none => s
  | some b => if 1024 ≤ b.recent then (s.modBulk h seq (fun b => { b with recent := 0 })).sendBulkAck b else s

/-- A page of BULK_PUT or RANK_TABLE_PUT. -/
def State.pageIn (s : State) (b : Bulk) (k : Nat) (bs : Bytes) : State :=
  let got := fun (s : State) => s.modBulk b.hatch b.seq (fun b => { b with held := insertNat k b.held, recent := b.recent + 1 })
  if b.kind = .ranks then
    let s1 := (got s).modBulk b.hatch b.seq (fun b => { b with data := b.data.put k bs })
    match s1.panel.bulk b.hatch b.seq with
    | none => s1
    | some c => if c.held.length = 8 then s1.ranksHeld c else s1
  else
    match s.pagePlace b k with
    | none => s.endBulk b.hatch b.seq Code.bulkRange
    | some (d, a) =>
      if (s.die d).mem.frozen a 4096 then s.endBulk b.hatch b.seq Code.bulkRange
      else
        let s1 := got (s.hearthWrite d a bs)
        match s1.panel.bulk b.hatch b.seq with
        | none => s1
        | some c => if c.held.length = c.pages then s1.endBulk b.hatch b.seq 0 else s1.ackDue b.hatch b.seq

/-- BULK_DATA: a page of a transfer that runs; any other page is discarded. -/
def execBulkData (dg : Bytes) (s : State) : Host.Outcome State Fault Refusal :=
  .next (s.arrive dg (fun t => t = 5) (fun s g pl =>
    match s.panel.bulk g.hatch g.seq with
    | none => s
    | some b => if ! b.running || b.kind = .get || b.pages ≤ g.arg || pl.length ≠ 4096 || s.panel.powerDown then s else s.pageIn b g.arg pl))

/-- Pages of a bitmap of 512 bytes that begins at page `first`. -/
def bitmapPages (first : Nat) (pl : Bytes) : List Nat :=
  ((List.range 4096).filter (fun j => (byteAt pl (j / 8)).testBit (j % 8))).map (· + first)

/-- Pages are sent again, in order, until one fails. -/
def State.resend (b : Bulk) : List Nat → State → State × Nat
  | [], s => (s, 0)
  | k :: ks, s =>
    match s.sendPage b k with
    | (s1, 0) => State.resend b ks s1
    | r => r

/-- A BULK_ACK of the host for a BULK_GET: pages held; the missing ones of its bitmap go again, and the window moves on. -/
def State.bulkAcked (s : State) (b : Bulk) (first : Nat) (pl : Bytes) : State :=
  let now := (bitmapPages first pl).filter (fun k => decide (k < b.next))
  let c : Bulk := { b with held := now.foldl (fun l k => insertNat k l) b.held }
  let s1 := s.modBulk b.hatch b.seq (fun _ => c)
  if c.held.length = c.pages then s1.endBulk b.hatch b.seq 0
  else
    let again := ((List.range 4096).map (· + first)).filter (fun k => decide (k < c.next) && ! c.held.contains k)
    match State.resend c again s1 with
    | (s2, 0) => match State.sendPages b.hatch b.seq 4096 s2 with
      | (s3, 0) => s3
      | (s3, code) => s3.endBulk b.hatch b.seq code
    | (s2, code) => s2.endBulk b.hatch b.seq code

/-- BULK_ACK. -/
def execBulkAck (dg : Bytes) (s : State) : Host.Outcome State Fault Refusal :=
  .next (s.arrive dg (fun t => t = 6) (fun s g pl =>
    match s.panel.bulk g.hatch g.seq with
    | none => s
    | some b => if ! b.running || b.kind ≠ .get || pl.length ≠ 512 || s.panel.powerDown then s else s.bulkAcked b g.arg pl))

/-- BULK_ACK_TIMER: pages of a transfer into the module are missing. -/
def execBulkAckTimer (h : Nat) (s : State) : Host.Outcome State Fault Refusal :=
  .next (if ! s.works then s
    else (s.panel.bulks.filter (fun b => b.hatch = h && b.running && b.kind ≠ .get)).foldl (fun s b => s.sendBulkAck b) s)

/-- BULK_ABANDONED: a transfer that runs has received no message for 1 s. -/
def execBulkAbandoned (h : Nat) (s : State) : Host.Outcome State Fault Refusal :=
  .next (match s.panel.bulks.find? (fun b => b.hatch = h && b.running) with
    | none => s
    | some b => if ! s.works then s else s.endBulk b.hatch b.seq Code.bulkAbandoned)

/-! ### Notices (R430) -/

/-- A hatch's notices up to `last` are acknowledged; when space returns after notices were dropped, NOTICE_OVERFLOW is queued. -/
def State.noticesAcked (s : State) (h last : Nat) : State :=
  let gone := ((s.panel.hatch h).notices.filter (fun n => ! decide (last < n.seq))).length
  let s1 := s.modPanel (fun p => (p.freeCells (16 + h) 0 gone).modHatch h (fun x =>
    { x with notices := x.notices.filter (fun n => decide (last < n.seq)) }))
  let x := s1.panel.hatch h
  if x.dropped = 0 || ! s1.panel.hearthAdmits (16 + h) 1 then s1
  else
    let n : Notice := { code := Code.noticeOverflow, turn := s.turn, subject := noSubject, arg1 := x.dropped, time := s.panel.ptp.getD 0 }
    (s1.modPanel (fun p => ((p.modHatch h (fun x => { x with dropped := 0 })).queueNotice h n).addLog n)).gatherNotices h 64

/-- NOTICE_ACK. -/
def execNoticeAck (dg : Bytes) (s : State) : Host.Outcome State Fault Refusal :=
  .next (s.arrive dg (fun t => t = 4) (fun s g _ => s.noticesAcked g.hatch g.arg))

/-- Records in datagrams of at most 64. -/
def chunked : Nat → List Notice → List (List Notice)
  | 0, _ => []
  | k + 1, l => if l.isEmpty then [] else l.take 64 :: chunked k (l.drop 64)

/-- The notices of every hatch that are not acknowledged leave. -/
def State.resendNotices (s : State) : State :=
  (List.range 16).foldl (fun s h =>
    let x := s.panel.hatch h
    if x.key.isNone then s
    else { s with
      panel := s.panel.modHatch h (fun x => { x with unsent := 0 })
      outbox := s.outbox ++ (chunked (x.notices.length / 64 + 1) x.notices).map (fun l => .notices h ((l.map Notice.seq).headD 0) l) }) s

/-- NOTICE_RESEND: while Gwyntu is served. -/
def execNoticeResend (s : State) : Host.Outcome State Fault Refusal := .next (if ! s.listens then s else s.resendNotices)

/-! ### The sideband (R432) -/

/-- The word at a sideband offset as hearth `k` answers it; none while it is in reset: from the end of step 2 (R442, R453) until it
goes DOWN, which a hearth without a role does when step 3 ends. -/
def State.sideband (s : State) (k off : Nat) : Option Nat :=
  let p := s.panel
  let panel := if p.powerDown then 2 else if p.laserOff then 3 else if p.bring.step = 13 then 1 else 0
  let mine := fun h => p.journal.filter (fun e => e.hatch = h)
  if ((p.hearth k).role = .down && p.bring.step ≠ 3) || (p.hearth k).fail || ! (p.hearth k).tested then none
  else match off with
    | 0x00 => some (packed [(0x30, 32, 32), (p.clMax, 8, 0)])
    | 0x08 => some p.serial
    | 0x10 => some (packed [(p.busbarMv / 10, 16, 48), (p.busbarW, 16, 32), (unsigned 8 (p.inlet / 16), 8, 24), (panel, 2, 6)])
    | 0x18 => some p.hrtState
    | _ =>
      if off < 0x40 ∨ 0x140 ≤ off ∨ off % 8 ≠ 0 then some 0
      else
        let h := (off - 0x40) / 16
        if off % 16 = 0 then some (packed [(((mine h).filter (fun e => e.state ≠ .finished)).length, 16, 48), ((p.hatch h).nextSeq, 48, 0)])
        else some (packed [((p.hatch h).finCode, 16, 48), ((p.hatch h).finSeq, 48, 0)])

end Machine
end Sys2Proof
end

