-- ==== Sys2Proof/Machine/Replay.lean ====
section
/-! DEFINITION. Replay of the journal (R415 to R417), the end of bring-up (step 12 of R442), and takeover (R402, R426). -/
namespace Sys2Proof.Machine

/-! ### Replay of the journal -/

/-- An EXECUTING command is executed again, as its own row would. -/
def State.redo (s : State) (h op : Nat) : State :=
  match op with
  | 0x0100 => nextOf (execJobOpen h s) s
  | 0x0101 => nextOf (execJobClose h s) s
  | 0x0102 => nextOf (execTeardown h s) s
  | 0x0103 => nextOf (execEvict h s) s
  | 0x0104 => nextOf (execFabricPut h s) s
  | 0x0105 => nextOf (execRankTablePut h s) s
  | 0x0106 => nextOf (execSiteMapPut h s) s
  | 0x0107 => nextOf (execPowerLimitSet h s) s
  | 0x0108 => nextOf (execNoticeRoute h s) s
  | 0x010A => nextOf (execReset h s) s
  | 0x010B => nextOf (execFirmwarePut h s) s
  | 0x010C => nextOf (execFirmwareActivate h s) s
  | 0x010D => nextOf (execKeysPut h s) s
  | 0x0200 => nextOf (execBulkPut h s) s
  | 0x0201 => nextOf (execBulkGet h s) s
  | 0x0202 => nextOf (execRegionPut h s) s
  | 0x0203 => nextOf (execRegionDelete h s) s
  | 0x0204 => nextOf (execMenuLoad h s) s
  | 0x0205 => nextOf (execMenuUnload h s) s
  | 0x0207 => nextOf (execCollPlanPut h s) s
  | 0x0208 => nextOf (execCollPlanDelete h s) s
  | 0x0209 => nextOf (execQueueFlush h s) s
  | _ => s

/-- A QUEUE_FLUSH at replay (R416): executed again only when LAST_FLUSH differs from the entry's ACCEPT_INDEX and the die has had no
reset since. -/
def State.flushAgain (s : State) (e : Entry) : Bool :=
  match s.siteOf (byteAt e.payload 0) with
  | none => false
  | some d => ((s.die d).queue (leAt e.payload 2 2)).lastFlush ≠ e.index % 2 ^ 44 && decide (s.panel.resetAt.getD d 0 ≤ e.index)

/-- Replay of one entry. When a command before it has started a reset, the rest waits for the replay that follows that reset. -/
def State.replayEntry (failover : Bool) (s : State) (e : Entry) : State :=
  if ! s.works then s
  else if e.opcode = 0x0206 then
    if failover || ! (e.state = .executing || e.state = .running) then s
    else s.finishEntry e.hatch e.seq Code.interrupted e.interruptedAnswer
  else if e.state ≠ .executing then s
  else if e.opcode = 0x0109 then s.finishEntry e.hatch e.seq Code.interrupted (katRunAnswer [])
  else if e.opcode = 0x0209 && ! s.flushAgain e then s.finishEntry e.hatch e.seq 0 []
  else if isStateOp e.opcode && decide (e.seq ≤ (s.panel.hatch e.hatch).stamp) then s.finishEntry e.hatch e.seq e.code e.answer
  else s.redo e.hatch e.opcode

/-- Entries by rising ACCEPT_INDEX. -/
def insertEntry (e : Entry) : List Entry → List Entry
  | [] => [e]
  | f :: t => if e.index ≤ f.index then e :: f :: t else f :: insertEntry e t

/-- The journal is replayed in the order of ACCEPT_INDEX. Transfers start anew, but for a rank table whose eight pages are held
(R419, R420); tests of a KAT_RUN and held commands are gone (R410, R416). -/
def State.replay (s : State) (failover : Bool) : State :=
  let s0 := (s.panel.kats.filter (fun k => k.2.trigger = 2)).foldl (fun s k => s.modDie k.1 (fun x => { x with leave := x.leave.katEnded s.turn })) s
  let s1 := s0.modPanel (fun p => { p with
    bulks := p.bulks.filter (fun b => b.kind = .ranks && b.held.length = 8)
    katRun := none, kats := p.kats.filter (fun k => k.2.trigger ≠ 2)
    hatches := p.hatches.mapVal (fun _ h => { h with held := [] }) })
  (s.panel.journal.foldl (fun t e => insertEntry e t) []).foldl (State.replayEntry failover) s1

/-! ### The end of bring-up -/

/-- A lifeline record that was not marked done when a panel reset began (R426). -/
def State.lifelineAtReset (s : State) : State :=
  match (s.panel.hatch 0).record with
  | none => s
  | some r =>
    if r.done then s
    else
      let code := if r.opcode = 0x0F06 then 0 else Code.interrupted
      (s.modPanel (fun p => p.modHatch 0 (fun h => { h with record := some { r with code := code, done := true, answer := [] } }.noteFinish
        r.seq code h.finIndex))).reply 0 r.seq r.opcode .finish code false []

/-- Step 12: replay, HOST enabled, service, and the notices that wait for it (R446, R447, R461). -/
def State.serveAtLast (s : State) : State :=
  let rom := s.panel.romMode
  let f := s.fresh
  let s1 := f.2.modPanel (fun p => { p with bring := { p.bring with step := 13, snapshot := none } })
  let s2 := if rom then s1 else s1.replay false
  let s3 := (s2.modPort 8 (fun p => { p with enabled := true })).logEvent 2 (Config.freeMs f.1) (if s.panel.bring.cold then 1 else 2) noSubject
  let s4 := [0, 1].foldl (fun s k => if (s.panel.hearth k).fellBack then s.notice Code.bootFallback noSubject 0 0 0 else s) s3
  let s5 := if rom then s4.noticeTo (some 0) Code.bootNoFirmware noSubject 0 0 0 else s4
  s5.lifelineAtReset

/-- BRING_UP_STEP_DONE: the work of the current step ends, with its failures, and what the next step begins with is done. Step 12 is the
last: Gwyntu is served (R441, R442). The work of a step is shown as one at its end (log 202). -/
def execBringUpStepDone (ok0 ok1 : Bool) (failed : List (Nat × Nat)) (s : State) : Host.Outcome State Fault Refusal :=
  .next (if s.panel.bring.step = 12 then s.serveAtLast else s.stepDone ok0 ok1 failed)

/-! ### Takeover -/

/-- A lifeline record not marked done is carried out by the new primary, and its FINISH is sent. -/
def State.pendingLifeline (s : State) : State :=
  match (s.panel.hatch 0).record with
  | none => s
  | some r => if r.done then s else s.finishRecord 0 r.seq r.opcode (State.lifeline r.opcode r.request s)

/-- The new primary adopts the menus: it takes the reports that the dies have kept, an error or the end of the last offset (R417). -/
def State.adoptMenus (s : State) : State :=
  (s.menus.filter Menu.active).foldl (fun s m => match m.err with
    | some e => s.endMenu m.id e.code e
    | none => s.doneCheck m.id) s

/-- TAKEOVER_COMPLETE: journal and links are taken over, lifeline records carried out, the journal replayed, the menus adopted; the hearth is SOLE and
serves, HEARTH_FAILOVER goes to every hatch, and the notices that are not acknowledged go again (R430). -/
def execTakeoverComplete (k : Nat) (s : State) : Host.Outcome State Fault Refusal :=
  .next (if s.panel.takeover ≠ some k || s.panel.bridgeOwner ≠ k || 2 ≤ k then s
    else
      let s1 := (s.modHearth k (fun y => { y with role := .sole })).modHearth (1 - k) (fun y => { y with role := .down })
      let s2 := s1.modPanel (fun p => { p with takeover := none, failovers := satAdd 16 p.failovers 1 })
      let s3 := s2.pendingLifeline
      if s3.panel.bring.step = 0 then s3
      else
        let s4 := ((s3.replay true).adoptMenus).noticeAll Code.hearthFailover noSubject
        if s4.listens then s4.resendNotices else s4)

end Sys2Proof.Machine
end

