-- ==== Sys2Proof/Machine/Pins.lean ====
section
/-! DEFINITION. What the pins and the indicators show, read from the state (R483, R491, R492, R494). -/
namespace Sys2Proof.Machine

/-- Colours of an indicator. -/
inductive Light where
  | off | green | amber | flashingAmber | red | blue
  deriving DecidableEq, Repr

/-- A notice whose group asserts the chassis alert (R483). -/
def Notice.alerts (n : Notice) : Bool := decide (n.code / 256 = 8) || decide (n.code / 256 = 9) || decide (n.code / 256 = 10)

/-- The chassis alert: a notice of groups 0x08, 0x09 or 0x0A is unacknowledged (R483). -/
def Panel.chassisAlert (p : Panel) : Bool := p.hatches.any (fun e => e.2.notices.any Notice.alerts)

/-- The pins are driven: the module is powered and not in reset (R494). -/
def Panel.drives (p : Panel) : Bool := p.busbar ≠ .lost && decide (1 < p.bring.step)

/-- SB_GP1 is pulled low (R494). -/
def Panel.sbGp1Low (p : Panel) : Bool := p.drives && p.chassisAlert

/-- The status indicator (R491). -/
def State.statusLight (s : State) : Light :=
  if s.dies.any (fun e => e.2.thermal.state = .shutdown) || s.panel.hearths.any (fun e => e.2.role = .down) then .red
  else if s.panel.chassisAlert then .amber
  else if s.panel.bring.step = 13 then .green
  else .off

/-- The service indicator (R491). -/
def Panel.serviceLight (p : Panel) : Light := if p.laserOff || p.powerDown then .blue else .off

/-- A bay's indicator flashes amber for 5 s after a refused press: 488,282 turns, the first number of turns that is no less (R492). -/
def State.bayFlashes (s : State) (b : Nat) : Bool :=
  match (s.bay b).refused with
  | some t => decide (turnsSince t s.turn < 488282)
  | none => false

/-- A bay indicator (R492). -/
def State.bayLight (s : State) (b : Nat) : Light :=
  let st := (s.bay b).state
  if s.bayFlashes b then .flashingAmber
  else if st = 1 || s.baySwitching b then .amber
  else if st = 2 || st = 3 then .green
  else .off

end Sys2Proof.Machine
end

