-- ==== Sys2Proof/Machine/Dispatch.lean ====
section
/-! DEFINITION. One arm per command: a direct call of its meaning. -/
namespace Sys2Proof.Machine

/-- The effect of a command on everything but the queue. -/
def exec (i : Instr) (s : State) : Host.Outcome State Fault Refusal :=
  match i with
  | .coldReset => Sys2Proof.Machine.execColdReset s
  | .bringUpStart => Sys2Proof.Machine.execBringUpStart s
  | .bothHearthsFailed => Sys2Proof.Machine.execBothHearthsFailed s
  | .dieResetRestart d => Sys2Proof.Machine.execDieResetRestart d s
  | .portResetEnd port => Sys2Proof.Machine.execPortResetEnd port s
  | .turnTick inlet outlet flow light => Sys2Proof.Machine.execTurnTick inlet outlet flow light s
  | .beaconSend d p phase => Sys2Proof.Machine.execBeaconSend d p phase s
  | .turnLock => Sys2Proof.Machine.execTurnLock s
  | .turnHoldoverEntry => Sys2Proof.Machine.execTurnHoldoverEntry s
  | .turnHoldover => Sys2Proof.Machine.execTurnHoldover s
  | .turnMisaligned => Sys2Proof.Machine.execTurnMisaligned s
  | .courseFetchDone d c => Sys2Proof.Machine.execCourseFetchDone d c s
  | .courseStart d c lag => Sys2Proof.Machine.execCourseStart d c lag s
  | .menuAbort menu => Sys2Proof.Machine.execMenuAbort menu s
  | .courseWatchdog d c => Sys2Proof.Machine.execCourseWatchdog d c s
  | .nop d c t w => Sys2Proof.Machine.execNop d c t w s
  | .endThread d c t w => Sys2Proof.Machine.execEndThread d c t w s
  | .waitTag d c t w => Sys2Proof.Machine.execWaitTag d c t w s
  | .waitTagSatisfied d c t => Sys2Proof.Machine.execWaitTagSatisfied d c t s
  | .waitQueue d c t w => Sys2Proof.Machine.execWaitQueue d c t w s
  | .waitQueueSatisfied d c t => Sys2Proof.Machine.execWaitQueueSatisfied d c t s
  | .setCtr d c t w => Sys2Proof.Machine.execSetCtr d c t w s
  | .addCtr d c t w => Sys2Proof.Machine.execAddCtr d c t w s
  | .loop d c t w => Sys2Proof.Machine.execLoop d c t w s
  | .branch d c t w => Sys2Proof.Machine.execBranch d c t w s
  | .fork d c t w => Sys2Proof.Machine.execFork d c t w s
  | .tileAddr d c t w => Sys2Proof.Machine.execTileAddr d c t w s
  | .tileShape d c t w => Sys2Proof.Machine.execTileShape d c t w s
  | .tileScale d c t w => Sys2Proof.Machine.execTileScale d c t w s
  | .tileTensor d c t w => Sys2Proof.Machine.execTileTensor d c t w s
  | .tileOrigin d c t w => Sys2Proof.Machine.execTileOrigin d c t w s
  | .mode d c t w => Sys2Proof.Machine.execMode d c t w s
  | .modeTakeEffect d c => Sys2Proof.Machine.execModeTakeEffect d c s
  | .loadW d c t w => Sys2Proof.Machine.execLoadW d c t w s
  | .loadWStart d a => Sys2Proof.Machine.execLoadWStart d a s
  | .loadWComplete d a => Sys2Proof.Machine.execLoadWComplete d a s
  | .flip d c t w => Sys2Proof.Machine.execFlip d c t w s
  | .flipTakeEffect d a => Sys2Proof.Machine.execFlipTakeEffect d a s
  | .matmul d c t w => Sys2Proof.Machine.execMatmul d c t w s
  | .matmulStreamStart d a => Sys2Proof.Machine.execMatmulStreamStart d a s
  | .matmulComplete d a stalls => Sys2Proof.Machine.execMatmulComplete d a stalls s
  | .setParam d c t w => Sys2Proof.Machine.execSetParam d c t w s
  | .add d c t w => Sys2Proof.Machine.execAdd d c t w s
  | .mul d c t w => Sys2Proof.Machine.execMul d c t w s
  | .fma d c t w => Sys2Proof.Machine.execFma d c t w s
  | .axpby d c t w => Sys2Proof.Machine.execAxpby d c t w s
  | .max d c t w => Sys2Proof.Machine.execMax d c t w s
  | .convert d c t w => Sys2Proof.Machine.execConvert d c t w s
  | .relu d c t w => Sys2Proof.Machine.execRelu d c t w s
  | .gelu d c t w => Sys2Proof.Machine.execGelu d c t w s
  | .silu d c t w => Sys2Proof.Machine.execSilu d c t w s
  | .swiglu d c t w => Sys2Proof.Machine.execSwiglu d c t w s
  | .reluBwd d c t w => Sys2Proof.Machine.execReluBwd d c t w s
  | .geluBwd d c t w => Sys2Proof.Machine.execGeluBwd d c t w s
  | .siluBwd d c t w => Sys2Proof.Machine.execSiluBwd d c t w s
  | .swigluBwd d c t w => Sys2Proof.Machine.execSwigluBwd d c t w s
  | .rowSum d c t w => Sys2Proof.Machine.execRowSum d c t w s
  | .rowMax d c t w => Sys2Proof.Machine.execRowMax d c t w s
  | .rowSumsq d c t w => Sys2Proof.Machine.execRowSumsq d c t w s
  | .colSumAcc d c t w => Sys2Proof.Machine.execColSumAcc d c t w s
  | .rowArgmax d c t w => Sys2Proof.Machine.execRowArgmax d c t w s
  | .colDotAcc d c t w => Sys2Proof.Machine.execColDotAcc d c t w s
  | .layernorm d c t w => Sys2Proof.Machine.execLayernorm d c t w s
  | .rmsnorm d c t w => Sys2Proof.Machine.execRmsnorm d c t w s
  | .layernormBwd d c t w => Sys2Proof.Machine.execLayernormBwd d c t w s
  | .rmsnormBwd d c t w => Sys2Proof.Machine.execRmsnormBwd d c t w s
  | .softmax d c t w => Sys2Proof.Machine.execSoftmax d c t w s
  | .softmaxBwd d c t w => Sys2Proof.Machine.execSoftmaxBwd d c t w s
  | .normXhat d c t w => Sys2Proof.Machine.execNormXhat d c t w s
  | .sgdMom d c t w => Sys2Proof.Machine.execSgdMom d c t w s
  | .adamw d c t w => Sys2Proof.Machine.execAdamw d c t w s
  | .lion d c t w => Sys2Proof.Machine.execLion d c t w s
  | .ortho d c t w => Sys2Proof.Machine.execOrtho d c t w s
  | .digestFeed d c t w => Sys2Proof.Machine.execDigestFeed d c t w s
  | .vecCommandStart d c => Sys2Proof.Machine.execVecCommandStart d c s
  | .vecCommandComplete d c => Sys2Proof.Machine.execVecCommandComplete d c s
  | .ldlRun d c t w => Sys2Proof.Machine.execLdlRun d c t w s
  | .ldlDescFetch d ch => Sys2Proof.Machine.execLdlDescFetch d ch s
  | .copy d ch => Sys2Proof.Machine.execCopy d ch s
  | .fill d ch => Sys2Proof.Machine.execFill d ch s
  | .gather d ch => Sys2Proof.Machine.execGather d ch s
  | .ldlDescComplete d ch => Sys2Proof.Machine.execLdlDescComplete d ch s
  | .kilnWrite d larder => Sys2Proof.Machine.execKilnWrite d larder s
  | .glazeBlockRead d u addr upset => Sys2Proof.Machine.execGlazeBlockRead d u addr upset s
  | .gatherGranuleRead d u addr upset => Sys2Proof.Machine.execGatherGranuleRead d u addr upset s
  | .pantryRead d c addr flips => Sys2Proof.Machine.execPantryRead d c addr flips s
  | .qplItemComplete d q => Sys2Proof.Machine.execQplItemComplete d q s
  | .idleTimerFire d q => Sys2Proof.Machine.execIdleTimerFire d q s
  | .flush d q => Sys2Proof.Machine.execFlush d q s
  | .pairGoDark d p => Sys2Proof.Machine.execPairGoDark d p s
  | .pairEnterSafe d p callPhase => Sys2Proof.Machine.execPairEnterSafe d p callPhase s
  | .call d p => Sys2Proof.Machine.execCall d p s
  | .lightPresent d p => Sys2Proof.Machine.execLightPresent d p s
  | .answerHeard d p full => Sys2Proof.Machine.execAnswerHeard d p full s
  | .trainingComplete d p txMap rxMap => Sys2Proof.Machine.execTrainingComplete d p txMap rxMap s
  | .trainingTimeout d p => Sys2Proof.Machine.execTrainingTimeout d p s
  | .lossOfLight d p => Sys2Proof.Machine.execLossOfLight d p s
  | .linkReplayExhausted d p => Sys2Proof.Machine.execLinkReplayExhausted d p s
  | .pauseStart d p => Sys2Proof.Machine.execPauseStart d p s
  | .pauseEnd d p => Sys2Proof.Machine.execPauseEnd d p s
  | .presenceChange port closed => Sys2Proof.Machine.execPresenceChange port closed s
  | .flitSend d p => Sys2Proof.Machine.execFlitSend d p s
  | .flitReceive d p flit corrected uncorrectable => Sys2Proof.Machine.execFlitReceive d p flit corrected uncorrectable s
  | .idleFrameReceive d p frame stamp => Sys2Proof.Machine.execIdleFrameReceive d p frame stamp s
  | .replayTimeout d p => Sys2Proof.Machine.execReplayTimeout d p s
  | .nakResend d p => Sys2Proof.Machine.execNakResend d p s
  | .laneMapChange d p rx => Sys2Proof.Machine.execLaneMapChange d p rx s
  | .laneDrop d p lane => Sys2Proof.Machine.execLaneDrop d p lane s
  | .switchoverWindowCheck port => Sys2Proof.Machine.execSwitchoverWindowCheck port s
  | .sourceSwitch port => Sys2Proof.Machine.execSourceSwitch port s
  | .sourceSwitchDone port => Sys2Proof.Machine.execSourceSwitchDone port s
  | .lsmInsert bay l1h => Sys2Proof.Machine.execLsmInsert bay l1h s
  | .lsmQualified bay => Sys2Proof.Machine.execLsmQualified bay s
  | .lsmFailed bay pulled => Sys2Proof.Machine.execLsmFailed bay pulled s
  | .serviceButtonPress bay => Sys2Proof.Machine.execServiceButtonPress bay s
  | .packetInject d cls => Sys2Proof.Machine.execPacketInject d cls s
  | .packetForward d => Sys2Proof.Machine.execPacketForward d s
  | .packetEject d => Sys2Proof.Machine.execPacketEject d s
  | .bounce d => Sys2Proof.Machine.execBounce d s
  | .gatewayExclusionExpiry d g => Sys2Proof.Machine.execGatewayExclusionExpiry d g s
  | .rankTableSwitch => Sys2Proof.Machine.execRankTableSwitch s
  | .rateStep d => Sys2Proof.Machine.execRateStep d s
  | .raLo d c t w => Sys2Proof.Machine.execRaLo d c t w s
  | .raHi d c t w => Sys2Proof.Machine.execRaHi d c t w s
  | .raAdd d c t w => Sys2Proof.Machine.execRaAdd d c t w s
  | .load d c t w => Sys2Proof.Machine.execLoad d c t w s
  | .store d c t w => Sys2Proof.Machine.execStore d c t w s
  | .atomic d c t w => Sys2Proof.Machine.execAtomic d c t w s
  | .send d c t w => Sys2Proof.Machine.execSend d c t w s
  | .take d c t w => Sys2Proof.Machine.execTake d c t w s
  | .fence d c t w => Sys2Proof.Machine.execFence d c t w s
  | .fenceComplete d c t => Sys2Proof.Machine.execFenceComplete d c t s
  | .loadPacket d => Sys2Proof.Machine.execLoadPacket d s
  | .storePacket d => Sys2Proof.Machine.execStorePacket d s
  | .atomicPacket d => Sys2Proof.Machine.execAtomicPacket d s
  | .sendPacket d => Sys2Proof.Machine.execSendPacket d s
  | .blockRead d => Sys2Proof.Machine.execBlockRead d s
  | .ack d => Sys2Proof.Machine.execAck d s
  | .data d => Sys2Proof.Machine.execData d s
  | .result d => Sys2Proof.Machine.execResult d s
  | .busy d => Sys2Proof.Machine.execBusy d s
  | .retransmitTimeout d req => Sys2Proof.Machine.execRetransmitTimeout d req s
  | .targetLost d req => Sys2Proof.Machine.execTargetLost d req s
  | .sourceSessionRelease d key => Sys2Proof.Machine.execSourceSessionRelease d key s
  | .targetSessionExpiry d key => Sys2Proof.Machine.execTargetSessionExpiry d key s
  | .sessionQuietEnd d => Sys2Proof.Machine.execSessionQuietEnd d s
  | .wskOpen d c t w => Sys2Proof.Machine.execWskOpen d c t w s
  | .wskFire d c t w => Sys2Proof.Machine.execWskFire d c t w s
  | .wskJoin d c t w => Sys2Proof.Machine.execWskJoin d c t w s
  | .bucketFire d b => Sys2Proof.Machine.execBucketFire d b s
  | .preludeUp d => Sys2Proof.Machine.execPreludeUp d s
  | .preludeDown d => Sys2Proof.Machine.execPreludeDown d s
  | .slotCheck d b => Sys2Proof.Machine.execSlotCheck d b s
  | .dataPhaseStart d b => Sys2Proof.Machine.execDataPhaseStart d b s
  | .credit d => Sys2Proof.Machine.execCredit d s
  | .chunkSend d b => Sys2Proof.Machine.execChunkSend d b s
  | .chunkData d => Sys2Proof.Machine.execChunkData d s
  | .chunkAck d => Sys2Proof.Machine.execChunkAck d s
  | .resend d => Sys2Proof.Machine.execResend d s
  | .chunkTimeout d b key => Sys2Proof.Machine.execChunkTimeout d b key s
  | .agreeUp d => Sys2Proof.Machine.execAgreeUp d s
  | .release d => Sys2Proof.Machine.execRelease d s
  | .abort d => Sys2Proof.Machine.execAbort d s
  | .cack d => Sys2Proof.Machine.execCack d s
  | .ctlRepeatTimeout d b key => Sys2Proof.Machine.execCtlRepeatTimeout d b key s
  | .collTimeout d b => Sys2Proof.Machine.execCollTimeout d b s
  | .abortRaise d b => Sys2Proof.Machine.execAbortRaise d b s
  | .leaveRequest d unit => Sys2Proof.Machine.execLeaveRequest d unit s
  | .leaveGrant d => Sys2Proof.Machine.execLeaveGrant d s
  | .rampFall d => Sys2Proof.Machine.execRampFall d s
  | .lveBook d c t w => Sys2Proof.Machine.execLveBook d c t w s
  | .lveRelease d c t w => Sys2Proof.Machine.execLveRelease d c t w s
  | .budgetRecompute busbar leave => Sys2Proof.Machine.execBudgetRecompute busbar leave s
  | .sensorReading d counts => Sys2Proof.Machine.execSensorReading d counts s
  | .slopeHoldEnd d => Sys2Proof.Machine.execSlopeHoldEnd d s
  | .thermalThrottleStep d => Sys2Proof.Machine.execThermalThrottleStep d s
  | .graceTimerExpiry d => Sys2Proof.Machine.execGraceTimerExpiry d s
  | .hbmTempRead d t0 t1 => Sys2Proof.Machine.execHbmTempRead d t0 t1 s
  | .diePwrOn d v => Sys2Proof.Machine.execDiePwrOn d v s
  | .powerGood d dom => Sys2Proof.Machine.execPowerGood d dom s
  | .thmCfg d v => Sys2Proof.Machine.execThmCfg d v s
  | .fabFence d v => Sys2Proof.Machine.execFabFence d v s
  | .registerWrite d off v => Sys2Proof.Machine.execRegisterWrite d off v s
  | .statusGet h pl => Sys2Proof.Machine.execStatusGet h pl s
  | .siteMapGet h pl => Sys2Proof.Machine.execSiteMapGet h pl s
  | .fabricGet h pl => Sys2Proof.Machine.execFabricGet h pl s
  | .hatchStatus h pl => Sys2Proof.Machine.execHatchStatus h pl s
  | .attestGet h pl => Sys2Proof.Machine.execAttestGet h pl s
  | .dieRead h pl => Sys2Proof.Machine.execDieRead h pl s
  | .jobOpen h => Sys2Proof.Machine.execJobOpen h s
  | .jobClose h => Sys2Proof.Machine.execJobClose h s
  | .teardown h => Sys2Proof.Machine.execTeardown h s
  | .evict h => Sys2Proof.Machine.execEvict h s
  | .fabricPut h => Sys2Proof.Machine.execFabricPut h s
  | .rankTablePut h => Sys2Proof.Machine.execRankTablePut h s
  | .siteMapPut h => Sys2Proof.Machine.execSiteMapPut h s
  | .powerLimitSet h => Sys2Proof.Machine.execPowerLimitSet h s
  | .noticeRoute h => Sys2Proof.Machine.execNoticeRoute h s
  | .katRun h => Sys2Proof.Machine.execKatRun h s
  | .reset h => Sys2Proof.Machine.execReset h s
  | .firmwarePut h => Sys2Proof.Machine.execFirmwarePut h s
  | .firmwareActivate h => Sys2Proof.Machine.execFirmwareActivate h s
  | .keysPut h => Sys2Proof.Machine.execKeysPut h s
  | .bulkPut h => Sys2Proof.Machine.execBulkPut h s
  | .bulkGet h => Sys2Proof.Machine.execBulkGet h s
  | .regionPut h => Sys2Proof.Machine.execRegionPut h s
  | .regionDelete h => Sys2Proof.Machine.execRegionDelete h s
  | .menuLoad h => Sys2Proof.Machine.execMenuLoad h s
  | .menuUnload h => Sys2Proof.Machine.execMenuUnload h s
  | .launch h => Sys2Proof.Machine.execLaunch h s
  | .collPlanPut h => Sys2Proof.Machine.execCollPlanPut h s
  | .collPlanDelete h => Sys2Proof.Machine.execCollPlanDelete h s
  | .queueFlush h => Sys2Proof.Machine.execQueueFlush h s
  | .commandAccept dg => Sys2Proof.Machine.execCommandAccept dg s
  | .commandExecuteStart h => Sys2Proof.Machine.execCommandExecuteStart h s
  | .bulkData dg => Sys2Proof.Machine.execBulkData dg s
  | .bulkAck dg => Sys2Proof.Machine.execBulkAck dg s
  | .bulkAckTimer h => Sys2Proof.Machine.execBulkAckTimer h s
  | .bulkAbandoned h => Sys2Proof.Machine.execBulkAbandoned h s
  | .finishRepeat => Sys2Proof.Machine.execFinishRepeat s
  | .noticeAck dg => Sys2Proof.Machine.execNoticeAck dg s
  | .noticeResend => Sys2Proof.Machine.execNoticeResend s
  | .lifelineStatus pl => Sys2Proof.Machine.execLifelineStatus pl s
  | .journalRead pl => Sys2Proof.Machine.execJournalRead pl s
  | .logDump pl => Sys2Proof.Machine.execLogDump pl s
  | .laserOff pl => Sys2Proof.Machine.execLaserOff pl s
  | .portOff pl => Sys2Proof.Machine.execPortOff pl s
  | .diePowerOff pl => Sys2Proof.Machine.execDiePowerOff pl s
  | .panelReset pl => Sys2Proof.Machine.execPanelReset pl s
  | .powerDown pl => Sys2Proof.Machine.execPowerDown pl s
  | .heartbeat k => Sys2Proof.Machine.execHeartbeat k s
  | .heartbeatLoss k => Sys2Proof.Machine.execHeartbeatLoss k s
  | .failLine k => Sys2Proof.Machine.execFailLine k s
  | .firmwareWatchdog k => Sys2Proof.Machine.execFirmwareWatchdog k s
  | .bridgeClaim k stale => Sys2Proof.Machine.execBridgeClaim k stale s
  | .neighbourSolicitation => Sys2Proof.Machine.execNeighbourSolicitation s
  | .ptpMessage time => Sys2Proof.Machine.execPtpMessage time s
  | .katCheckpoint d => Sys2Proof.Machine.execKatCheckpoint d s
  | .katDone d failed tmax duty leave => Sys2Proof.Machine.execKatDone d failed tmax duty leave s
  | .accumulatorClose d c off => Sys2Proof.Machine.execAccumulatorClose d c off s
  | .cntRead d c t w => Sys2Proof.Machine.execCntRead d c t w s
  | .cntCtl d c t w => Sys2Proof.Machine.execCntCtl d c t w s
  | .portWindowEnd d => Sys2Proof.Machine.execPortWindowEnd d s
  | .sampleWindowEnd d => Sys2Proof.Machine.execSampleWindowEnd d s
  | .slotTimerFire d k => Sys2Proof.Machine.execSlotTimerFire d k s
  | .sbGp0Edge => Sys2Proof.Machine.execSbGp0Edge s
  | .busbarDip mv => Sys2Proof.Machine.execBusbarDip mv s
  | .busbarHigh mv => Sys2Proof.Machine.execBusbarHigh mv s
  | .busbarLoss mv => Sys2Proof.Machine.execBusbarLoss mv s
  | .busbarOvervoltage mv => Sys2Proof.Machine.execBusbarOvervoltage mv s
  | .referenceClockRelease mv inlet outlet flow => Sys2Proof.Machine.execReferenceClockRelease mv inlet outlet flow s
  | .bringUpStepDone ok0 ok1 failed => Sys2Proof.Machine.execBringUpStepDone ok0 ok1 failed s
  | .takeoverComplete k => Sys2Proof.Machine.execTakeoverComplete k s
  | .relockComplete d p inWindow => Sys2Proof.Machine.execRelockComplete d p inWindow s
  | .callEnd d p => Sys2Proof.Machine.execCallEnd d p s
  | .hostLinkChange up => Sys2Proof.Machine.execHostLinkChange up s

end Sys2Proof.Machine
end

