-- ==== Sys2Proof/Safety.lean ====
section
/-! DEFINITION. What a safe step is, and the words in which claims are stated: a word that issues, frames, and the
invariants of the block. -/
namespace Sys2Proof.Machine

/-- An outcome is a next state. -/
def IsNext (o : Host.Outcome State Fault Refusal) : Prop := ∃ t, o = .next t

/-- A step is safe when the block goes on. -/
def SafeStep (s : State) : Prop := IsNext (step s)

/-! ### Course words -/

/-- Thread `t` of core `c` issues the word `w` now, and `w` is operation `op` of `unit` (R78, R81). -/
def State.issues (s : State) (d c t : Nat) (w : W64) (unit op : Nat) : Bool :=
  s.canIssue d c t w && decide (wUnit w = unit) && decide (wOp w = op)

/-- The state in which the effect of an issued word leaves the block: the thread has stepped past the word, `act` has
acted, and a thread with no word left has run off its course (R78, R83). -/
def State.afterWord (s : State) (d c t : Nat) (w : W64) (act : State → Origin → State) : State :=
  (act (s.takeWord d c t w) (s.originOf d c t w)).runOff d c t

/-! ### Control packets of the whisk -/

/-- `q` is the first whisk control packet of `kind` that waits at die `d`; it names the last instance of bucket `b`, comes from its
member `peer`, and its INDEX has not been seen (R355, R357). -/
def State.ctlFirst (s : State) (d kind b peer : Nat) (q : Packet) : Bool :=
  decide (((s.die d).takeRx 4 [kind]).map Prod.fst = some q) && decide ((s.die d).bucketOf q = some b) &&
    decide ((s.team d b).find q.srcRank q.srcDie = some peer) && ! (s.inst d b).ctlSeen.contains (peer, wIndex q)

/-- The codes of an aborted instance whose first cause was `code`: FAB_RANK_INVALID joins them for a neighbour without a valid rank (R359,
R363). -/
def AbortCodes (code : Nat) (l : List Nat) : Prop := l.head? = some code ∧ ∀ e ∈ l, e = code ∨ e = Code.fabRankInvalid

/-! ### Commands of the host -/

/-- The command of a hatch and SEQ is FINISHED with a code, and a FINISH with it has left (R413, R415). -/
def State.finished (s : State) (h seq code : Nat) : Prop :=
  (∃ e, s.panel.entry h seq = some e ∧ e.state = .finished ∧ e.code = code) ∧
    ∃ op n pl, Output.reply h seq op n .finish code false pl ∈ s.outbox

/-- The hearths execute entry `e` of hatch `h` with opcode `op` (R415). -/
abbrev State.runs (s : State) (h op : Nat) (e : Entry) : Prop := s.panel.executing h op = some e ∧ s.works = true

/-! ### Frames -/

/-- Everything of the panel stands: its hearths, hatches, journal, ports and bays; the maps, menus, time and what has been
sent. Only die `d` may differ. -/
def OnlyDie (d : Nat) (s t : State) : Prop :=
  (∀ e, e ≠ d → t.die e = s.die e) ∧ t.panel = s.panel ∧ t.menus = s.menus ∧ t.live = s.live ∧ t.turn = s.turn ∧
    t.outbox = s.outbox ∧ t.images = s.images ∧ t.pending = s.pending

/-- No die differs. -/
def SameDies (s t : State) : Prop := ∀ d, t.die d = s.die d

/-- Every byte of the memories of die `d` outside the given spans (first address, length) reads as before. -/
def SameBytes (d : Nat) (spans : List (Nat × Nat)) (s t : State) : Prop :=
  ∀ a, (∀ p ∈ spans, ¬ (p.1 ≤ a ∧ a < p.1 + p.2)) → (t.die d).mem.cells.read a = (s.die d).mem.cells.read a

/-- A request but for its mark as halted, which the end of its course sets on a SEND that was refused as full (R217). -/
def Req.unmarked (r : Req) : Req := { r with halted := false }

/-! ### Invariants -/

/-- The memories of every die are in canonical form: addresses rising, no unwritten byte listed. -/
def State.MemOk (s : State) : Prop := ∀ d, (s.die d).mem.cells.wf = true

/-- Legal values: PNL_POWER.LIMIT lies from 12,000 W to 20,000 W (R382), the level in force is one that the module supports (R502),
and BOOT_SLOT names a slot (R446, R503). -/
abbrev HeldLegal (clMax limit level slot : Nat) : Prop := 12000 ≤ limit ∧ limit ≤ 20000 ∧ 1 ≤ level ∧ level ≤ clMax ∧ slot ≤ 1

/-- What the hearths hold over every reset is legal, in the older copy of a hearth that is DOWN too (R399). -/
def Panel.HeldOk (p : Panel) : Prop :=
  HeldLegal p.clMax p.powerLimit p.clSet p.bootSlot ∧ ∀ e ∈ p.mrams, HeldLegal p.clMax e.2.powerLimit e.2.clSet e.2.bootSlot

/-- The cells of a pool lie within 65,536, and its free cells cover what is still reserved (R212, R216). -/
def Pool.Ok (p : Pool) : Prop :=
  (p.queues.map Prod.fst).Pairwise (· < ·) ∧ (p.queues.map (fun q => q.2.cells)).sum ≤ 65536 ∧ p.ru ≤ p.free

/-- Held leave and undrawn tickets stay within the budget (R375, R379). -/
def Leave.Ok (l : Leave) : Prop := (l.undrawn.map Prod.fst).Pairwise (· < ·) ∧ l.held + l.reserved ≤ l.cur

/-- The fuses of the module (R51, R432, R445, R502). -/
def Panel.fuses (p : Panel) : Nat × Nat × Nat × Nat × Bytes := (p.serial, p.compatClass, p.clMax, p.minSvn, p.fwKeyHash)

end Sys2Proof.Machine
end

