-- ==== Sys2Proof/Certificates/Slice0/Obligations.lean ====
section
/-! DEFINITION. Statements about the block, from the rules of the spec. Numbers R<n> are the rules of spec/. -/
open Sys2Proof Sys2Proof.Machine

/-- The command in front of the queue runs on the state with the rest of the queue. -/
def Obligations.StepRunsFrontCommand : Prop :=  ∀ (i : Instr) (rest : List Instr) (s : State), step { s with pending := i :: rest } = exec i { s with pending := rest }

/-- NOP, SET_CTR, ADD_CTR, LOOP, BRANCH and FORK complete at issue (R79, R82). -/
def Obligations.SequencerWordsComplete : Prop :=  ∀ (s : State) (d c t : Nat) (w : W64),
  (s.issues d c t w 0 0 = true → badSeqWord w 0 = false →
    exec (.nop d c t w) s = .next (s.afterWord d c t w fun s o => s.countTag d o)) ∧
  (s.issues d c t w 0 4 = true → badSeqWord w (maskOf 45 43 + maskOf 31 0) = false →
    exec (.setCtr d c t w) s = .next (s.afterWord d c t w fun s o =>
      (s.modThread d c t (fun th => { th with ctr := th.ctr.put (wField w 45 43) (wField w 31 0) })).countTag d o)) ∧
  (s.issues d c t w 0 5 = true → badSeqWord w (maskOf 45 43 + maskOf 31 0) = false →
    exec (.addCtr d c t w) s = .next (s.afterWord d c t w fun s o =>
      (s.modThread d c t (fun th => { th with
        ctr := th.ctr.put (wField w 45 43) ((th.ctr.getD (wField w 45 43) 0 + wField w 31 0) % 2 ^ 32) })).countTag d o)) ∧
  (∀ goal, s.issues d c t w 0 6 = true → badSeqWord w (maskOf 45 43 + maskOf 15 0) = false →
    ((s.die d).seq c).target (s.originOf d c t w) w = some goal →
    exec (.loop d c t w) s = .next (s.afterWord d c t w fun s o =>
      (s.modThread d c t (fun th =>
        let v := (th.ctr.getD (wField w 45 43) 0 + (2 ^ 32 - 1)) % 2 ^ 32;
        { th with ctr := th.ctr.put (wField w 45 43) v, pc := if v = 0 then th.pc else goal })).countTag d o)) ∧
  (∀ goal, s.issues d c t w 0 7 = true → badSeqWord w (maskOf 45 40 + maskOf 15 0) = false → wField w 42 40 ≠ 7 →
    ((s.die d).seq c).target (s.originOf d c t w) w = some goal →
    exec (.branch d c t w) s = .next (s.afterWord d c t w fun s o =>
      (s.modThread d c t (fun th =>
        if branchHolds (wField w 42 40) (th.ctr.getD (wField w 45 43) 0) then { th with pc := goal } else th)).countTag d o)) ∧
  (∀ goal, s.issues d c t w 0 8 = true → badSeqWord w (maskOf 45 42 + maskOf 15 0) = false →
    ((s.die d).seq c).target (s.originOf d c t w) w = some goal →
    (((s.die d).seq c).thread (wField w 45 42)).started = false →
    exec (.fork d c t w) s = .next (s.afterWord d c t w fun s o =>
      (s.modThread d c (wField w 45 42) (fun th => { th with started := true, pc := goal, wait := .ready, ctr := [] })).countTag d o))

/-- WAIT_TAG (R79, R82): a word with K and N not zero lowers tag K by N and completes at issue when the tag holds at least N; otherwise its
thread waits for it. WAIT_TAG_SATISFIED: a thread that waits for a tag that holds at least N goes on in the same way. WAIT_QUEUE (R79,
R223): a word that names a queue of the menu with CONSUMER THREAD and a MAX of at least N completes at issue when DEPTH is at least N;
otherwise its thread waits for it. WAIT_QUEUE_SATISFIED: a thread that waits for a queue with at least N items goes on. END (R77, R82):
while another thread of the core is started, the thread that issues END ends and its tag counts; when no other thread is started, the course
finishes: the core runs no course, its turn offset goes up by one, and its menu counts the offset as finished by the core. -/
def Obligations.WaitsAndEndComplete : Prop :=
  (∀ (s : State) (d c t : Nat) (w : W64),
  (s.issues d c t w 0 2 = true → badSeqWord w (maskOf 45 32) = false → wField w 45 42 ≠ 0 → wField w 41 32 ≠ 0 →
    exec (.waitTag d c t w) s = .next (s.afterWord d c t w fun s o =>
      if wField w 41 32 ≤ (((s.die d).seq c).thread t).tags.getD (wField w 45 42) 0 then s.tagMet d o (wField w 45 42) (wField w 41 32)
      else s.modThread d c t (fun th => { th with wait := .tag (wField w 45 42) (wField w 41 32) o.tag }))) ∧
  (∀ k n own, (((s.die d).seq c).thread t).wait = .tag k n own → n ≤ (((s.die d).seq c).thread t).tags.getD k 0 →
    exec (.waitTagSatisfied d c t) s =
      .next ((s.tagMet d { core := c, thread := t, off := ((s.die d).seq c).off, tag := own } k n).runOff d c t)) ∧
  (∀ m, s.issues d c t w 0 3 = true → badSeqWord w (maskOf 45 16) = false → wField w 31 16 ≠ 0 →
    s.menuAt d c = some m → m.threadQueue (s.die d).standsFor (wField w 45 32) = true →
    4 ≤ wField w 45 32 → wField w 45 32 < 1024 → wField w 31 16 ≤ ((s.die d).queue (wField w 45 32)).max →
    exec (.waitQueue d c t w) s = .next (s.afterWord d c t w fun s o =>
      if wField w 31 16 ≤ ((s.die d).queue (wField w 45 32)).depth then s.countTag d o
      else s.modThread d c t (fun th => { th with wait := .queue (wField w 45 32) (wField w 31 16) o.tag }))) ∧
  (∀ q n own, (((s.die d).seq c).thread t).wait = .queue q n own → n ≤ ((s.die d).queue q).depth →
    exec (.waitQueueSatisfied d c t) s =
      .next (((s.modThread d c t (fun th => { th with wait := .ready })).countTag d
        { core := c, thread := t, off := ((s.die d).seq c).off, tag := own }).runOff d c t))) ∧
  (∀ (s : State) (d c t : Nat) (w : W64), s.issues d c t w 0 1 = true → badSeqWord w 0 = false →
    (((s.die d).seq c).threads.map Prod.fst).Pairwise (· < ·) →
  (∀ e, e ≠ t → (((s.die d).seq c).threads.find e).isSome = true → (((s.die d).seq c).thread e).started = true →
    exec (.endThread d c t w) s = .next (s.afterWord d c t w fun s o =>
      (s.countTag d o).modThread d c t (fun th => { th with started := false }))) ∧
  (∀ id m, (∀ p ∈ ((s.die d).seq c).threads, p.1 ≠ t → p.2.started = false) → ((s.die d).seq c).menu = some id → s.menu id = some m →
    ∃ (u : State) (k : Menu), exec (.endThread d c t w) s = .next u ∧ ((u.die d).seq c).running = false ∧
      ((u.die d).seq c).off = ((s.die d).seq c).off + 1 ∧ u.menu id = some k ∧
      k.finished.getD (2 * (s.die d).standsFor + c) 0 = ((s.die d).seq c).off + 1))

/-- COURSE_FETCH_DONE (R76): the spare buffer of a core takes the next course that is not idle, with its words when they are verified, and
nothing else of the panel changes. COURSE_START (R77): the fetched course of the next offset starts at the tick of turn S + t (R58: modulo
2^48) with thread 0 at word 0 and no other thread; an idle entry finishes at its own start, so the next offset follows. COURSE_WATCHDOG
(R85): a course that runs at the tick of turn S + t + WATCHDOG raises COURSE_WATCHDOG; that its record gives thread 0xFF and word 0xFFFFFFFF
is the model's own choice (log 74). KAT_CHECKPOINT (R456): with both cores past a checkpoint and the units idle, the test of the die starts.
The die holds a logical number (R48). MENU_ABORT (R74, R83): a LAUNCHED or RUNNING menu whose error has been reported becomes LOADED with no
error, and every core of each of its dies stops and runs no course; while no hearth takes the reports of the dies, it stays as it is (R417).
-/
def Obligations.CourseRowsComplete : Prop :=
  (∀ (s : State) (d c lag : Nat) (m : Menu), s.menuAt d c = some m → (s.die d).standsFor ≠ 0x3F →
  (∀ k, k = (if ((s.die d).seq c).running then ((s.die d).seq c).off + 1 else ((s.die d).seq c).off) → m.active = true →
    ((s.die d).seq c).stopped = false → ((s.die d).seq c).next = none → k < m.offsets → m.idleAt (s.die d).standsFor c k = false →
    ∃ (f : Fetched) (u : State), f.off = k ∧ exec (.courseFetchDone d c) s = .next u ∧
      (u.die d).seq c = { (s.die d).seq c with next := some f } ∧ (∀ e, e ≠ c → (u.die d).seq e = (s.die d).seq e) ∧
      (u.die d).mem.cells = (s.die d).mem.cells ∧ OnlyDie d s u ∧
      ∀ bs, (s.die d).mem.verifiedRead (.sequencer c) (m.courseBase (s.die d).standsFor +
          ((m.course (m.entryAt (s.die d).standsFor c k % 32768)).1 - m.courseLow))
          (8 * (m.course (m.entryAt (s.die d).standsFor c k % 32768)).2) = .bytes bs →
        f.failed = none ∧ f.words = wordsIn (m.course (m.entryAt (s.die d).standsFor c k % 32768)).2 bs) ∧
  (∀ f, m.state = .running → ((s.die d).seq c).running = false → ((s.die d).seq c).stopped = false →
    ((s.die d).seq c).off < m.offsets → ((s.die d).seq c).off ≤ turnsSince ((s.die d).seq c).start s.turn → s.awaitsTest m d c = false →
    s.panel.kats.find d = none → m.idleAt (s.die d).standsFor c ((s.die d).seq c).off = false → ((s.die d).seq c).next = some f →
    f.off = ((s.die d).seq c).off → f.failed = none →
    ∃ u : State, exec (.courseStart d c lag) s = .next u ∧ ((u.die d).seq c).running = true ∧ ((u.die d).seq c).words = f.words ∧
      (((u.die d).seq c).thread 0).started = true ∧ (((u.die d).seq c).thread 0).pc = 0 ∧
      (∀ t, t ≠ 0 → (((u.die d).seq c).thread t).started = false) ∧ (u.die d).mem = (s.die d).mem ∧ OnlyDie d s u) ∧
  (m.state = .running → ((s.die d).seq c).running = false → ((s.die d).seq c).stopped = false → ((s.die d).seq c).off < m.offsets →
    ((s.die d).seq c).off ≤ turnsSince ((s.die d).seq c).start s.turn → s.awaitsTest m d c = false → s.panel.kats.find d = none →
    m.idleAt (s.die d).standsFor c ((s.die d).seq c).off = true →
    ∃ u : State, exec (.courseStart d c lag) s = .next u ∧ ((u.die d).seq c).running = false ∧
      ((u.die d).seq c).off = ((s.die d).seq c).off + 1) ∧
  (m.active = true → ((s.die d).seq c).running = true → ((s.die d).seq c).off + m.watchdog ≤ turnsSince ((s.die d).seq c).start s.turn →
    exec (.courseWatchdog d c) s = .next (s.raiseAt d c Code.courseWatchdog ((s.die d).seq c).off 0xFF 0xFFFFFFFF)) ∧
  (c = 0 → m.state = .running → ((s.die d).seq 0).off = ((s.die d).seq 1).off → ((s.die d).seq 0).running = false →
    ((s.die d).seq 1).running = false → s.awaitsTest m d 0 = true → s.panel.kats.find d = none →
    (∀ a, a < 4 → ((s.die d).arr a).idle = true) →
    (∀ v, v < 2 → ((s.die d).vec v).queue = [] ∧ ((s.die d).vec v).running = none) →
    (∀ ch, ch < 4 → ((s.die d).chan ch).cq = [] ∧ ((s.die d).chan ch).dq = [] ∧ ((s.die d).chan ch).active = []) →
    exec (.katCheckpoint d) s = .next (s.modPanel (fun p => { p with
      kats := p.kats.put d { trigger := 1, turn := s.turn, budget := (s.die d).leave.cur, off := ((s.die d).seq 0).off - 1 } })))) ∧
  (∀ (s : State) (id : Nat) (m : Menu) (e : CourseErr), s.menu id = some m → m.err = some e → m.active = true → e.code ≠ 0 →
  (s.panel.hears = false → exec (.menuAbort id) s = .next (s.modMenu id (fun m => { m with err := some (m.err.getD e) }))) ∧
  (s.panel.hears = true → ∃ u : State, exec (.menuAbort id) s = .next u ∧ (∀ k, u.menu id = some k → k.state = .loaded ∧ k.err = none) ∧
      (∀ n d c, n ∈ m.dies → s.siteOf n = some d → c < 2 → ((u.die d).seq c).stopped = true ∧ ((u.die d).seq c).running = false)))

/-- The five TILE_ words write their fields of a tile register of the core (R97, R99, R100). MODE (R112): a legal mode is pending on its
core and the thread that issued it waits. MODE_TAKE_EFFECT (R110, R112): with its arrays idle the pending mode becomes the mode of the core;
a die-wide mode, and the leaving of one, takes effect on both cores together. -/
def Obligations.TileAndModeWordsComplete : Prop :=
  (∀ (s : State) (d c t : Nat) (w : W64), wTicket w = 0 → (c = 1 → dieWide ((s.die d).gang 1).mode = false) →
  (s.issues d c t w 1 1 = true → bodyOk w (maskOf 45 20 ||| maskOf 15 0) = true → wField w 40 20 ≤ 0x17FFFF → wField w 15 0 ≠ 0 →
    exec (.tileAddr d c t w) s = .next (s.afterWord d c t w fun s o => (s.modTile d c (wField w 45 41) (fun r =>
      { r with base := wField w 40 20, stride := wField w 15 0, addrSet := true })).countTag d o)) ∧
  (s.issues d c t w 1 2 = true → bodyOk w (maskOf 45 15) = true → wField w 18 15 < 0xC →
    exec (.tileShape d c t w) s = .next (s.afterWord d c t w fun s o => (s.modTile d c (wField w 45 41) (fun r =>
      { r with rows := wField w 40 30 + 1, cols := wField w 29 19 + 1, fmt := wField w 18 15, shapeSet := true, tensor := 0,
               rowOrg := 0, colOrg := 0, scaleSet := false })).countTag d o)) ∧
  (s.issues d c t w 1 3 = true → bodyOk w (maskOf 45 12) = true → wField w 40 20 ≤ 0x17FFFF → wField w 19 12 ≠ 0 →
    exec (.tileScale d c t w) s = .next (s.afterWord d c t w fun s o => (s.modTile d c (wField w 45 41) (fun r =>
      { r with sbase := wField w 40 20, sstride := wField w 19 12, scaleSet := true })).countTag d o)) ∧
  (s.issues d c t w 1 4 = true → bodyOk w (maskOf 45 41 ||| maskOf 31 0) = true →
    exec (.tileTensor d c t w) s = .next (s.afterWord d c t w fun s o => (s.modTile d c (wField w 45 41) (fun r =>
      { r with tensor := wField w 31 0 })).countTag d o)) ∧
  (s.issues d c t w 1 5 = true → bodyOk w (maskOf 45 41 ||| maskOf 39 0) = true →
    exec (.tileOrigin d c t w) s = .next (s.afterWord d c t w fun s o => (s.modTile d c (wField w 45 41) (fun r =>
      { r with rowOrg := wField w 39 20, colOrg := wField w 19 0 })).countTag d o))) ∧
  (∀ (s : State) (d c t : Nat) (w : W64),
  (s.issues d c t w 1 8 = true → bodyOk w (maskOf 45 43) = true → wTicket w = 0 → wField w 45 43 < 6 →
    (s.skilletOn d c = true → wField w 45 43 = 0) →
    (dieWide (wField w 45 43) = true → ∀ h : Nat, ((s.die d).gang (1 - c)).mode = h ∨ (s.die d).pendingMode (1 - c) = some h →
      dieWide h = true → wField w 45 43 = h) →
    exec (.mode d c t w) s = .next (s.afterWord d c t w fun s o =>
      (s.modDie d (fun x => x.modGang c (fun q => { q with pending := some (wField w 45 43, o) }))).modThread d c o.thread
        (fun th => { th with wait := .reply }))) ∧
  (∀ g o, c < 2 → ((s.die d).gang c).pending = some (g, o) → (s.die d).modeDue c = true →
    dieWide ((s.die d).gang c).mode = false → dieWide g = false →
    ∃ u : State, exec (.modeTakeEffect d c) s = .next u ∧ ((u.die d).gang c).mode = g ∧ ((u.die d).gang c).pending = none ∧
      (u.die d).gang (1 - c) = (s.die d).gang (1 - c) ∧ (u.die d).mem = (s.die d).mem) ∧
  (∀ g o g2 o2, c < 2 → ((s.die d).gang c).pending = some (g, o) → ((s.die d).gang (1 - c)).pending = some (g2, o2) →
    (s.die d).modeDue c = true → (dieWide ((s.die d).gang c).mode = true ∨ dieWide g = true) →
    ∃ u : State, exec (.modeTakeEffect d c) s = .next u ∧ ((u.die d).gang c).mode = g ∧ ((u.die d).gang (1 - c)).mode = g2 ∧
      ((u.die d).gang c).pending = none ∧ ((u.die d).gang (1 - c)).pending = none ∧ (u.die d).mem = (s.die d).mem))

/-- LOAD_W, FLIP and MATMUL (R101, R106, R109, R110, R115) in a menu that is not a Skillet menu, when they break no rule: LOAD_W enters the
weight queue, FLIP and MATMUL the stream queue of each array of the gang, with their tiles as they stand at issue; LOAD_W fills the register
that is shadow after the flips issued so far, FLIP waits for the loads issued so far, and no byte of the die's memory changes. In a Skillet
menu (R163, R165) LOAD_W enters the weight queue of the array to which the stream of its group is bound, FLIP and MATMUL the stream queue of
the array of their stream. -/
def Obligations.ArrayWordsEnterQueues : Prop :=  ∀ (s : State) (d c t : Nat) (w : W64),
  (s.skilletOn d c = false → s.issues d c t w 1 0x10 = true → lowestCode (s.loadWBroken d c w) = none →
    ∃ u : State, exec (.loadW d c t w) s = .next u ∧ (u.die d).mem = (s.die d).mem ∧
      ∀ b ∈ gangArrays ((s.die d).gang c).mode (wField w 45 44), ∃ k : ArrCmd, ((u.die d).arr b).wq = ((s.die d).arr b).wq ++ [k] ∧
        k.op = .loadW ((s.die d).tile c (wField w 43 39)) (wBit w 38) ∧ k.lead = wField w 45 44 ∧
        k.target = ! ((s.die d).arr b).issueGen ∧ k.org = s.originOf d c t w) ∧
  (s.skilletOn d c = false → s.issues d c t w 1 0x11 = true → lowestCode (s.flipBroken d c w) = none →
    ∃ u : State, exec (.flip d c t w) s = .next u ∧ (u.die d).mem = (s.die d).mem ∧
      ∀ b ∈ gangArrays ((s.die d).gang c).mode (wField w 45 44), ∃ k : ArrCmd, ((u.die d).arr b).sq = ((s.die d).arr b).sq ++ [k] ∧
        k.op = .flip ((s.die d).arr b).loadsIssued ∧ ((u.die d).arr b).issueGen = ! ((s.die d).arr b).issueGen) ∧
  (s.skilletOn d c = false → s.issues d c t w 1 0x18 = true → lowestCode (s.matmulBroken d c w) = none →
    ∃ u : State, exec (.matmul d c t w) s = .next u ∧ (u.die d).mem = (s.die d).mem ∧
      ∀ b ∈ streamArrays ((s.die d).gang c).mode (wField w 45 44), ∃ k : ArrCmd, ((u.die d).arr b).sq = ((s.die d).arr b).sq ++ [k] ∧
        k.org = s.originOf d c t w ∧ k.op = .matmul ((s.die d).tile c (wField w 43 39)) ((s.die d).tile c (wField w 38 34))
          (if wBit w 27 then (s.die d).tile c (wField w 33 29) else {}) (wBit w 28) (wBit w 27) (wBit w 26) (wBit w 25) (wBit w 24)
          (wBit w 23) (wBit w 22)) ∧
  (∀ a, s.skilletOn d c = true → s.issues d c t w 1 0x10 = true → lowestCode (s.loadWBroken d c w) = none →
    ((s.die d).gang c).bindTo (wField w 45 44 % 2) = some a →
    ∃ (u : State) (k : ArrCmd), exec (.loadW d c t w) s = .next u ∧ (u.die d).mem = (s.die d).mem ∧
      ((u.die d).arr (2 * c + a)).wq = ((s.die d).arr (2 * c + a)).wq ++ [k] ∧ k.org = s.originOf d c t w ∧
      k.op = .loadW ((s.die d).tile c (wField w 43 39)) (wBit w 38) ∧ k.stream = wField w 45 44 % 2) ∧
  (∀ a, s.skilletOn d c = true → (((s.die d).gang c).stream (wField w 45 44 % 2)).array = some a →
    (s.issues d c t w 1 0x11 = true → lowestCode (s.flipBroken d c w) = none →
      ∃ (u : State) (k : ArrCmd), exec (.flip d c t w) s = .next u ∧ (u.die d).mem = (s.die d).mem ∧
        ((u.die d).arr (2 * c + a)).sq = ((s.die d).arr (2 * c + a)).sq ++ [k] ∧ k.org = s.originOf d c t w ∧
        k.op = .flip ((s.die d).arr (2 * c + a)).loadsIssued) ∧
    (s.issues d c t w 1 0x18 = true → lowestCode (s.matmulBroken d c w) = none →
      ∃ (u : State) (k : ArrCmd), exec (.matmul d c t w) s = .next u ∧ (u.die d).mem = (s.die d).mem ∧
        ((u.die d).arr (2 * c + a)).sq = ((s.die d).arr (2 * c + a)).sq ++ [k] ∧ k.org = s.originOf d c t w ∧
        k.op = .matmul ((s.die d).tile c (wField w 43 39)) ((s.die d).tile c (wField w 38 34))
          (if wBit w 27 then (s.die d).tile c (wField w 33 29) else {}) (wBit w 28) (wBit w 27) (wBit w 26) (wBit w 25) (wBit w 24)
          (wBit w 23) (wBit w 22)))

/-- Events of the arrays, for a command with any number of arrays. LOAD_W_START (R106, R108): a LOAD_W at the head of the weight queue of
each of its arrays, whose weight paths are free and whose register no earlier MATMUL in a stream queue still wants, with its leave granted
when it is heavy, leaves the queues and loads. LOAD_W_COMPLETE (R106, R110): the shadow register of each array holds that array's part of
the operand, and the register in use stands. FLIP_TAKE_EFFECT (R109): a FLIP at the head of the stream queue whose loads are complete swaps
the registers of the array. MATMUL_STREAM_START (R109, R115): a MATMUL at the head of the stream queue of each of its arrays, with its TEE
partner ready, no hazard of a Skillet stream, and its leave granted when it is heavy, leaves the queues and is in flight with the registers
in use. None of these changes a byte of the die's memory. MATMUL_COMPLETE (R103, R134, R136): the oldest MATMUL in flight at an array leaves
it, and no byte of the memories changes but the rows of Y and their scale bytes; when Y is not an MX tile and meets no FROZEN region (whose
bytes stay: log 183), each row of Y reads as the row of the product. Y has the rows that X streams, whole MX blocks, and WIDE elements only
with ACC, as MATMUL asks. -/
def Obligations.ArrayEventsComplete : Prop :=
  (∀ (s : State) (d a : Nat) (k : ArrCmd),
  (∀ t tr, ((s.die d).arr a).wq.head? = some k → k.op = .loadW t tr → k.lead = a → k.arrays.Nodup → (s.die d).headsWeights k = true →
    (s.die d).shadowFree k = true → (k.heavy = false ∨ (s.die d).leave.granted (2 + 2 * a) k.key = true) →
    ∃ u : State, exec (.loadWStart d a) s = .next u ∧ (u.die d).mem = (s.die d).mem ∧
      (∀ b ∈ k.arrays, ((u.die d).arr b).loading = ((s.die d).arr b).wq.head? ∧ ((u.die d).arr b).wq = ((s.die d).arr b).wq.drop 1) ∧
      (∀ b, b ∉ k.arrays → (u.die d).arr b = (s.die d).arr b)) ∧
  (∀ t tr, ((s.die d).arr a).loading = some k → k.op = .loadW t tr → k.lead = a → k.arrays.Nodup →
    (∀ b ∈ k.arrays, ((s.die d).arr b).loading.map ArrCmd.target = some (! ((s.die d).arr b).gen)) →
    ∃ u : State, exec (.loadWComplete d a) s = .next u ∧ (u.die d).mem.cells = (s.die d).mem.cells ∧
      (∀ p ∈ k.arrays.zipIdx, ((u.die d).arr p.1).loading = none ∧
        ((u.die d).arr p.1).loadsDone = ((s.die d).arr p.1).loadsDone + 1 ∧
        (if ((s.die d).arr p.1).gen then ((u.die d).arr p.1).regA else ((u.die d).arr p.1).regB) =
          loadContent (s.die d).mem.cells t tr k.gang p.2 ∧
        (if ((s.die d).arr p.1).gen then ((u.die d).arr p.1).regB = ((s.die d).arr p.1).regB
          else ((u.die d).arr p.1).regA = ((s.die d).arr p.1).regA)) ∧
      (∀ b, b ∉ k.arrays → (u.die d).arr b = (s.die d).arr b)) ∧
  (∀ n, ((s.die d).arr a).sq.head? = some k → k.op = .flip n → n ≤ ((s.die d).arr a).loadsDone →
    ∃ u : State, exec (.flipTakeEffect d a) s = .next u ∧ ((u.die d).arr a).gen = (! ((s.die d).arr a).gen) ∧
      ((u.die d).arr a).sq = ((s.die d).arr a).sq.drop 1 ∧ ((u.die d).arr a).regA = ((s.die d).arr a).regA ∧
      ((u.die d).arr a).regB = ((s.die d).arr a).regB ∧ (u.die d).mem = (s.die d).mem ∧ ∀ b, b ≠ a → (u.die d).arr b = (s.die d).arr b) ∧
  (((s.die d).arr a).sq.head? = some k → k.op.isMatmul = true → k.lead = a → k.arrays.Nodup → (s.die d).headsStreams k = true →
    (s.skilletOn d k.org.core = false ∨ (s.die d).skilletHazard k = false) →
    (s.die d).teeReady k = true → (k.heavy = false ∨ (s.die d).leave.granted (1 + 2 * a) k.key = true) →
    ∃ u : State, exec (.matmulStreamStart d a) s = .next u ∧ (u.die d).mem = (s.die d).mem ∧
      (∀ b ∈ k.arrays, ((u.die d).arr b).sq = ((s.die d).arr b).sq.drop 1) ∧
      ((u.die d).arr a).flights = ((s.die d).arr a).flights ++
        [{ cmd := k, regs := k.arrays.map (fun b => if ((s.die d).arr b).gen then ((s.die d).arr b).regB else ((s.die d).arr b).regA) }])) ∧
  (∀ (s : State) (d a : Nat) (stalls : List (Nat × Nat)) (f : Flight) (rest : List Flight) (xt y sd : Tile)
    (tr seed acc tee dig sr sat : Bool),
  ((s.die d).arr a).flights = f :: rest → f.cmd.op = .matmul xt y sd tr seed acc tee dig sr sat → (s.die d).teeDone f.cmd = true →
  y.rows = (if tr then xt.cols else xt.rows) → y.inPantry = true → (y.fmt = 11 → acc = true) → (isMX y.fmt = true → y.cols % 32 = 0) →
  ∃ u : State, exec (.matmulComplete d a stalls) s = .next u ∧ ((u.die d).arr a).flights = rest ∧ SameBytes d y.spans s u ∧
    (∀ e, e ≠ d → (u.die e).mem = (s.die e).mem) ∧
    (isMX y.fmt = false → (∀ p ∈ y.spans, (s.die d).mem.frozen p.1 p.2 = false) → ∀ r < y.rows, ∀ o : RowOut, (matmulRows (s.die d).mem.cells (s.die d).seed f)[r]? = some o →
      (u.die d).mem.cells.readN (y.rowAddr r) y.rowBytes = o.data))

/-- Each of the 32 vector operations (ADD, MUL, FMA, AXPBY, MAX, CONVERT, RELU, GELU, SILU, SWIGLU, RELU_BWD, GELU_BWD, SILU_BWD,
SWIGLU_BWD, ROW_SUM, ROW_MAX, ROW_SUMSQ, COL_SUM_ACC, ROW_ARGMAX, COL_DOT_ACC, LAYERNORM, RMSNORM, LAYERNORM_BWD, RMSNORM_BWD, SOFTMAX,
SOFTMAX_BWD, NORM_XHAT, SGD_MOM, ADAMW, LION, ORTHO, DIGEST_FEED), when it breaks no rule, enters the command queue of the core's vector
unit with its tiles and parameters as they stand at issue, and changes no byte of memory (R141 to R143, R146). -/
def Obligations.VectorWordsEnterQueue : Prop :=  ∀ (s : State) (d c t : Nat) (w : W64) (i : Instr) (op : Nat),
    (i, op) ∈
    ([(.add d c t w, 0x08), (.mul d c t w, 0x09), (.fma d c t w, 0x0A), (.axpby d c t w, 0x0B), (.max d c t w, 0x0C),
     (.convert d c t w, 0x10), (.relu d c t w, 0x14), (.gelu d c t w, 0x15), (.silu d c t w, 0x16), (.swiglu d c t w, 0x17),
     (.reluBwd d c t w, 0x1C), (.geluBwd d c t w, 0x1D), (.siluBwd d c t w, 0x1E), (.swigluBwd d c t w, 0x1F),
     (.rowSum d c t w, 0x20), (.rowMax d c t w, 0x21), (.rowSumsq d c t w, 0x22), (.colSumAcc d c t w, 0x23),
     (.rowArgmax d c t w, 0x24), (.colDotAcc d c t w, 0x25), (.layernorm d c t w, 0x28), (.rmsnorm d c t w, 0x29),
     (.layernormBwd d c t w, 0x2A), (.rmsnormBwd d c t w, 0x2B), (.softmax d c t w, 0x2C), (.softmaxBwd d c t w, 0x2D),
     (.normXhat d c t w, 0x2E), (.sgdMom d c t w, 0x30), (.adamw d c t w, 0x31), (.lion d c t w, 0x32), (.ortho d c t w, 0x34),
     (.digestFeed d c t w, 0x38)] : List (Instr × Nat)) →
    s.issues d c t w 2 op = true → lowestCode (s.vecBroken d c w op) = none →
    ∃ u : State, exec i s = .next u ∧ (u.die d).mem = (s.die d).mem ∧
      ((u.die d).vec c).queue = ((s.die d).vec c).queue ++ [(s.die d).vecCmd c w op (s.die d).nextKey (s.originOf d c t w)] ∧
      ((u.die d).vec c).params = ((s.die d).vec c).params ∧ (∀ e, e ≠ d → u.die e = s.die e)

/-- VEC_COMMAND_START (R152, R360): when no command runs, the command that the unit takes next (the head of its queue, or of the whisk's
submissions, alternately) starts with its leave granted when it is heavy, and no other state changes. VEC_COMMAND_COMPLETE: the running
command of a course writes the rows of Y, C and Z that it computes, narrowed to their formats, the unit runs no command, the command's tag
counts, and nothing of another die changes; the running command of the whisk ends. SET_PARAM writes one parameter register and completes at
issue (R143). -/
def Obligations.VectorEventsComplete : Prop :=
  (∀ (s : State) (d c : Nat) (k : VecCmd),
  (∀ ofWhisk, ((s.die d).vec c).running = none → ((s.die d).vec c).nextCmd = some (k, ofWhisk) →
    (k.heavy = false ∨ (s.die d).leave.granted (9 + c) k.key = true) → (ofWhisk = true → s.panel.kats.find d = none) →
    exec (.vecCommandStart d c) s = .next (s.modDie d (fun x => x.modVec c (fun v => { v with
      running := some k, lastOp := k.op, lastWhisk := ofWhisk,
      queue := if ofWhisk then v.queue else v.queue.drop 1, submitted := if ofWhisk then v.submitted.drop 1 else v.submitted })))) ∧
  (∀ out, ((s.die d).vec c).running = some k → k.bucket = none → k.compute (s.die d).mem.cells = out →
    ∃ u : State, exec (.vecCommandComplete d c) s = .next u ∧ ((u.die d).vec c).running = none ∧
      ((u.die d).vec c).queue = ((s.die d).vec c).queue ∧
      (u.die d).mem.cells = ((((s.die d).writeRows k.y (narrowRows k.y (s.die d).seed k.sr k.sat out.y)).writeRows k.c
        (narrowRows k.c (s.die d).seed k.sr k.sat out.c)).writeRows k.z (narrowRows k.z (s.die d).seed k.sr k.sat out.z)).mem.cells ∧
      (k.org.tag ≠ 0 → (((u.die d).seq k.org.core).thread k.org.thread).tags.getD k.org.tag 0 =
        min 1023 ((((s.die d).seq k.org.core).thread k.org.thread).tags.getD k.org.tag 0 + 1)) ∧
      (∀ e, e ≠ d → u.die e = s.die e)) ∧
  (∀ b, ((s.die d).vec c).running = some k → k.bucket = some b →
    ∃ u : State, exec (.vecCommandComplete d c) s = .next u ∧ ((u.die d).vec c).running = none ∧
      ((u.die d).vec c).queue = ((s.die d).vec c).queue)) ∧
  (∀ (s : State) (d c t : Nat) (w : W64), s.issues d c t w 2 1 = true → bodyOk w (maskOf 45 40 ||| maskOf 31 0) = true → wTicket w = 0 →
    ∃ u : State, exec (.setParam d c t w) s = .next u ∧
      ((u.die d).vec c).params.getD (wField w 45 40) 0 = wField w 31 0 ∧
      (∀ k, k ≠ wField w 45 40 → ((u.die d).vec c).params.getD k 0 = ((s.die d).vec c).params.getD k 0) ∧
      (u.die d).mem = (s.die d).mem ∧ (∀ e, e ≠ d → u.die e = s.die e))

/-- LDL_RUN (R198): a run joins the end of the command queue of its channel with its first descriptor, its count, the word that issued it,
and v, the signed counter of the thread when bit 8 is set and 0 otherwise; nothing else of the channels and no byte of the die's memories
changes. LDL_DESC_FETCH (R197): with fewer than 32 descriptors held and a cell admitted, the next descriptor of the oldest unfetched run
joins the fetched descriptors of its channel with no failure when its read is verified, and with GLAZE_FAULT or GATHER_FAULT when its block
or a granule has failed all its reads. Outside every region the ladle's code is LDL_REGION (R187); that the fetch is held as failed with
that code is the model's own choice (log 91). No byte of memory and no other die changes. -/
def Obligations.RunsReachTheLadle : Prop :=
  (∀ (s : State) (d c t : Nat) (w : W64), s.issues d c t w 3 1 = true → bodyOk w (maskOf 45 8) = true →
    wField w 43 24 + (wField w 23 12 + 1) ≤ (s.die d).ladle.descCount →
    ∃ u : State, exec (.ldlRun d c t w) s = .next u ∧ (u.die d).mem = (s.die d).mem ∧
      (∀ ch, ch ≠ wField w 45 44 → (u.die d).chan ch = (s.die d).chan ch) ∧
      ((u.die d).chan (wField w 45 44)).dq = ((s.die d).chan (wField w 45 44)).dq ∧
      ((u.die d).chan (wField w 45 44)).active = ((s.die d).chan (wField w 45 44)).active ∧
      ∃ r : LdlRun, ((u.die d).chan (wField w 45 44)).cq = ((s.die d).chan (wField w 45 44)).cq ++ [r] ∧
        r.org = s.originOf d c t w ∧ r.first = wField w 43 24 ∧ r.count = wField w 23 12 + 1 ∧ r.fetched = 0 ∧ r.doneN = 0 ∧
        r.v = (if wBit w 8 then signed 32 ((((s.die d).seq c).thread t).ctr.getD (wField w 11 9) 0) else 0)) ∧
  (∀ (s : State) (d ch : Nat) (r : LdlRun), ch < 4 → ((s.die d).chan ch).toFetch = some r → ((s.die d).queue ch).cells < 32 →
    ((s.die d).pool.admission ch 1 (r.key, r.first + r.fetched) s.fresh.1).2 = .admitted →
    ∃ u : State, exec (.ldlDescFetch d ch) s = .next u ∧ (u.die d).mem.cells = (s.die d).mem.cells ∧ OnlyDie d s u ∧
      ∃ f : LdlFetched, ((u.die d).chan ch).dq = ((s.die d).chan ch).dq ++ [f] ∧ f.run = r.key ∧ f.index = r.first + r.fetched ∧
        match (s.die d).mem.verifiedRead (.ladle ch) ((s.die d).ladle.descBase * 4096 + 64 * f.index) 64 with
        | .bytes _ => f.failCode = 0
        | .glaze _ => f.failCode = Code.glazeFault
        | .gather _ => f.failCode = Code.gatherFault
        | .noRegion _ => f.failCode = Code.ldlRegion)

/-- COPY, FILL and GATHER (R197, R202, R203, R205): a head descriptor of the command's kind that breaks no rule, whose order allows it, with
its leave granted when it is heavy, starts: it joins the descriptors in progress of its channel, the channel takes its next fetched
descriptor, and no other die changes. LDL_DESC_COMPLETE (R197, R204, R206): the oldest descriptor in progress, when all that it reads and
writes has been done, leaves its channel, and no byte of memory changes. When it was not stopped its run counts it, and the last one of a
run ends the run and counts the tag of its LDL_RUN; a stopped one counts nothing. -/
def Obligations.DescriptorsRun : Prop :=
  (∀ (s : State) (d ch k : Nat) (i : Instr) (f : LdlFetched) (run : LdlRun) (b : Desc),
    (i, k) ∈ [(Instr.copy d ch, 0), (Instr.fill d ch, 1), (Instr.gather d ch, 2)] →
    (s.die d).headDesc ch = some (f, run, b) → f.failCode = 0 → b.kind = k → lowestCode ((s.die d).descRules b run.v) = none →
    (b.order = true → ((s.die d).chan ch).active = []) → (∀ a ∈ ((s.die d).chan ch).active, a.walked = true ∧ a.key ≠ descKey f.run f.index) →
    ((s.die d).descHeavy b run.v = false ∨ (s.die d).leave.granted (11 + ch) (descKey f.run f.index) = true) →
    ∃ (u : State) (a : LdlActive), exec i s = .next u ∧ ((u.die d).chan ch).active = ((s.die d).chan ch).active ++ [a] ∧
      a.desc = b ∧ a.run = f.run ∧ a.index = f.index ∧ a.v = run.v ∧
      ((u.die d).chan ch).cq = ((s.die d).chan ch).cq ∧ ((u.die d).chan ch).curDesc = f.index ∧
      (∀ e rest g, ((s.die d).chan ch).dq = e :: rest → ((s.die d).queue ch).items.head? = some g →
        ((u.die d).chan ch).head = some { entry := e, desc := g.data } ∧ ((u.die d).chan ch).dq = rest) ∧
      (((s.die d).chan ch).dq = [] → ((u.die d).chan ch).head = none) ∧
      (∀ e, e ≠ d → u.die e = s.die e)) ∧
  (∀ (s : State) (d ch : Nat) (a : LdlActive) (rest : List LdlActive) (r : LdlRun),
    ((s.die d).chan ch).active = a :: rest → a.walked = true → a.kilnWrites = 0 → a.requests = 0 →
    ((s.die d).chan ch).cq.find? (fun q => q.key = a.run) = some r →
    ∃ u : State, exec (.ldlDescComplete d ch) s = .next u ∧ ((u.die d).chan ch).active = rest ∧ (u.die d).mem = (s.die d).mem ∧
      (a.stopped = true → ((u.die d).chan ch).cq = ((s.die d).chan ch).cq ∧ (u.die d).seqs = (s.die d).seqs) ∧
      (a.stopped = false → r.doneN + 1 < r.count → ((u.die d).chan ch).cq =
        ((s.die d).chan ch).cq.map (fun q => if q.key = a.run then { q with doneN := q.doneN + 1 } else q)) ∧
      (a.stopped = false → r.count ≤ r.doneN + 1 → ((u.die d).chan ch).cq = ((s.die d).chan ch).cq.filter (fun q => q.key ≠ a.run) ∧
        (r.org.tag ≠ 0 → (((u.die d).seq r.org.core).thread r.org.thread).tags.getD r.org.tag 0 =
          min 1023 ((((s.die d).seq r.org.core).thread r.org.thread).tags.getD r.org.tag 0 + 1))))

/-- A FILL of one row, and a COPY of one row that lies within a block, from and to the pantry of the die (R200, R201): the memory is that of
the die with the row written to its destination, so no other byte changes. -/
def Obligations.PantryRowsLand : Prop :=  ∀ (s : State) (d ch src dst : Nat) (f : LdlFetched) (run : LdlRun) (b : Desc),
    (s.die d).headDesc ch = some (f, run, b) → f.failCode = 0 → lowestCode ((s.die d).descRules b run.v) = none →
    ((s.die d).chan ch).active = [] → b.len1m1 = 0 → b.len2m1 = 0 → b.len3m1 = 0 → 0 < b.len0 →
    ((s.die d).sideOf b run.v false).isGlobal = false → ((s.die d).sideOf b run.v false).start = (dst : Int) →
    spanPlace dst b.len0 = some .pantry →
    (b.kind = 1 → ∃ u : State, exec (.fill d ch) s = .next u ∧
      (u.die d).mem.cells = (s.die d).mem.cells.write dst (fillBytes b.src dst b.len0)) ∧
    (b.kind = 0 → ((s.die d).sideOf b run.v true).isGlobal = false → ((s.die d).sideOf b run.v true).start = (src : Int) →
      spanPlace src b.len0 = some .pantry → src % 4096 + b.len0 ≤ 4096 →
      ∃ u : State, exec (.copy d ch) s = .next u ∧
        (u.die d).mem.cells = (s.die d).mem.cells.write dst ((s.die d).mem.cells.readN src b.len0))

/-- A byte written reads back, every other byte reads as before, and the memory stays in its canonical form. KILN_WRITE (R184, R189, R191):
the oldest write of its kiln ends; that it is the oldest write of the kiln, and not only of its block, is the model's own choice (log 97).
In a region without GATHER a whole block, or a merge into a block that matches its tag and has not failed all its reads, writes the block
and the tag of its new contents; another merge leaves memory as it is. A block of a FROZEN region stays as it is (R188; that the writing
unit goes on is the model's own choice, log 183). Then the unit that asked for the write hears how it ended; for a ladle or the sieve that
changes no byte of memory and no other die. Verified reads (R180, R192, R193, R195). GLAZE_BLOCK_READ for a sequencer and
GATHER_GRANULE_READ for the fabric: a read that matches ends the consumer's count of failed reads of the block or granule, one that does not
raises it by one, and no byte of memory changes. PANTRY_READ of a word without errors: with no bit changed nothing of the dies and the panel
changes; one changed bit is corrected and counted, the stored word keeps its error, and memory reads as before; more make the word
uncorrectable, which is counted, and change no byte outside the word; that its bits stay wrong until it is written is the model's own choice
(log 94). -/
def Obligations.MemoryKeepsItsBlocks : Prop :=
  (∀ (m : Mem) (a k : Nat) (bs : Bytes), m.wf = true → (m.write a bs).wf = true ∧
    (m.write a bs).read k = (if a ≤ k ∧ k < a + bs.length then bs.getD (k - a) 0 else m.read k)) ∧
  (∀ (s : State) (d : Nat) (larder : Bool) (q : KilnReq) (rest : List KilnReq) (r : Region), (s.die d).mem.kiln larder = q :: rest →
    (s.die d).mem.regionOf q.block 4096 = some r → r.gather = false →
    ∃ (z : Die) (res : KilnResult), exec (.kilnWrite d larder) s = .next ((s.setDie d z).kilnEnded d larder q res) ∧
      z.mem.kiln larder = rest ∧ z.mem.kiln (! larder) = (s.die d).mem.kiln (! larder) ∧
      (if (s.die d).mem.frozen q.block 4096 then res = .frozen ∧ z.mem.cells = (s.die d).mem.cells
      else if wholeBlock q.pieces || ((s.die d).mem.blockMatches r q.block && decide ((s.die d).mem.failCount .kiln q.block < 3)) then
        res = .written ∧ z.mem.cells =
          ((s.die d).mem.cells.write q.block (patch ((s.die d).mem.cells.readN q.block 4096) q.pieces)).write (tagAddr q.block)
            (tagFor r q.block (patch ((s.die d).mem.cells.readN q.block 4096) q.pieces))
      else res = .glaze ∧ z.mem.cells = (s.die d).mem.cells) ∧
      ((q.owner = .sieve ∨ ∃ ch key, q.owner = .ladle ch key) →
        ((((s.setDie d z).kilnEnded d larder q res).die d).mem.cells = z.mem.cells) ∧
        ∀ e, e ≠ d → ((s.setDie d z).kilnEnded d larder q res).die e = s.die e)) ∧
  (∀ (s : State) (d : Nat),
  (∀ (c addr : Nat) (upset : Option (Nat × Byte)) (r : Region), (s.die d).mem.regionOf addr 4096 = some r → addr % 4096 = 0 →
    placeOf addr ≠ .pantry → r.gather = false → (s.die d).mem.failCount (.sequencer c) addr < 3 →
    ∃ u : State, exec (.glazeBlockRead d (.sequencer c) addr upset) s = .next u ∧ (u.die d).mem.cells = (s.die d).mem.cells ∧
      (u.die d).mem.failCount (.sequencer c) addr =
        (let got := upsetBytes ((s.die d).mem.cells.readN addr 4096 ++ (s.die d).mem.cells.readN (tagAddr addr) 8) upset
         if got.drop 4096 = tagFor r addr (got.take 4096) then 0 else (s.die d).mem.failCount (.sequencer c) addr + 1)) ∧
  (∀ (addr : Nat) (upset : Option (Nat × Byte)) (r : Region), (s.die d).mem.regionOf addr 32 = some r → addr % 32 = 0 →
    placeOf addr ≠ .pantry → r.gather = true → (s.die d).mem.failCount .fabric addr < 3 →
    ∃ u : State, exec (.gatherGranuleRead d .fabric addr upset) s = .next u ∧ (u.die d).mem.cells = (s.die d).mem.cells ∧
      (u.die d).mem.failCount .fabric addr =
        (let got := upsetBytes ((s.die d).mem.cells.readN addr 32 ++
            (s.die d).mem.cells.readN (r.crcBase * 4096 + 2 * ((addr - r.start) / 32)) 2) upset
         if leNat 2 (got.drop 32) = crc16 (got.take 32) then 0 else (s.die d).mem.failCount .fabric addr + 1)) ∧
  (∀ c addr, placeOf addr = .pantry → (s.die d).mem.panSingle = [] → (s.die d).mem.panBad = [] →
    (∃ u : State, exec (.pantryRead d c addr 0) s = .next u ∧ SameDies s u ∧ u.panel = s.panel) ∧
    (∃ u : State, exec (.pantryRead d c addr 1) s = .next u ∧ (u.die d).mem.cells = (s.die d).mem.cells ∧ OnlyDie d s u ∧
      (u.die d).mem.panCorrected = satAdd 32 (s.die d).mem.panCorrected 1 ∧ (u.die d).mem.panSingle = [addr / 8]) ∧
    (∃ u : State, exec (.pantryRead d c addr 2) s = .next u ∧ SameBytes d [(addr / 8 * 8, 8)] s u ∧
      (u.die d).mem.panUncorrectable = satAdd 16 (s.die d).mem.panUncorrectable 1 ∧ (u.die d).mem.panBad = [addr / 8])))

/-- QPL_ITEM_COMPLETE (R213, R222): the item of a queue whose last cell was written first joins the complete items, when no thread waits in
TAKE for the queue; in a queue with CONSUMER THREAD, or below BATCH, it stands there; a UNIT or HEARTH consumer at BATCH is signalled.
IDLE_TIMER_FIRE (R222): with IDLE_TO not zero, complete items, and no event since the last take, the event is counted once; the items stand,
but that a UNIT or HEARTH consumer with IDLE_ACT wake is signalled and takes them (the model's choice, log 190). FLUSH (R224, R226): the
queue is empty, its complete and partial items are counted, and no other queue changes; queues 36 to 63 ignore it. -/
def Obligations.QueueRowsComplete : Prop :=  ∀ (s : State) (d q : Nat),
  (∀ i rest, 4 ≤ q → ((s.die d).queue q).written = i :: rest →
    (∀ c t pan n own word, (((s.die d).seq c).thread t).wait ≠ .take q pan n own word) →
    ∃ u : State, exec (.qplItemComplete d q) s = .next u ∧ OnlyDie d s u ∧ ((u.die d).queue q).written = rest ∧
      (((s.die d).queue q).consumer = 0 ∨ ((s.die d).queue q).items.length + 1 < ((s.die d).queue q).batch →
        ((u.die d).queue q).items = ((s.die d).queue q).items ++ [i]) ∧
      (((s.die d).queue q).consumer ≠ 0 → ((s.die d).queue q).batch ≤ ((s.die d).queue q).items.length + 1 →
        ((u.die d).queue q).signalled = true)) ∧
  (d < 52 → ((s.die d).queue q).idleTo ≠ 0 → ((s.die d).queue q).items ≠ [] → ((s.die d).queue q).fired = false →
    ∃ u : State, exec (.idleTimerFire d q) s = .next u ∧ (u.die d).mem = (s.die d).mem ∧
      ((u.die d).queue q).idleEvents = satAdd 16 ((s.die d).queue q).idleEvents 1 ∧
      (if ((s.die d).queue q).idleAct = 1 ∧ ((s.die d).queue q).consumer ≠ 0 then
        ((u.die d).queue q).signalled = true ∧ ((u.die d).queue q).items = []
      else ((u.die d).queue q).fired = true ∧ ((u.die d).queue q).items = ((s.die d).queue q).items)) ∧
  (q < 36 ∨ (64 ≤ q ∧ q < 1024) →
    ∃ u : State, exec (.flush d q) s = .next u ∧ OnlyDie d s u ∧ ((u.die d).queue q).items = [] ∧ ((u.die d).queue q).written = [] ∧
      ((u.die d).queue q).parts = [] ∧ ((u.die d).queue q).cells = 0 ∧
      ((u.die d).queue q).flushedItems = satAdd 16 ((s.die d).queue q).flushedItems
        (((s.die d).queue q).items.length + ((s.die d).queue q).written.length) ∧
      ((u.die d).queue q).flushedPartial = satAdd 16 ((s.die d).queue q).flushedPartial ((s.die d).queue q).parts.length ∧
      (∀ k, k ≠ q → (u.die d).queue k = (s.die d).queue k)) ∧
  (36 ≤ q → q < 64 → exec (.flush d q) s = .next s)

/-- Admission to the pool (R212, R216), whatever cells the free value `k` chooses: an item is admitted only to an enabled queue, within
MAX_ITEM and MAX, and gets `n` cells; no other queue changes; and whatever the answer, the cells of the pool stay within 65,536 and the
cells that are free cover what is still reserved. -/
def Obligations.AdmissionKeepsPool : Prop :=  ∀ (p : Pool) (qn n : Nat) (key : Nat × Nat) (k : Nat),
    ((p.admission qn n key k).2 = .admitted → (p.queues.getD qn {}).enable = true ∧ n ≤ (p.queues.getD qn {}).maxItemM1 + 1 ∧
      (p.queues.getD qn {}).cells + n ≤ (p.queues.getD qn {}).max ∧
      (((p.admission qn n key k).1).queues.getD qn {}).cells = (p.queues.getD qn {}).cells + n) ∧
    (∀ j, j ≠ qn → ((p.admission qn n key k).1).queues.getD j {} = p.queues.getD j {}) ∧
    (p.Ok → ((p.admission qn n key k).1).Ok)

/-- The pair state machine (R244, R248): PAIR_GO_DARK, PAIR_ENTER_SAFE, CALL, CALL_END, LIGHT_PRESENT, ANSWER_HEARD, TRAINING_COMPLETE,
TRAINING_TIMEOUT, LOSS_OF_LIGHT and LINK_REPLAY_EXHAUSTED take their transitions. Event 1 takes precedence: the others are stated of a pair
that it does not darken. A pair's mark that it faces another port than its neighbour (R267) is left out. TRAINING_COMPLETE (R245) needs the
map that the far end has asked for and a good frame on the final map of the other direction, of lanes that the receiver has accepted: at
least one lane in each direction, none of them retired in the transmit map. That ANSWER takes the place of a CALL under way is the model's
own choice (log 209). PAIR_GO_DARK and TRAINING_COMPLETE change no other pair. -/
def Obligations.PairTransitions : Prop :=  ∀ (s : State) (d p : Nat),
  (s.darkens d p = true → (s.pair d p).state ≠ .dark → ∃ u : State, exec (.pairGoDark d p) s = .next u ∧
    u.pair d p = { (s.pair d p).unlink with state := .dark, emission := .none, answered := false, mismatch := (u.pair d p).mismatch } ∧
    ∀ e q, (e, q) ≠ (d, p) → u.pair e q = { s.pair e q with mismatch := (u.pair e q).mismatch }) ∧
  (∀ ph, s.darkens d p = false → (s.pair d p).state = .dark → exec (.pairEnterSafe d p ph) s = .next (s.modPair d p (fun k =>
    { k with state := .safe, emission := .none, answered := false, callPhase := ph }))) ∧
  (s.darkens d p = false → (s.pair d p).state = .safe → (s.pair d p).emission = .none →
    exec (.call d p) s = .next (s.modPair d p (fun k => { k with emission := .call }))) ∧
  ((s.pair d p).emission = .call → exec (.callEnd d p) s = .next (s.modPair d p (fun k => { k with emission := .none }))) ∧
  (s.darkens d p = false → (s.pair d p).state = .safe → exec (.lightPresent d p) s = .next (s.modPair d p (fun k =>
    { k with light := true, emission := .answer, answered := true }))) ∧
  (∀ full, s.darkens d p = false → (s.pair d p).state = .safe →
    (if full then (s.pair d p).answered = true else (s.pair d p).emission ≠ .none) →
    exec (.answerHeard d p full) s = .next (s.modPair d p (fun k =>
      { k with state := .light, emission := .none, answered := false, light := true }))) ∧
  (∀ tx rx, s.darkens d p = false → (s.pair d p).state = .light → tx < 65536 → rx < 65536 → tx ≠ 0 → rx ≠ 0 →
    tx &&& (s.port (portOf d p)).retired = 0 → (s.pair d p).asked = some tx → (s.pair d p).trained = some rx →
    rx &&& (s.pair d p).rxWant.getD 0 = rx →
    ∃ u : State, exec (.trainingComplete d p tx rx) s = .next u ∧
    u.pair d p = { (s.pair d p).fresh with
      state := .run, txLanes := tx, rxLanes := rx, trainFails := 0, trainNoticed := false, mismatch := (u.pair d p).mismatch } ∧
    ∀ e q, (e, q) ≠ (d, p) → u.pair e q = { s.pair e q with mismatch := (u.pair e q).mismatch }) ∧
  (s.darkens d p = false → (s.pair d p).state = .light → ∃ u : State, exec (.trainingTimeout d p) s = .next u ∧ (u.pair d p).state = .safe ∧
    (u.pair d p).trainFails = (s.pair d p).trainFails + 1 ∧
    (u.pair d p).trainFailCount = satAdd 16 (s.pair d p).trainFailCount 1 ∧
    (if 3 ≤ (s.pair d p).trainFails + 1 ∧ (s.pair d p).trainNoticed = false then u.panel.logged = s.panel.logged + 1
     else u.panel = s.panel)) ∧
  (s.darkens d p = false → ((s.pair d p).state = .light ∨ (s.pair d p).lit = true) →
    ∃ u : State, exec (.lossOfLight d p) s = .next u ∧
    (u.pair d p).state = .safe ∧ (u.pair d p).light = false ∧ (u.pair d p).emission = .none ∧
    (u.pair d p).safetyTrips = satAdd 16 (s.pair d p).safetyTrips 1 ∧ (u.pair d p).kept = [] ∧
    (u.pair d p).linkLosts = (if (s.pair d p).lit then satAdd 16 (s.pair d p).linkLosts 1 else (s.pair d p).linkLosts)) ∧
  (s.darkens d p = false → (s.pair d p).state = .run → 8 ≤ (s.pair d p).replays →
    ∃ u : State, exec (.linkReplayExhausted d p) s = .next u ∧
    (u.pair d p).state = .light ∧ (u.pair d p).kept = [] ∧ (u.pair d p).linkLosts = satAdd 16 (s.pair d p).linkLosts 1)

/-- Quiet windows and lanes of a pair that event 1 does not darken (R246, R247, R252, R255). PAUSE_START: in an agreed window a pair in RUN
is PAUSED, and its receiver has lost its lock when the window is the far end's. PAUSE_END: past its windows a PAUSED pair runs on with its
kept flits and the announced transmit map whose turn has come, or trains again when it has not relocked; a window that this end has asked
for and whose turn is still to come is kept. RELOCK_COMPLETE: within its window a receiver sends an idle frame; past it, it trains again.
LANE_MAP_CHANGE: the last announced map of a direction whose turn has come takes effect, and the later ones still wait. LANE_DROP: the
receiver asks for its map without the lane, unless it is the map's last (the model's choice, log 199). -/
def Obligations.QuietWindowsAndLanes : Prop :=  ∀ (s : State) (d p : Nat), s.darkens d p = false →
  ((s.pair d p).state = .run → (s.pair d p).quiet s.turn = true →
    exec (.pauseStart d p) s = .next (s.modPair d p (fun k => { k with
      state := .paused, unlocked := k.windows.any (fun w => w.2.2 && quietNow w s.turn) }))) ∧
  ((s.pair d p).state = .paused → (s.pair d p).quiet s.turn = false → (s.pair d p).unlocked = false →
    ∃ u : State, exec (.pauseEnd d p) s = .next u ∧ (u.pair d p).state = .run ∧
      (u.pair d p).pause = (if (s.pair d p).pause.any (fun w => turnCome w.1 s.turn) then none else (s.pair d p).pause) ∧
      (u.pair d p).kept = (s.pair d p).kept ∧
      (u.pair d p).txLanes = lastMap ((s.pair d p).txSet.filter (fun m => turnCome m.2 s.turn)) (s.pair d p).txLanes) ∧
  ((s.pair d p).state = .paused → (s.pair d p).quiet s.turn = false → (s.pair d p).unlocked = true →
    ∃ u : State, exec (.pauseEnd d p) s = .next u ∧ (u.pair d p).state = .light ∧ (u.pair d p).kept = [] ∧
      (u.pair d p).linkLosts = satAdd 16 (s.pair d p).linkLosts 1) ∧
  ((s.pair d p).lit = true → (∃ (u : State) (f : IdleFrame), exec (.relockComplete d p true) s = .next u ∧
      u.outbox = s.outbox ++ [.idle d p f] ∧ (u.pair d p).unlocked = false ∧ (u.pair d p).state = (s.pair d p).state) ∧
    ∃ u : State, exec (.relockComplete d p false) s = .next u ∧ (u.pair d p).state = .light ∧ (u.pair d p).kept = []) ∧
  ((s.pair d p).state = .run →
    exec (.laneMapChange d p true) s = .next (s.modPair d p (fun k => { k with
      rxLanes := lastMap (k.rxSet.filter (fun m => turnCome m.2 s.turn)) k.rxLanes,
      rxSet := k.rxSet.filter (fun m => ! turnCome m.2 s.turn) })) ∧
    exec (.laneMapChange d p false) s = .next (s.modPair d p (fun k => { k with
      txLanes := lastMap (k.txSet.filter (fun m => turnCome m.2 s.turn)) k.txLanes,
      txSet := k.txSet.filter (fun m => ! turnCome m.2 s.turn) }))) ∧
  (∀ lane m, (s.pair d p).lit = true → (s.pair d p).rxLanes.testBit lane = true →
    m = setBit ((s.pair d p).rxWant.getD (lastMap (s.pair d p).rxSet (s.pair d p).rxLanes)) lane false → m ≠ 0 →
    ∃ (u : State) (f : IdleFrame), exec (.laneDrop d p lane) s = .next u ∧ (u.pair d p).rxWant = some m ∧
      u.outbox = s.outbox ++ [.idle d p f] ∧ f.laneReq = true ∧ f.laneNext = m)

/-- FLIT_SEND (R240, R241, R245, R278, R281, R292, R293, R311). In training and in a quiet window, and in RUN when 1,024 data flits have
gone out without one, when the replay buffer is full, or when nothing waits, an idle frame leaves. In RUN otherwise: a replay sends the kept
flits again in order; the packet that the arbitration picks leaves as a flit with the next number, its TTL one lower, and is kept until it
is acknowledged, and it leaves the die's buffers; one that has grown too old in a buffer is dropped and counted; credits alone leave in a
NULL flit. No packet leaves over a port treated as absent (R267, R268) or a die that carries none (R48, R436). -/
def Obligations.FlitSendNumbersAndKeeps : Prop :=  ∀ (s : State) (d p : Nat),
  ((s.pair d p).state = .light ∨ (s.pair d p).state = .paused → (s.port (portOf d p)).gap = false →
    ∃ (u : State) (f : IdleFrame), exec (.flitSend d p) s = .next u ∧ u.outbox = s.outbox ++ [.idle d p f]) ∧
  ((s.pair d p).state = .run →
    (1024 ≤ (s.pair d p).sinceIdle ∨ ((s.pair d p).resend = none ∧ 8192 ≤ (s.pair d p).kept.length) ∨
      ((s.pair d p).resend = none ∧ ((s.die d).eligible d p = [] ∨ s.carries d = false ∨ (s.port (portOf d p)).faces = false) ∧ (s.pair d p).oweShared = 0 ∧ (s.pair d p).owe.any (fun e => e.2 ≠ 0) = false)) →
    ∃ (u : State) (f : IdleFrame), exec (.flitSend d p) s = .next u ∧ u.outbox = s.outbox ++ [.idle d p f] ∧ (u.pair d p).sinceIdle = 0) ∧
  (∀ i f, (s.pair d p).state = .run → (s.pair d p).sinceIdle < 1024 → (s.pair d p).resend = some i → (s.pair d p).kept[i]? = some f →
    ∃ u : State, exec (.flitSend d p) s = .next u ∧ u.outbox = s.outbox ++ [.flit d p f.seq f.link f.body] ∧
      (u.pair d p).kept = (s.pair d p).kept ∧ (u.pair d p).txNext = (s.pair d p).txNext ∧
      (u.pair d p).resend = (if i + 1 < (s.pair d p).kept.length then some (i + 1) else none)) ∧
  (∀ c left i h, s.carries d = true → (s.port (portOf d p)).faces = true → (s.pair d p).state = .run → (s.pair d p).sinceIdle < 1024 → (s.pair d p).resend = none → (s.pair d p).kept.length < 8192 →
    arbClass (s.die d).fab.weight (fun c => ((s.die d).eligible d p).any (fun h => h.2.pkt.cls = c)) 5
      ((s.die d).fab.arb.getD p (0, (s.die d).fab.weight 0)).1 ((s.die d).fab.arb.getD p (0, (s.die d).fab.weight 0)).2 = some (c, left) →
    pickWithin (fun h => h.outV % 8) ((s.die d).fab.exitRr.getD (100 + 4 * p + c) 0)
      (((s.die d).eligible d p).filter (fun h => h.2.pkt.cls = c)) = some (i, h) →
    (tooOld s.turn h.pkt = false ∨ h.from_ = .inject →
      ∃ (u : State) (l : LinkWord), exec (.flitSend d p) s = .next u ∧ l.isNull = false ∧
        u.outbox = s.outbox ++ [.flit d p (s.pair d p).txNext l (some { h.pkt with phase := h.outV % 8, ttl := h.pkt.ttl - 1 })] ∧
        (u.pair d p).kept = (s.pair d p).kept ++
          [{ seq := (s.pair d p).txNext, link := l, body := some { h.pkt with phase := h.outV % 8, ttl := h.pkt.ttl - 1 } }] ∧
        (u.pair d p).txNext = ((s.pair d p).txNext + 1) % 65536 ∧ (u.die d).fab.held = (s.die d).fab.held.eraseIdx i) ∧
    (tooOld s.turn h.pkt = true → h.from_ ≠ .inject →
      ∃ u : State, exec (.flitSend d p) s = .next u ∧ u.outbox = s.outbox ∧ (u.die d).fab.held = (s.die d).fab.held.eraseIdx i ∧
        (u.die d).rem.aged = satAdd 16 (s.die d).rem.aged 1)) ∧
  ((s.pair d p).state = .run → (s.pair d p).sinceIdle < 1024 → (s.pair d p).resend = none → (s.pair d p).kept.length < 8192 →
    (s.die d).eligible d p = [] → (s.pair d p).oweShared ≠ 0 →
    ∃ (u : State) (l : LinkWord), exec (.flitSend d p) s = .next u ∧ l.isNull = true ∧ l.sharedN = min (s.pair d p).oweShared 63 ∧
      u.outbox = s.outbox ++ [.flit d p (s.pair d p).txNext l none] ∧
      (u.pair d p).oweShared = (s.pair d p).oweShared - min (s.pair d p).oweShared 63 ∧
      (u.pair d p).txNext = ((s.pair d p).txNext + 1) % 65536)

/-- FLIT_RECEIVE over a lit pair that is not discarding and skips nothing (R239, R241, R277, R278, R280): a good flit with a packet is
delivered once, without a route, and the next number is expected; one with a codeword that could not be corrected, or whose CRC does not
match, starts discarding and is answered with a NAK, and delivers nothing; the codewords count either way. A die that carries no packets
(R48, R436) takes none; that the flit still counts and its slot frees is the model's own choice (log 210). IDLE_FRAME_RECEIVE (R240, R241,
R242): over a lit pair a good frame without NAK frees the kept flits that it acknowledges, one with REPLAY ends discarding and sets how many
flits are skipped, and its beacon is recorded with its stamps; one with NAK starts a replay from NAK_SEQ, which is counted and announced,
also when no kept flit has that number; a bad frame is answered with an idle frame. REPLAY_TIMEOUT: a replay starts from the oldest kept
flit, and is counted and announced. NAK_RESEND: while it discards, a pair repeats its NAK. -/
def Obligations.LinkDeliversOnce : Prop :=
  (∀ (s : State) (d p corrected uncorrectable : Nat) (flit : Bytes), (s.pair d p).lit = true → flit.length = 256 →
    (s.pair d p).discarding = false → (s.pair d p).skip = 0 → (s.pair d p).expected < 65536 →
  (uncorrectable = 0 → leAt flit 252 4 = flitCrc (s.pair d p).expected (flit.take 252) → (LinkWord.decode (leAt flit 0 4)).isNull = false →
    (Packet.decode ((flit.take 252).drop 4)).odd = false →
   (s.carries d = false → ∃ u : State, exec (.flitReceive d p flit corrected uncorrectable) s = .next u ∧
      (u.die d).fab.held = (s.die d).fab.held ∧ (u.pair d p).expected = ((s.pair d p).expected + 1) % 65536) ∧
   (s.carries d = true → ∃ (u : State) (h : Held), exec (.flitReceive d p flit corrected uncorrectable) s = .next u ∧
      (u.die d).fab.held = (s.die d).fab.held ++ [h] ∧ h.port = portOf d p ∧ h.route = none ∧
      (∃ m, h.pkt = { Packet.decode ((flit.take 252).drop 4) with mark := m }) ∧
      (u.pair d p).expected = ((s.pair d p).expected + 1) % 65536 ∧
      (u.pair d p).fecCorrected = satAdd 32 (s.pair d p).fecCorrected corrected ∧ (∀ e, e ≠ d → u.die e = s.die e))) ∧
  (uncorrectable ≠ 0 ∨ leAt flit 252 4 ≠ flitCrc (s.pair d p).expected (flit.take 252) →
    ∃ (u : State) (f : IdleFrame), exec (.flitReceive d p flit corrected uncorrectable) s = .next u ∧ (u.pair d p).discarding = true ∧
      u.outbox = s.outbox ++ [.idle d p f] ∧ f.nak = true ∧ f.nakSeq = (s.pair d p).expected ∧
      (u.pair d p).expected = (s.pair d p).expected ∧ (u.die d).fab = (s.die d).fab ∧
      (u.pair d p).fecUncorrectable = satAdd 16 (s.pair d p).fecUncorrectable uncorrectable)) ∧
  (∀ (s : State) (d p : Nat),
  (∀ frame stamp f, (s.pair d p).lit = true → IdleFrame.decode frame = some f → f.nak = false →
    ∃ u : State, exec (.idleFrameReceive d p frame stamp) s = .next u ∧
      (u.pair d p).kept = ((s.pair d p).acked f.ackSeq).kept ∧
      (f.replay = true → (u.pair d p).discarding = false ∧ (u.pair d p).skip = ((s.pair d p).expected + 65536 - f.txNext) % 65536) ∧
      u.panel.time.beacons.find (portOf d p) = (if f.hasBeacon then
        some (Beacon.of f d p s.turn stamp (s.panel.time.sent.find (8 * d + p)) s.fresh.1)
        else s.panel.time.beacons.find (portOf d p))) ∧
  (∀ frame stamp f, (s.pair d p).state = .run → IdleFrame.decode frame = some f → f.nak = true →
    ∃ (u : State) (g : IdleFrame), exec (.idleFrameReceive d p frame stamp) s = .next u ∧
      (u.pair d p).replayCount = satAdd 16 (s.pair d p).replayCount 1 ∧ Output.idle d p g ∈ u.outbox ∧ g.replay = true ∧
      g.txNext = f.nakSeq) ∧
  (∀ frame stamp, (s.pair d p).lit = true → IdleFrame.decode frame = none →
    ∃ (u : State) (f : IdleFrame), exec (.idleFrameReceive d p frame stamp) s = .next u ∧ u.outbox = s.outbox ++ [.idle d p f] ∧
      (u.pair d p).kept = (s.pair d p).kept ∧ (u.pair d p).expected = (s.pair d p).expected) ∧
  (∀ f rest, (s.pair d p).state = .run → (s.pair d p).kept = f :: rest →
    ∃ (u : State) (g : IdleFrame), exec (.replayTimeout d p) s = .next u ∧ (u.pair d p).resend = some 0 ∧
      (u.pair d p).replays = (s.pair d p).replays + 1 ∧ (u.pair d p).replayCount = satAdd 16 (s.pair d p).replayCount 1 ∧
      u.outbox = s.outbox ++ [.idle d p g] ∧ g.replay = true ∧ g.txNext = f.seq) ∧
  ((s.pair d p).lit = true → (s.pair d p).discarding = true →
    ∃ (u : State) (f : IdleFrame), exec (.nakResend d p) s = .next u ∧ u.outbox = s.outbox ++ [.idle d p f] ∧ f.nak = true ∧
      f.nakSeq = (s.pair d p).expected ∧ (u.pair d p).kept = (s.pair d p).kept))

/-- A switchover of a port (R252, R254, R492). SWITCHOVER_WINDOW_CHECK at the tick of T − 2: the window stands when every lit pair that was
asked has answered; otherwise T + 16 is proposed, and after the fourth refusal the change is made without a window. SOURCE_SWITCH: after a
window that stands, at T + 1, or without one, the feed goes dark. SOURCE_SWITCH_DONE: the STANDBY spare feeds the port, the gap and the
switchover are over, and the replaced source is FAILED, or OFF after a press of its button, or STANDBY when its port's own bay takes its
place; no other port changes. It is stated of bays of which none has a press that waits, and of a port whose own bay is not STANDBY. Laser
modules and contacts (R232, R250, R253, R254, R257, R258, R260, R492). PRESENCE_CHANGE: a contact that closes is stored; one that opens
holds every pair of the port DARK and HOST down. LSM_INSERT: a module in an empty bay is QUALIFY. LSM_QUALIFIED: a module of the right type
in bays 0 to 7 becomes STANDBY, and that it then feeds its port at once when that has no source is the model's own choice (log 102); one in
bay 8 or 9 is STANDBY while every port is fed. LSM_FAILED, of a module that no switchover is to take over: one that feeds nothing is FAILED,
but that one in OFF stays OFF, and that neither raises a notice is the model's own choice (log 101); when it feeds a port and no press
waits, a free spare feeds the port at once, or the port has no source and the failure is logged. SERVICE_BUTTON_PRESS: a STANDBY module is
OFF. HOST_LINK_CHANGE: HOST comes up when it is enabled, seated and fed, and goes down. -/
def Obligations.LaserSourcesComplete : Prop :=
  (∀ (s : State) (port : Nat) (w : Switchover), (s.port port).switching = some w →
  (w.stands = false → w.forced = false → turnCome w.turn (turnPlus s.turn 2) = true →
    ((pairsOf port).filter (fun q => (s.pair q.1 q.2).lit && (s.pair q.1 q.2).pauseMine)).all (fun q => (s.pair q.1 q.2).pauseAgreed) = true →
    exec (.switchoverWindowCheck port) s = .next (s.modPort port (fun p => { p with switching := some { w with stands := true } }))) ∧
  (w.stands = false → w.forced = false → turnCome w.turn (turnPlus s.turn 2) = true →
    ((pairsOf port).filter (fun q => (s.pair q.1 q.2).lit && (s.pair q.1 q.2).pauseMine)).all (fun q => (s.pair q.1 q.2).pauseAgreed) = false →
    ∃ u : State, exec (.switchoverWindowCheck port) s = .next u ∧ (u.port port).switching =
      some (if w.refusals + 1 = 4 then { w with forced := true, refusals := 4 }
        else { w with turn := turnPlus w.turn 16, refusals := w.refusals + 1 })) ∧
  ((w.stands = true ∧ turnCome (turnPlus w.turn 1) s.turn = true) ∨ w.forced = true →
    exec (.sourceSwitch port) s = .next (s.modPort port (fun p => { p with gap := true }))) ∧
  (∀ o, (s.port port).gap = true → (s.port port).feed = some o → o ≠ w.spare → (s.bay w.spare).state = 2 →
    (∀ b, (s.bay b).pressed = false) → (s.bay (if port = 8 then 10 else port)).state ≠ 2 →
    ((s.port port).feed = some (if port = 8 then 10 else port) → w.service = true ∨ w.keepOld = false) →
    ∃ u : State, exec (.sourceSwitchDone port) s = .next u ∧ (u.port port).feed = some w.spare ∧ (u.port port).gap = false ∧
      (u.port port).switching = none ∧ (u.bay w.spare).state = 3 ∧
      (u.bay o).state = (if w.service then 5 else if w.keepOld then 2 else 4) ∧ (∀ q, q ≠ port → u.port q = s.port q))) ∧
  (∀ (s : State) (bay : Nat),
  (∀ port, ∃ u : State, exec (.presenceChange port false) s = .next u ∧ (u.port port).contact = false ∧ (u.port port).up = false ∧
    ∀ q ∈ pairsOf port, (u.pair q.1 q.2).state = .dark) ∧
  (∀ port, (∀ q ∈ pairsOf port, (s.pair q.1 q.2).state = .dark) →
    exec (.presenceChange port true) s = .next (s.modPort port (fun p => { p with contact := true }))) ∧
  (∀ l1h, (s.bay bay).seated = false → bay < 12 → exec (.lsmInsert bay l1h) s =
    .next (s.modBay bay (fun _ => { seated := true, state := 1, typeOk := l1h = decide (10 ≤ bay) }))) ∧
  ((s.bay bay).state = 1 → (s.bay bay).typeOk = true → bay < 8 → (s.port bay).feed = none → (s.port bay).switching = none →
    ∃ u : State, exec (.lsmQualified bay) s = .next u ∧ (u.bay bay).state = 3 ∧ (u.port bay).feed = some bay) ∧
  ((s.bay bay).state = 1 → (s.bay bay).typeOk = true → bay = 8 ∨ bay = 9 → (∀ n, n < 8 → (s.port n).feed ≠ none) →
    exec (.lsmQualified bay) s = .next (s.modBay bay (fun y => { y with state := 2 }))) ∧
  ((s.bay bay).seated = true → (s.bay bay).state ≠ 0 → (s.bay bay).state ≠ 4 → (∀ n, n < 9 → (s.port n).feed ≠ some bay) →
    (∀ n w, n < 8 → (s.port n).switching = some w → w.spare ≠ bay) →
    ∃ u : State, exec (.lsmFailed bay false) s = .next u ∧ (u.bay bay).state = (if (s.bay bay).state = 5 then 5 else 4) ∧
      ∀ n, (u.port n).feed = (s.port n).feed) ∧
  (∀ port b, (s.bay bay).seated = true → (s.bay bay).state = 3 → port < 9 → (s.port port).feed = some bay →
    (∀ n, n < 9 → (s.port n).feed = some bay → n = port) → (∀ n w, n < 8 → (s.port n).switching = some w → w.spare ≠ bay) →
    (∀ b, (s.bay b).pressed = false) → s.freeSpare port = some b → b ≠ bay →
    ∃ u : State, exec (.lsmFailed bay false) s = .next u ∧ (u.port port).feed = some b ∧ (u.bay b).state = 3 ∧ (u.bay bay).state = 4) ∧
  (∀ port, (s.bay bay).seated = true → (s.bay bay).state = 3 → port < 9 → (s.port port).feed = some bay →
    (∀ n, n < 9 → (s.port n).feed = some bay → n = port) → (∀ n w, n < 8 → (s.port n).switching = some w → w.spare ≠ bay) →
    (∀ b, (s.bay b).pressed = false) → (∀ b, b < 12 → (s.bay b).state ≠ 2) →
    ∃ u : State, exec (.lsmFailed bay false) s = .next u ∧ (u.port port).feed = none ∧ (u.bay bay).state = 4 ∧
      u.panel.logged = s.panel.logged + 1) ∧
  (s.baySwitching bay = false → s.panel.laserOff = false → (s.bay bay).state = 2 →
    exec (.serviceButtonPress bay) s = .next (s.modBay bay (fun y => { y with state := 5 }))) ∧
  ((s.port 8).enabled = true → (s.port 8).contact = true → (s.port 8).feed ≠ none → s.panel.laserOff = false →
    exec (.hostLinkChange true) s = .next (s.modPort 8 (fun p => { p with up := true }))) ∧
  (exec (.hostLinkChange false) s = .next (s.modPort 8 (fun p => { p with up := false }))))

/-- PACKET_INJECT (R275, R305, R309, R311): the first that can go of a class leaves the interface as a packet of the injection queue. What
another unit formed is stamped with this die's rank, number, epoch and job, with the destination's coordinates, TTL 63 and the turn's time
stamp. A request of another kind than SEND that has no number yet takes the next number of its session, with OPEN until number 0 has been
acknowledged. PACKET_EJECT (R276, R311, R439): at a die that carries packets (R48, R436), the first packet that has come to its die leaves
the buffer (that it is the first is the model's own choice, log 108); one that passes the checks is delivered, and one that is aged,
FOREIGN, STALE or from an evicted source is counted; no byte of memory changes. -/
def Obligations.InjectionAndEjection : Prop :=
  (∀ (s : State) (d cls : Nat),
  (∀ rank die c tr pl, (s.die d).fab.handoff.find? (fun h => h.cls = cls && (s.die d).mayInject h) = some (.pkt rank die c tr pl) →
    (s.die d).fab.rankOk rank = true → (rank ≠ (s.die d).fab.rank ∨ die ≠ (s.die d).standsFor) →
    ∃ (u : State) (h : Held), exec (.packetInject d cls) s = .next u ∧ (u.die d).fab.held = (s.die d).fab.held ++ [h] ∧
      h.from_ = .inject ∧ h.port = 8 ∧ h.route = none ∧ h.pkt.dstRank = rank ∧ h.pkt.dstDie = die ∧ h.pkt.cls = c ∧
      h.pkt.srcRank = (s.die d).fab.rank ∧ h.pkt.srcDie = (s.die d).standsFor ∧ h.pkt.epoch = (s.die d).fab.epoch ∧
      h.pkt.job = (s.die d).fab.job ∧ h.pkt.dstCoord = (s.die d).fab.rankCoord rank ∧ h.pkt.ttl = 63 ∧ h.pkt.payload = pl ∧
      h.pkt.trans = (if byteAt tr 0 % 16 = 0 then tr else tr.take 11 ++ leBytes 1 s.turn) ∧
      (u.die d).fab.handoff = removeFirst (fun h => h = .pkt rank die c tr pl) (s.die d).fab.handoff) ∧
  (∀ i r bs, (s.die d).fab.handoff.find? (fun h => h.cls = cls && (s.die d).mayInject h) = some (.req i) →
    (s.die d).rem.reqs.find? (fun r => r.id = i) = some r → (s.die d).fab.rankOk r.rank = true → r.sent = false → r.numbered = false →
    r.kind ≠ .send → r.fixed = some bs →
    (r.rank ≠ (s.die d).fab.rank ∨ r.die ≠ (s.die d).standsFor) →
    ∃ (u : State) (h : Held), exec (.packetInject d cls) s = .next u ∧ (u.die d).fab.held = (s.die d).fab.held ++ [h] ∧
      h.pkt.dstRank = r.rank ∧ h.pkt.dstDie = r.die ∧ h.pkt.cls = clsReq ∧
      h.pkt.trans = raTrans r.kind.code false r.flag (! ((s.die d).rem.src.getD r.key {}).zeroAcked) ((s.die d).rem.src.getD r.key {}).next
        r.addr (s.turn % 256) ∧
      ((u.die d).rem.src.getD r.key {}).next = (((s.die d).rem.src.getD r.key {}).next + 1) % 2 ^ 24)) ∧
  (∀ (s : State) (d i : Nat) (h : Held),
  (s.die d).fab.held.zipIdx.find? (fun e => match e.1.route with
      | some r => r.exit = 8 && r.site = d && s.carries d
      | none => false) = some (h, i) →
  ∃ u : State, exec (.packetEject d) s = .next u ∧ (u.die d).fab.held = (s.die d).fab.held.eraseIdx i ∧
    (u.die d).rem.rx = (if (s.die d).ejectCheck h.pkt s.turn = 0 then (s.die d).rem.rx ++ [h.pkt] else (s.die d).rem.rx) ∧
    (u.die d).fab.foreign = (if (s.die d).ejectCheck h.pkt s.turn = 1 then satAdd 16 (s.die d).fab.foreign 1 else (s.die d).fab.foreign) ∧
    (u.die d).fab.stale = (if (s.die d).ejectCheck h.pkt s.turn = 2 then satAdd 16 (s.die d).fab.stale 1 else (s.die d).fab.stale) ∧
    (u.die d).fab.evictedSrc = (if (s.die d).ejectCheck h.pkt s.turn = 3 then satAdd 16 (s.die d).fab.evictedSrc 1
      else (s.die d).fab.evictedSrc) ∧
    (u.die d).rem.aged = (if (s.die d).ejectCheck h.pkt s.turn = 4 then satAdd 16 (s.die d).rem.aged 1 else (s.die d).rem.aged) ∧
    (u.die d).mem = (s.die d).mem)

/-- PACKET_FORWARD (R281, R286, R288 to R290, R293, R311, R442) at a die that carries packets (R48, R436). That routing goes before moving,
and that the link served is the one that the first movable packet takes, is the model's own choice (log 108). The first packet that has no
route, or whose exit is gone, is routed: to its exit die, to its own die on the mesh, or it is dropped and counted as unroutable, and as
aged when it is too old. When there is none, the die-to-die link that the first packet able to move takes serves the packet that the
arbitration picks: it moves one mesh hop to the buffer of the next site, with its class and phase kept, and no other die changes. -/
def Obligations.ForwardingRoutesAndHops : Prop :=  ∀ (s : State) (d i : Nat) (h : Held) (first : Option (Held × Nat)),
  (s.carries d = false → exec (.packetForward d) s = .next s) ∧
  (s.carries d = true → first = (s.die d).fab.held.zipIdx.find? (fun e => match e.1.route with
      | none => s.transit || e.1.from_ = .inject
      | some r => s.exitGone r) →
  (first = some (h, i) → tooOld s.turn h.pkt = false ∨ h.from_ = .inject →
    (∀ e ph t, (s.die d).fab.hop h.pkt h.port = .port e ph → s.exitDie d e = some t →
      ∃ u : State, exec (.packetForward d) s = .next u ∧
        (u.die d).fab.held[i]? = some { h with route := some (s.routeTo d e t ph) } ∧
        (u.die d).fab.held.length = (s.die d).fab.held.length) ∧
    (∀ t v, (s.die d).fab.hop h.pkt h.port = .eject → s.siteOf h.pkt.dstDie = some t → s.meshSite t = true →
      meshVia s.meshSite d t = some v → ∃ u : State, exec (.packetForward d) s = .next u ∧
        (u.die d).fab.held[i]? = some { h with route := some (s.routeTo d 8 t 0) } ∧ OnlyDie d s u) ∧
    ((s.die d).fab.hop h.pkt h.port = .unroutable →
      ∃ u : State, exec (.packetForward d) s = .next u ∧ (u.die d).fab.held = (s.die d).fab.held.eraseIdx i ∧
        (u.die d).fab.unroutable = satAdd 16 (s.die d).fab.unroutable 1)) ∧
  (first = some (h, i) → tooOld s.turn h.pkt = true → h.from_ ≠ .inject →
    ∃ u : State, exec (.packetForward d) s = .next u ∧ (u.die d).fab.held = (s.die d).fab.held.eraseIdx i ∧
      (u.die d).rem.aged = satAdd 16 (s.die d).rem.aged 1 ∧ OnlyDie d s u) ∧
  (∀ g j n c left r sh, first = none → (s.die d).fab.held.zipIdx.find? (fun e => (s.die d).headsQueue e.2 e.1 && (match e.1.route with
      | some r => s.canHop d e.1 r
      | none => false)) = some (g, j) → n = ((g.route.getD {}).next d).1 → n ≠ d →
    arbClass (s.die d).fab.weight (fun c => (s.meshEligible d n).any (fun e => e.2.pkt.cls = c)) 5
      ((s.die d).fab.arb.getD (16 + sideOf n d) (0, (s.die d).fab.weight 0)).1
      ((s.die d).fab.arb.getD (16 + sideOf n d) (0, (s.die d).fab.weight 0)).2 = some (c, left) →
    pickWithin (fun e => e.pkt.phase) ((s.die d).fab.exitRr.getD (100 + 4 * (16 + sideOf n d) + c) 0)
      ((s.meshEligible d n).filter (fun e => e.2.pkt.cls = c)) = some (i, h) →
    h.route = some r → tooOld s.turn h.pkt = false ∨ h.from_ = .inject →
    (s.die n).meshRoom (sideOf d n) (64 * r.exit + 32 * (r.next d).2.leg + (8 * h.pkt.cls + h.pkt.phase)) = some sh →
    ∃ (u : State) (k : Held), exec (.packetForward d) s = .next u ∧ (u.die d).fab.held = (s.die d).fab.held.eraseIdx i ∧
      (u.die n).fab.held = (s.die n).fab.held ++ [k] ∧ k.route = some (r.next d).2 ∧ k.port = h.port ∧
      (∃ m, k.pkt = { h.pkt with mark := m }) ∧
      (∀ e, e ≠ d → e ≠ n → u.die e = s.die e)))

/-- BOUNCE (R285): a bounce that names a gateway of the own group excludes the matching entry of the own gateway table for 65,536 turns, and
one that names a gateway of another group excludes that group as an intermediate for 65,536 turns; either is logged once.
GATEWAY_EXCLUSION_EXPIRY: the exclusions of a group whose turns are over end. RANK_TABLE_SWITCH (R273, R274): at its turn the first accepted
table comes into force in every ACTIVE die, and no other die changes. RATE_STEP (R297): above T2_HI the limit engages at 8 and is logged, or
halves; while it relaxes or once the queue is below T2_LO, it doubles to 16 at most. -/
def Obligations.FabricControlComplete : Prop :=  ∀ (s : State) (d : Nat),
  (∀ q, (s.die d).rem.rx.find? (fun q => q.owner = 0) = some q → byteAt q.trans 1 = 1 →
    cGroup (leAt q.trans 2 2 % 2 ^ 14) ≠ cGroup (s.die d).fab.coord →
    (s.die d).fab.viaExcluded.find (cGroup (leAt q.trans 2 2 % 2 ^ 14)) = none →
    ∃ u : State, exec (.bounce d) s = .next u ∧ (u.die d).fab.viaExcluded.find (cGroup (leAt q.trans 2 2 % 2 ^ 14)) = some 65536 ∧
      u.panel.logged = s.panel.logged + 1 ∧ (u.die d).rem.rx = removeFirst (fun q => q.owner = 0) (s.die d).rem.rx) ∧
  (∀ q g e, (s.die d).rem.rx.find? (fun q => q.owner = 0) = some q → byteAt q.trans 1 = 1 →
    cGroup (leAt q.trans 2 2 % 2 ^ 14) = cGroup (s.die d).fab.coord → g = byteAt q.trans 4 →
    ([0, 1, 2, 3] : List Nat).find? (fun e => bitAt (gwEntry ((s.die d).fab.gw.getD g 0) e) 15 &&
      gwCoord (cGroup (leAt q.trans 2 2 % 2 ^ 14)) (gwEntry ((s.die d).fab.gw.getD g 0) e) = leAt q.trans 2 2 % 2 ^ 14 &&
      gwEntry ((s.die d).fab.gw.getD g 0) e % 2 = byteAt q.trans 5 % 2 && ((s.die d).fab.gwExcluded.find (4 * g + e)).isNone) = some e →
    ∃ u : State, exec (.bounce d) s = .next u ∧ (u.die d).fab.gwExcluded.find (4 * g + e) = some 65536 ∧
      (u.die d).fab.gw = (s.die d).fab.gw ∧ (u.die d).fab.viaExcluded = (s.die d).fab.viaExcluded ∧
      u.panel.logged = s.panel.logged + 1 ∧ (u.die d).rem.rx = removeFirst (fun q => q.owner = 0) (s.die d).rem.rx) ∧
  (∀ g, exec (.gatewayExclusionExpiry d g) s = .next (s.modDie d (fun x => { x with fab := { x.fab with
    gwExcluded := x.fab.gwExcluded.filter (fun e => ! (e.1 / 4 = g && e.2 = 0)),
    viaExcluded := x.fab.viaExcluded.filter (fun e => ! (e.1 = g && e.2 = 0)) } }))) ∧
  (∀ t, s.panel.fabric.pendingTables.find? (fun t => turnCome t.turn s.turn) = some t → s.panel.job.isSome = true →
    ∃ u : State, exec .rankTableSwitch s = .next u ∧ u.panel.fabric.inForce = some t ∧
      (∀ e, e < 52 → s.activeSite e = true → (u.die e).fab.selfValid = true ∧ (u.die e).fab.job = t.job ∧ (u.die e).fab.rank = t.rank ∧
        (u.die e).fab.epoch = t.epoch ∧ (u.die e).fab.ranks = t.table) ∧
      (∀ e, s.activeSite e = false → u.die e = s.die e)) ∧
  ((s.die d).fab.t2Hi < (s.die d).injectDepth → ∃ u : State, exec (.rateStep d) s = .next u ∧
    (u.die d).fab.rate = (if (s.die d).fab.rate = 16 then 8 else max 1 ((s.die d).fab.rate / 2)) ∧
    ((s.die d).fab.rate = 16 → u.panel.logged = s.panel.logged + 1)) ∧
  ((s.die d).injectDepth ≤ (s.die d).fab.t2Hi → (s.die d).fab.rate < 16 →
    ((s.die d).fab.relaxing = true ∨ (s.die d).injectDepth < (s.die d).fab.t2Lo) →
    ∃ u : State, exec (.rateStep d) s = .next u ∧ (u.die d).fab.rate = min 16 (2 * (s.die d).fab.rate) ∧ OnlyDie d s u)

/-- RA_LO writes bits 31:0 and RA_HI bits 63:32 of an address register of the core, and RA_ADD adds a signed number to its bits 39:0 when no
carry or borrow leaves bit 39; the other bits of the register, the core's other address registers and the die's memory stand (R303, R304).
TAKE (R214, R304, R325) from a queue that the menu configures for the die with CONSUMER THREAD (R223) and for which no other thread waits:
the head item, when it fits, is written to the pantry, where no FROZEN region lies (log 183), and the thread goes on; with no item the
thread waits and no byte of memory changes. FENCE (R321): with nothing outstanding to its target it completes at issue, and otherwise its
thread waits. FENCE_COMPLETE: a thread whose fence covers nothing outstanding goes on. -/
def Obligations.AddressAndQueueWords : Prop :=
  (∀ (s : State) (d c t : Nat) (w : W64), badRemote w (maskOf 45 42 + maskOf 31 0) = false →
  (s.issues d c t w 5 1 = true → ∃ u : State, exec (.raLo d c t w) s = .next u ∧
    (u.die d).raOf c w = (s.die d).raOf c w / 2 ^ 32 * 2 ^ 32 + wField w 31 0 ∧ (u.die d).mem = (s.die d).mem ∧
    ∀ k, k ≠ wField w 45 42 → ((u.die d).seq c).raddr.getD k 0 = ((s.die d).seq c).raddr.getD k 0) ∧
  (s.issues d c t w 5 2 = true → ∃ u : State, exec (.raHi d c t w) s = .next u ∧
    (u.die d).raOf c w = wField w 31 0 * 2 ^ 32 + (s.die d).raOf c w % 2 ^ 32 ∧ (u.die d).mem = (s.die d).mem ∧
    ∀ k, k ≠ wField w 45 42 → ((u.die d).seq c).raddr.getD k 0 = ((s.die d).seq c).raddr.getD k 0) ∧
  (s.issues d c t w 5 3 = true → 0 ≤ (((s.die d).raOf c w % 2 ^ 40 : Nat) : Int) + signed 32 (wField w 31 0) →
    (((s.die d).raOf c w % 2 ^ 40 : Nat) : Int) + signed 32 (wField w 31 0) < 2 ^ 40 →
    ∃ u : State, exec (.raAdd d c t w) s = .next u ∧
    (u.die d).raOf c w = (s.die d).raOf c w / 2 ^ 40 * 2 ^ 40 +
      ((((s.die d).raOf c w % 2 ^ 40 : Nat) : Int) + signed 32 (wField w 31 0)).toNat ∧ (u.die d).mem = (s.die d).mem ∧
    ∀ k, k ≠ wField w 45 42 → ((u.die d).seq c).raddr.getD k 0 = ((s.die d).seq c).raddr.getD k 0)) ∧
  (∀ (s : State) (d c t : Nat) (w : W64),
  (c < 2 → s.issues d c t w 5 0xC = true → badRemote w (maskOf 45 8) = false →
    spanPlace (pantryBase + 64 * wField w 35 15) (64 * (wField w 14 8 + 1)) = some .pantry → queueNamed (wField w 45 36) = true →
    s.plansQueue d c (wField w 45 36) = true →
    (∀ e k pan n own word, (((s.die d).seq e).thread k).wait ≠ .take (wField w 45 36) pan n own word) →
    (∀ i rest, ((s.die d).queue (wField w 45 36)).items = i :: rest → i.data ≠ [] →
      i.data.length ≤ 64 * (wField w 14 8 + 1) → (s.die d).mem.frozen (pantryBase + 64 * wField w 35 15) i.data.length = false →
      ∃ u : State, exec (.take d c t w) s = .next u ∧ ((u.die d).queue (wField w 45 36)).items = rest ∧
        (u.die d).mem.cells = (s.die d).mem.cells.write (pantryBase + 64 * wField w 35 15) i.data ∧
        (((u.die d).seq c).thread t).wait = .ready) ∧
    (((s.die d).queue (wField w 45 36)).items = [] →
      ∃ u : State, exec (.take d c t w) s = .next u ∧ (u.die d).mem = (s.die d).mem ∧
        (((u.die d).seq c).thread t).wait = .take (wField w 45 36) (wField w 35 15) (wField w 14 8 + 1) (wTag w)
          (((s.die d).seq c).thread t).pc)) ∧
  (s.issues d c t w 5 0x10 = true → badRemote w (maskOf 45 41) = false →
    (wBit w 41 = true ∨ badGlobal ((s.die d).raOf c w) = false) →
    exec (.fence d c t w) s = .next (s.afterWord d c t w fun s o =>
      if (s.die d).fenceHeld c (gRank ((s.die d).raOf c w)) (gDie ((s.die d).raOf c w)) (wBit w 41) then
        s.holdThread d o (.fence (gRank ((s.die d).raOf c w)) (gDie ((s.die d).raOf c w)) (wBit w 41) o.tag)
      else s.countTag d o)) ∧
  (∀ rank die all own, (((s.die d).seq c).thread t).wait = .fence rank die all own → (s.die d).fenceHeld c rank die all = false →
    exec (.fenceComplete d c t) s = .next (((s.modThread d c t (fun th => { th with wait := .ready })).countTag d
      { core := c, thread := t, off := ((s.die d).seq c).off, tag := own }).runOff d c t)))

/-- LOAD, STORE, ATOMIC and SEND to a rank with a valid entry, with no reserved field and within the address rules (R304 to R306, R322,
R324). LOAD becomes one request and its thread waits. STORE becomes requests of at most 220 bytes that cover its span, a flag store one
request. ATOMIC becomes one request with the next OPID, and its thread waits; that it takes its operands as they stand at issue is the
model's own choice (log 123). SEND to another die becomes one request for each part of 216 bytes; SEND to a queue of the own die that admits
it is an item whose cells are written. No byte of memory changes at issue. A word that is the last of its thread's course stops it, which
may mark earlier SENDs as halted (R83, R217); the statement leaves those marks out. -/
def Obligations.RemoteWordsBecomeRequests : Prop :=  ∀ (s : State) (d c t : Nat) (w : W64), (s.die d).fab.rankOk (gRank ((s.die d).raOf c w)) = true →
  (s.issues d c t w 5 8 = true → badRemote w (maskOf 45 9) = false →
    badTarget ((s.die d).raOf c w) (wField w 20 9 + 1) (panOf w) (wField w 20 9 + 1) 0 = false →
    ∃ (u : State) (r : Req), exec (.load d c t w) s = .next u ∧ (u.die d).rem.reqs = (s.die d).rem.reqs ++ [r] ∧ r.kind = .load ∧
      r.rank = gRank ((s.die d).raOf c w) ∧ r.die = gDie ((s.die d).raOf c w) ∧ r.addr = (s.die d).raOf c w % 2 ^ 44 ∧ r.src = panOf w ∧
      r.len = wField w 20 9 + 1 ∧ (u.die d).fab.handoff = (s.die d).fab.handoff ++ [.req r.id] ∧
      (((u.die d).seq c).thread t).wait = .reply ∧ (u.die d).mem = (s.die d).mem) ∧
  (s.issues d c t w 5 9 = true → badRemote w (maskOf 45 8) = false → (wBit w 8 = true → wField w 20 9 + 1 ≤ 216) →
    badTarget ((s.die d).raOf c w) (wField w 20 9 + 1) (panOf w) (wField w 20 9 + 1) 0 = false →
    ∃ (u : State) (l : List Req), exec (.store d c t w) s = .next u ∧
      (u.die d).rem.reqs.map Req.unmarked = ((s.die d).rem.reqs ++ l).map Req.unmarked ∧
      (∀ r ∈ l, r.kind = .store ∧ r.rank = gRank ((s.die d).raOf c w) ∧ r.die = gDie ((s.die d).raOf c w) ∧ r.flag = wBit w 8) ∧
      l.map (fun r => (r.addr, r.src, r.len)) =
        (if wBit w 8 then [(0, wField w 20 9 + 1)] else packets220 (wField w 20 9 + 1)).map
          (fun p => ((s.die d).raOf c w % 2 ^ 44 + p.1, panOf w + p.1, p.2)) ∧ (u.die d).mem = (s.die d).mem) ∧
  (s.issues d c t w 5 0xA = true → badRemote w (maskOf 45 16) = false → wField w 20 17 < 8 →
    badTarget ((s.die d).raOf c w) (if wBit w 16 then 8 else 4) (panOf w) 32 0 = false →
    gOffset ((s.die d).raOf c w) % (if wBit w 16 then 8 else 4) = 0 →
    ∃ (u : State) (r : Req), exec (.atomic d c t w) s = .next u ∧ (u.die d).rem.reqs = (s.die d).rem.reqs ++ [r] ∧ r.kind = .atomic ∧
      r.aop = wField w 20 17 ∧ r.wide = wBit w 16 ∧ r.opid = (s.die d).rem.opid ∧
      r.fixed = some ((s.die d).mem.cells.readN (panOf w) 16) ∧ (u.die d).rem.opid = ((s.die d).rem.opid + 1) % 2 ^ 32 ∧
      (((u.die d).seq c).thread t).wait = .reply ∧ (u.die d).mem.cells = (s.die d).mem.cells) ∧
  (s.issues d c t w 5 0xB = true → badRemote w (maskOf 45 9) = false →
    badTarget ((s.die d).raOf c w) 0 (panOf w) (wField w 20 9 + 1) 1 = false → (s.die d).servedLocally ((s.die d).raOf c w) = false →
    (s.die d).sendRefused c t w = false →
    ∃ (u : State) (l : List Req), exec (.send d c t w) s = .next u ∧
      (u.die d).rem.reqs.map Req.unmarked = ((s.die d).rem.reqs ++ l).map Req.unmarked ∧
      (∀ r ∈ l, r.kind = .send ∧ r.msgLen = wField w 20 9 + 1) ∧
      l.map (fun r => (r.part, r.src, r.len)) = (parts216 (wField w 20 9 + 1)).map (fun p => (p.1, panOf w + p.2.1, p.2.2)) ∧
      (u.die d).mem = (s.die d).mem) ∧
  (∀ q n key, q = gOffset ((s.die d).raOf c w) → n = wField w 20 9 + 1 → key = (2 ^ 32 + (s.die d).freshKey.1, 0) →
    s.issues d c t w 5 0xB = true → badRemote w (maskOf 45 9) = false →
    badTarget ((s.die d).raOf c w) 0 (panOf w) n 1 = false → (s.die d).servedLocally ((s.die d).raOf c w) = true →
    (s.die d).sendRefused c t w = false → queueNamed q = true →
    ((s.die d).pool.admission q ((n + 63) / 64) key s.fresh.1).2 = .admitted → (∀ p ∈ ((s.die d).queue q).parts, p.key ≠ key) →
    ∃ (u : State) (i : QItem), exec (.send d c t w) s = .next u ∧ ((u.die d).queue q).written = ((s.die d).queue q).written ++ [i] ∧
      i.cells.length = (n + 63) / 64 ∧
      i.data = (s.die d).mem.cells.readN (panOf w) n ++ List.replicate (64 * ((n + 63) / 64) - n) 0 ∧
      (u.die d).mem.cells = (s.die d).mem.cells)

/-- Responses to an outstanding request (R306, R313, R314, R322): DATA that is the whole answer to a LOAD lands in the pantry, RESULT of an
ATOMIC with code 0 in its operand block, and an ACK with code 0 changes no memory; each ends its request, where no FROZEN region lies (log
183). BUSY ends no request and changes no memory; that it takes back a repeat that waits for injection is the model's own choice (log 117).
Timers and sessions of remote access (R309, R310, R313, R328). RETRANSMIT_TIMEOUT: a request whose timers run waits for injection again, and
is counted. TARGET_LOST: it is lost, its address and code are recorded, and the loss is logged once for its destination and turn.
SOURCE_SESSION_RELEASE: a session idle for 140 turns that no request uses is released. TARGET_SESSION_EXPIRY: an entry idle for 128 turns
expires. SESSION_QUIET_END: the quiet period ends with its last turn. -/
def Obligations.RequestsEnd : Prop :=
  (∀ (s : State) (d : Nat) (q : Packet) (x : Die) (r : Req),
  ((s.die d).takeRx 5 [9] = some (q, x) → x.reqFor q = some r → r.answered = false → r.kind = .load → q.addr % 4096 = 0 → 0 < r.len →
    r.len ≤ 220 → q.payload.length = r.len → r.got = [] → (s.die d).mem.frozen r.src r.len = false →
    ∃ u : State, exec (.data d) s = .next u ∧ (u.die d).mem.cells = (s.die d).mem.cells.write r.src q.payload ∧
      (∀ p ∈ (u.die d).rem.reqs, p.id ≠ r.id)) ∧
  ((s.die d).takeRx 5 [10] = some (q, x) → x.reqFor q = some r → r.answered = false → r.kind = .atomic → leAt q.payload 8 2 = 0 →
    (s.die d).mem.frozen (r.src + 16) 8 = false →
    ∃ u : State, exec (.result d) s = .next u ∧
      (u.die d).mem.cells = (s.die d).mem.cells.write (r.src + 16) (sliceAt q.payload 0 8) ∧ (∀ p ∈ (u.die d).rem.reqs, p.id ≠ r.id)) ∧
  ((s.die d).takeRx 5 [8] = some (q, x) → x.reqFor q = some r → r.answered = false → r.kind = .store ∨ r.kind = .send →
    leAt q.payload 0 2 = 0 →
    ∃ u : State, exec (.ack d) s = .next u ∧ (u.die d).mem = (s.die d).mem ∧ (∀ p ∈ (u.die d).rem.reqs, p.id ≠ r.id)) ∧
  ((s.die d).takeRx 5 [11] = some (q, x) → x.reqFor q = some r →
    ∃ u : State, exec (.busy d) s = .next u ∧ (u.die d).fab.handoff = (s.die d).fab.handoff.filter (fun h => h ≠ .req r.id) ∧
      (u.die d).rem.reqs.length = (s.die d).rem.reqs.length ∧ (u.die d).mem = (s.die d).mem)) ∧
  (∀ (s : State) (d : Nat),
  (∀ req r, (s.die d).rem.reqs.find? (fun r => r.id = req) = some r → (s.die d).timerRuns r = true →
    (s.die d).fab.handoff.contains (.req req) = false →
    ∃ u : State, exec (.retransmitTimeout d req) s = .next u ∧ (u.die d).fab.handoff = (s.die d).fab.handoff ++ [.req req] ∧
      (u.die d).rem.retx = satAdd 16 (s.die d).rem.retx 1 ∧ (u.die d).rem.reqs = (s.die d).rem.reqs) ∧
  (∀ req r, (s.die d).rem.reqs.find? (fun r => r.id = req) = some r → (s.die d).timerRuns r = true →
    ∃ u : State, exec (.targetLost d req) s = .next u ∧
      (u.die d).rem.reqs = (s.die d).rem.reqs.map (fun r => if r.id = req then { r with lost := true } else r) ∧
      (u.die d).rem.faultAddr = r.global ∧ (u.die d).rem.faultCode = Code.targetLost ∧
      u.panel.logged = s.panel.logged + (if (s.die d).rem.lostThisTurn.contains r.key then 0 else 1)) ∧
  (∀ key e, (s.die d).rem.src.find key = some e → 140 ≤ e.idle →
    (∀ r ∈ (s.die d).rem.reqs, r.key = key → r.sent = false ∧ r.numbered = false) →
    exec (.sourceSessionRelease d key) s = .next (s.modDie d (fun x => { x with rem := { x.rem with src := x.rem.src.del key } }))) ∧
  (∀ key e, (s.die d).rem.tgt.find key = some e → 128 ≤ e.idle →
    exec (.targetSessionExpiry d key) s = .next (s.modDie d (fun x => { x with rem := { x.rem with tgt := x.rem.tgt.del key } }))) ∧
  ((s.die d).rem.quiet = 1 →
    exec (.sessionQuietEnd d) s = .next (s.modDie d (fun x => { x with rem := { x.rem with quiet := 0 } }))))

/-- A number within 4,096 of BASE that a session has marked is done, and every number that was done stays done, so that a repeat is never
applied again (R310, R312). -/
def Obligations.MarkedNumbersStayDone : Prop :=  ∀ (t : TgtSession) (seq status : Nat) (store : Bool), t.base < 2 ^ 24 → seq < 2 ^ 24 → t.dist seq < 4096 →
    (t.mark seq status store).done seq = true ∧
    ∀ k, k < 2 ^ 24 → t.dist k < 4096 → t.done k = true → (t.mark seq status store).done k = true

/-- LOAD_PACKET and BLOCK_READ: a request that has not been applied before and that the target's checks allow is answered with its bytes, in
packets of at most 220 bytes, and no byte of memory changes (R308, R312, R316). STORE_PACKET and ATOMIC_PACKET to the pantry of the die,
allowed by the target's checks (R312, R318, R322, R323): a STORE without FLAG writes its bytes and is acknowledged, and an ATOMIC with room
in the replay window writes its new value and returns the old one; a number that was applied before writes nothing. -/
def Obligations.TargetServesRequests : Prop :=
  (∀ (s : State) (d : Nat) (q : Packet) (x y : Die),
  (∀ bs, (s.die d).takeRx 5 [1] = some (q, x) → x.take q s.turn = (y, .fresh) → (y.loadBytes q).2 = .inl bs →
    ∃ u : State, exec (.loadPacket d) s = .next u ∧ (u.die d).mem.cells = (s.die d).mem.cells ∧
      (u.die d).fab.handoff = (s.die d).fab.handoff ++ (packets220 bs.length).map (fun p =>
        .pkt q.srcRank q.srcDie clsRsp (raTrans 9 q.mark false false q.seq p.1 (s.turn % 256)) (sliceAt bs p.1 p.2))) ∧
  (∀ bs, (s.die d).takeRx 5 [5] = some (q, x) → x.take q s.turn = (y, .fresh) → (y.blockBytes q).2 = .inl bs →
    ∃ u : State, exec (.blockRead d) s = .next u ∧ (u.die d).mem.cells = (s.die d).mem.cells ∧
      (u.die d).fab.handoff = (s.die d).fab.handoff ++ (packets220 bs.length).map (fun p =>
        .pkt q.srcRank q.srcDie clsRsp (raTrans 9 q.mark false false q.seq p.1 (s.turn % 256)) (sliceAt bs p.1 p.2)))) ∧
  (∀ (s : State) (d : Nat) (q : Packet) (x y : Die),
  ((s.die d).takeRx 5 [2] = some (q, x) → x.take q s.turn = (y, .fresh) → q.flag = false → (y.tgt q.srcKey).flags = [] →
    y.mem.targetCheck (targetOf q) (storeData q).length true = 0 → placeOf (targetOf q) = .pantry → storeData q ≠ [] →
    ∃ u : State, exec (.storePacket d) s = .next u ∧ (u.die d).mem.cells = (s.die d).mem.cells.write (targetOf q) (storeData q) ∧
      (u.die d).fab.handoff = (s.die d).fab.handoff ++
        [.pkt q.srcRank q.srcDie clsRsp (raTrans 8 q.mark false false q.seq 0 (s.turn % 256)) (leBytes 2 0)]) ∧
  ((s.die d).takeRx 5 [2] = some (q, x) → x.take q s.turn = (y, .again) →
    ∃ u : State, exec (.storePacket d) s = .next u ∧ (u.die d).mem = (s.die d).mem) ∧
  (∀ n, n = (if bitAt (byteAt q.payload 0) 4 then 8 else 4) → (s.die d).takeRx 5 [3] = some (q, x) →
    x.mem.pendingTouches (targetOf q) n = false → x.take q s.turn = (y, .fresh) → (y.tgt q.srcKey).replayRoom s.turn = true →
    y.mem.targetCheck (targetOf q) n true = 0 → placeOf (targetOf q) = .pantry →
    ∃ u : State, exec (.atomicPacket d) s = .next u ∧ (u.die d).mem.cells = (s.die d).mem.cells.write (targetOf q)
        (leBytes n (atomicValue (byteAt q.payload 0 % 16) (leNat n ((s.die d).mem.cells.readN (targetOf q) n)) (leAt q.payload 8 n)
          (leAt q.payload 16 n) n)) ∧
      (u.die d).fab.handoff = (s.die d).fab.handoff ++
        [.pkt q.srcRank q.srcDie clsRsp (raTrans 10 q.mark false false q.seq 0 (s.turn % 256))
          (leBytes 8 (leNat n ((s.die d).mem.cells.readN (targetOf q) n)) ++ leBytes 2 0)]) ∧
  ((s.die d).takeRx 5 [3] = some (q, x) → x.mem.pendingTouches (targetOf q) (if bitAt (byteAt q.payload 0) 4 then 8 else 4) = false →
    x.take q s.turn = (y, .again) → ∃ u : State, exec (.atomicPacket d) s = .next u ∧ (u.die d).mem = (s.die d).mem))

/-- SEND_PACKET: a message of one part to a queue of the die that admits it is an item whose cells are written, with the message's bytes in
place and zeros after them (R212, R216, R324). -/
def Obligations.SendPacketFillsItem : Prop :=  ∀ (s : State) (d : Nat) (q : Packet) (x y : Die), (s.die d).takeRx 5 [4] = some (q, x) → x.take q s.turn = (y, .fresh) →
    leAt q.payload 2 2 = 0 → leAt q.payload 0 2 + 1 ≤ 216 → (∀ m ∈ (y.tgt q.srcKey).msgs, m.seq0 ≠ q.seq) → q.seq < 2 ^ 24 →
    (targetOf q) / 2 ^ 40 = 1 → queueNamed (targetOf q % 2 ^ 40) = true → (y.tgt q.srcKey).msgs.length < 8 →
    (y.pool.admission (targetOf q % 2 ^ 40) ((leAt q.payload 0 2 + 64) / 64) (q.srcKey, q.seq) s.fresh.1).2 = .admitted →
    (∀ p ∈ ((s.die d).queue (targetOf q % 2 ^ 40)).parts, p.key ≠ (q.srcKey, q.seq)) →
    ∃ (u : State) (i : QItem), exec (.sendPacket d) s = .next u ∧
      ((u.die d).queue (targetOf q % 2 ^ 40)).written = ((s.die d).queue (targetOf q % 2 ^ 40)).written ++ [i] ∧
      i.cells.length = (leAt q.payload 0 2 + 64) / 64 ∧
      i.data = patch (sliceAt [] 0 (64 * ((leAt q.payload 0 2 + 64) / 64))) [(0, (q.payload.drop 4).take (leAt q.payload 0 2 + 1))] ∧
      (u.die d).mem = (s.die d).mem

/-- WSK_OPEN opens the next instance of its bucket in FILLING at its scheduled slot, and acts on the control packets of that instance that
wait in the pending table, while an aborted instance that has something left to do goes on under a key of its own (R363, R364); WSK_FIRE and
BUCKET_FIRE make it leave FILLING; WSK_JOIN waits in the whisk for the last instance opened, and its TAG counts at once when that is joined
(R340, R343, R344, R353, R362). -/
def Obligations.WhiskWordsComplete : Prop :=  ∀ (s : State) (d c t : Nat) (w : W64),
  (∀ m bd k, s.issues d c t w 4 1 = true → bodyOk w (maskOf 45 40) = true → s.bindFor d c (wField w 45 40) = some (m, bd) →
    (s.inst d (wField w 45 40)).live = false →
    k = (if (s.inst d (wField w 45 40)).opened then (s.inst d (wField w 45 40)).number + 1 else 0) →
    ∃ v : State, (v.inst d (wField w 45 40)).state = 1 ∧
      (v.inst d (wField w 45 40)).bind = bd ∧ (v.inst d (wField w 45 40)).number = k ∧ (v.inst d (wField w 45 40)).opened = true ∧
      (v.inst d (wField w 45 40)).ticket = wTicket w ∧ (v.inst d (wField w 45 40)).timerRuns = true ∧
      ((v.inst d (wField w 45 40)).slotTurn, (v.inst d (wField w 45 40)).slot) = m.scheduled (wField w 45 40) k ∧
      (v.inst d (wField w 45 40)).timerFrom =
        (if turnCome (m.scheduled (wField w 45 40) k).1 s.turn then s.turn else (m.scheduled (wField w 45 40) k).1) ∧
      (v.die d).whisk.pending = (s.die d).whisk.pending.filter (fun q => ! (wPlan q = bd.planId && wInstance q = k % 65536)) ∧
      (v.die d).mem.cells = (s.die d).mem.cells ∧ (∀ e, e ≠ wField w 45 40 → v.inst d e =
        if (s.inst d (wField w 45 40)).lingers = true ∧ e = (s.die d).whisk.asideKey (wField w 45 40) then s.inst d (wField w 45 40)
        else s.inst d e) ∧
      exec (.wskOpen d c t w) s = .next ((((s.die d).whisk.pending.filter (fun q => wPlan q = bd.planId && wInstance q = k % 65536)).foldl
        (fun s q => s.ctlOnce d (wField w 45 40) q) v).runOff d c t)) ∧
  (s.issues d c t w 4 2 = true → bodyOk w (maskOf 45 40) = true → wTicket w = 0 → s.bindFor d c (wField w 45 40) ≠ none →
    (s.inst d (wField w 45 40)).state = 1 →
    ∃ u : State, exec (.wskFire d c t w) s = .next u ∧ (u.inst d (wField w 45 40)).fired = true ∧
      (u.inst d (wField w 45 40)).state ≠ 1 ∧ (u.die d).mem = (s.die d).mem) ∧
  (∀ b, (s.inst d b).state = 1 → (s.inst d b).bind.fire = false → (s.inst d b).bind.size ≤ (s.inst d b).count →
    ∃ u : State, exec (.bucketFire d b) s = .next u ∧ (u.inst d b).fired = true ∧ (u.inst d b).state ≠ 1 ∧ (u.die d).mem = (s.die d).mem) ∧
  (∀ m bd, s.issues d c t w 4 3 = true → bodyOk w (maskOf 45 26) = true → wTicket w = 0 →
    s.bindFor d c (wField w 45 40) = some (m, bd) → wField w 39 26 ≤ bd.chunks → (s.inst d (wField w 45 40)).opened = true →
    exec (.wskJoin d c t w) s = .next (s.afterWord d c t w fun s o => (s.modDie d (fun x => { x with whisk := { x.whisk with
      joins := x.whisk.joins ++ [{ bucket := wField w 45 40, number := (x.inst (wField w 45 40)).number,
                                   count := wField w 39 26, org := o }] } })).wakeJoins d (wField w 45 40)))

/-- The control rows PRELUDE_UP, PRELUDE_DOWN, CREDIT, CHUNK_ACK, RESEND, AGREE_UP, RELEASE and ABORT: a packet from a member of an instance
that the die has is acknowledged with CACK and acted on once, and a repeat is only acknowledged; a packet of an instance not yet opened goes
to the pending table of 256 and is acknowledged, and is dropped without CACK when the table is full; a packet of an instance that the bucket
has left behind is only acknowledged (R355, R357). That CACK carries the LEVEL, STAGE and PHASE of the packet that it answers is the model's
own choice (log 222). -/
def Obligations.ControlRowsActOnce : Prop :=  ∀ (s : State) (d kind : Nat) (i : Instr) (q : Packet) (x : Die),
    (i, kind) ∈ [(Instr.preludeUp d, 2), (Instr.preludeDown d, 3), (Instr.credit d, 4), (Instr.chunkAck d, 5), (Instr.resend d, 6),
      (Instr.agreeUp d, 7), (Instr.release d, 8), (Instr.abort d, 9)] →
    (s.die d).takeRx 4 [kind] = some (q, x) →
  (∀ b peer, x.bucketOf q = some b → (s.team d b).find q.srcRank q.srcDie = some peer →
    (s.inst d b).ctlSeen.contains (peer, wIndex q) = false → ∃ v : State, exec i s = .next (v.ctlAct d b peer q) ∧
      (v.die d).fab.handoff = (s.die d).fab.handoff ++
        [.pkt q.srcRank q.srcDie clsCtl (wskTrans 10 (wLevel q) (wPlan q) (wInstance q) 0 (wIndex q) (wPhase q) (wStage q) 0 s.turn) []] ∧
      v.inst d b = { s.inst d b with ctlSeen := (s.inst d b).ctlSeen ++ [(peer, wIndex q)] } ∧ (v.die d).mem = (s.die d).mem ∧
      (∀ e, e ≠ d → v.die e = s.die e)) ∧
  (∀ b peer, x.bucketOf q = some b → (s.team d b).find q.srcRank q.srcDie = some peer →
    (s.inst d b).ctlSeen.contains (peer, wIndex q) = true → ∃ v : State, exec i s = .next v ∧ (v.die d).whisk = (s.die d).whisk ∧
      (v.die d).fab.handoff = (s.die d).fab.handoff ++
        [.pkt q.srcRank q.srcDie clsCtl (wskTrans 10 (wLevel q) (wPlan q) (wInstance q) 0 (wIndex q) (wPhase q) (wStage q) 0 s.turn) []]) ∧
  (x.bucketOf q = none → (x.pastInstance q || x.whisk.pending.any (fun p => p.srcRank = q.srcRank && p.srcDie = q.srcDie &&
      wIndex p = wIndex q && wPlan p = wPlan q && wInstance p = wInstance q)) = false → ∃ v : State, exec i s = .next v ∧
      (v.die d).whisk.insts = (s.die d).whisk.insts ∧
      (v.die d).whisk.pending = (s.die d).whisk.pending ++ (if 256 ≤ (s.die d).whisk.pending.length then [] else [q]) ∧
      (v.die d).fab.handoff = (s.die d).fab.handoff ++ (if 256 ≤ (s.die d).whisk.pending.length then [] else
        [.pkt q.srcRank q.srcDie clsCtl (wskTrans 10 (wLevel q) (wPlan q) (wInstance q) 0 (wIndex q) (wPhase q) (wStage q) 0 s.turn) []])) ∧
  (x.bucketOf q = none → x.pastInstance q = true → ∃ v : State, exec i s = .next v ∧ (v.die d).whisk = (s.die d).whisk ∧
      (v.die d).fab.handoff = (s.die d).fab.handoff ++
        [.pkt q.srcRank q.srcDie clsCtl (wskTrans 10 (wLevel q) (wPlan q) (wInstance q) 0 (wIndex q) (wPhase q) (wStage q) 0 s.turn) []])

/-- What the control packets do when they are acted on: CREDIT adds credits, CHUNK_ACK frees the hold buffers of its chunk, RESEND sends a
held chunk again under the attempt that it names, AGREE_UP is noted, RELEASE of point A takes a member that waits there to GATHER and
restarts its timer, RELEASE of point B completes an instance, ABORT ends a live one, and a further ABORT adds its code; a neighbour without
a valid rank adds FAB_RANK_INVALID (R353, R357, R358, R359, R361, R363). The preludes: PRELUDE_UP notes a child whose message is whole, and
a plan that differs ends an instance that does not wait at point B; PRELUDE_DOWN makes the member ready with the slot that it names;
SLOT_CHECK at the tick of the candidate slot moves an instance whose up-sweep is incomplete at its root (R86, R348, R351, R353). -/
def Obligations.ControlPacketsTakeEffect : Prop :=
  (∀ (s : State) (d b peer : Nat) (q : Packet),
  (s.ctlFirst d 4 b peer q = true → ∃ u : State, exec (.credit d) s = .next u ∧
    (u.inst d b).credits.getD peer 0 = (s.inst d b).credits.getD peer 0 + leAt q.payload 0 2 ∧ (u.inst d b).hold = (s.inst d b).hold) ∧
  (s.ctlFirst d 5 b peer q = true → ∃ u : State, exec (.chunkAck d) s = .next u ∧
    ∀ h ∈ (u.inst d b).hold, h.id ≠ wChunkId q peer) ∧
  (∀ h, s.ctlFirst d 6 b peer q = true → (s.inst d b).hold.find? (fun h => h.id = wChunkId q peer) = some h →
    (s.die d).fab.rankOk ((s.team d b).at_ peer).1 = true → ∃ u : State, exec (.resend d) s = .next u ∧
    (u.inst d b).hold = (s.inst d b).hold.map (fun g => if g.id = h.id then { h with attempt := wAttempt q } else g) ∧
    (u.die d).fab.handoff.length = (s.die d).fab.handoff.length + 1 + (packets220 (h.data.length + 8)).length) ∧
  (s.ctlFirst d 7 b peer q = true → ∃ u : State, exec (.agreeUp d) s = .next u ∧
    (peer, byteAt q.payload 0) ∈ (u.inst d b).agreeKids) ∧
  (s.ctlFirst d 8 b peer q = true → byteAt q.payload 0 = 0 → (s.inst d b).state = 5 → ∃ u : State, exec (.release d) s = .next u ∧
    6 ≤ (u.inst d b).state ∧ (u.inst d b).relA = true ∧ (u.inst d b).timerFrom = s.turn) ∧
  (s.ctlFirst d 8 b peer q = true → byteAt q.payload 0 ≠ 0 → (s.inst d b).state = 7 → ∃ u : State, exec (.release d) s = .next u ∧
    (u.inst d b).state = 8 ∧ (u.inst d b).relB = true ∧ (u.die d).whisk.done = satAdd 32 (s.die d).whisk.done 1) ∧
  (s.ctlFirst d 9 b peer q = true → (s.inst d b).live = true → ∃ u : State, exec (.abort d) s = .next u ∧ (u.inst d b).state = 9 ∧
    AbortCodes (leAt q.payload 0 2) (u.inst d b).codes ∧ (u.inst d b).hold = [] ∧ (u.inst d b).abortTurn = some s.turn ∧
    (u.die d).whisk.aborts = satAdd 16 (s.die d).whisk.aborts 1) ∧
  (s.ctlFirst d 9 b peer q = true → (s.inst d b).state = 9 → (s.inst d b).codes.contains (leAt q.payload 0 2) = false →
    ∃ (u : State) (l : List Nat), exec (.abort d) s = .next u ∧
      (u.inst d b).codes = (s.inst d b).codes ++ leAt q.payload 0 2 :: l ∧ (∀ e ∈ l, e = Code.fabRankInvalid) ∧
      (u.inst d b).abortTurn = (s.inst d b).abortTurn ∧ (u.die d).whisk.aborts = (s.die d).whisk.aborts)) ∧
  (∀ (s : State) (d b peer : Nat) (q : Packet),
  (s.ctlFirst d 2 b peer q = true → (s.inst d b).live = true → (s.team d b).kids.contains peer = true →
    q.payload.take 8 = (Sm3.digest (s.inst d b).bind.plan).take 8 →
    (s.inst d b).preludeParts.all (fun c => c = wChunk q || (s.inst d b).partUp.contains (peer, c)) = true →
    ∃ u : State, exec (.preludeUp d) s = .next u ∧ peer ∈ (u.inst d b).heard) ∧
  (s.ctlFirst d 2 b peer q = true → (s.inst d b).live = true → (s.inst d b).state ≠ 7 → (s.team d b).kids.contains peer = true →
    q.payload.take 8 ≠ (Sm3.digest (s.inst d b).bind.plan).take 8 →
    ∃ u : State, exec (.preludeUp d) s = .next u ∧ (u.inst d b).state = 9 ∧ AbortCodes Code.collPlanMismatch (u.inst d b).codes) ∧
  (s.ctlFirst d 3 b peer q = true → (s.inst d b).state = 2 →
    (s.inst d b).preludeParts.all (fun c => c = wChunk q || (s.inst d b).downParts.contains c) = true →
    ∃ u : State, exec (.preludeDown d) s = .next u ∧ (u.inst d b).ready = true ∧ (u.inst d b).slotTurn = leAt q.payload 0 6 ∧
      (u.inst d b).slot = byteAt q.payload 6 ∧ (u.inst d b).moves = byteAt q.payload 7 ∧
      (u.inst d b).agreed = mergeMax (s.inst d b).agreed (wChunk q) (q.payload.drop 8)) ∧
  (∀ m, (s.inst d b).state = 1 ∨ (s.inst d b).state = 2 → (s.inst d b).upComplete = false → (s.team d b).me = 0 →
    turnCome (s.inst d b).slotTurn s.turn = true → ((s.die d).seq (s.inst d b).org.core).menu.bind s.menu = some m →
    ∃ u : State, exec (.slotCheck d b) s = .next u ∧ (u.inst d b).moves = (s.inst d b).moves + 1 ∧
      ((u.inst d b).slotTurn, (u.inst d b).slot) = m.moveSlot (((s.die d).whisk.movedSlots.filter (fun h => h.2.2 ≠ b)).map
        (fun h => (h.1, h.2.1))) (s.inst d b).slotTurn ∧
      (u.die d).whisk.movedSlots = (s.die d).whisk.movedSlots ++ [((u.inst d b).slotTurn, (u.inst d b).slot, b)]))

/-- Chunks (R352, R354 to R358): DATA_PHASE_START takes an instance whose slot has come and that holds its grant out of READY; CHUNK_SEND
sends the next chunk that can go, holds it and spends its credits; CHUNK_DATA keeps a piece of a chunk, and the last piece has the chunk
verified when its tag matches; a chunk whose tag does not match, or that CHUNK_TIMEOUT finds incomplete, is asked for again, or, after
attempt 2, ends an instance that does not wait at point B. -/
def Obligations.ChunksComplete : Prop :=  ∀ (s : State) (d b : Nat),
  ((s.die d).dataDue b s.turn = true → (s.die d).leave.grants.any (fun g => g.unit = 0) = true →
    ∃ u : State, exec (.dataPhaseStart d b) s = .next u ∧ 4 ≤ (u.inst d b).state ∧
      ((u.inst d b).state = 4 → (u.inst d b).ctx = true)) ∧
  (∀ id v, (s.inst d b).nextSend (s.team d b) = some id → (s.die d).fab.rankOk ((s.team d b).at_ id.peer).1 = true →
    v = (if id.phase = 1 then s.takeSource d b id.chunk else s) → (v.inst d b).live = true →
    ∃ (u : State) (h : HoldChunk), exec (.chunkSend d b) s = .next u ∧ (u.inst d b).hold = (s.inst d b).hold ++ [h] ∧ h.id = id ∧
      h.attempt = 0 ∧ h.data = (if id.phase = 1 then ((v.inst d b).toWire id.chunk ((v.inst d b).wk id.chunk).acc).1
        else ((s.inst d b).wk id.chunk).out) ∧
      (u.inst d b).credits.getD id.peer 0 = (s.inst d b).credits.getD id.peer 0 - (s.inst d b).bind.buffers id.phase id.chunk ∧
      (u.die d).fab.handoff.length = (s.die d).fab.handoff.length + (packets220 (h.data.length + 8)).length ∧
      SameBytes d [] s u) ∧
  (∀ q x peer id r r1 n total, (s.die d).takeRx 4 [1] = some (q, x) → x.bucketOf q = some b →
    (s.team d b).find q.srcRank q.srcDie = some peer →
    id = wChunkId q peer → (s.inst d b).live = true → id.chunk < (s.inst d b).bind.chunks →
    (((s.team d b).sumsIn id.chunk).contains id || ((s.team d b).outIn id.chunk).toList.contains id) = true →
    n = (s.inst d b).bind.bytesOf id.phase id.chunk → total = (n + 8 + 219) / 220 → wIndex q < total →
    r = ((s.inst d b).rx.find? (fun r => r.id = id)).getD { id := id } → r.verified = false → wAttempt q = r.attempt →
    (r.pieces.find (wIndex q)).isSome = false → r1 = { r with pieces := r.pieces.put (wIndex q) q.payload } →
    ((s.inst d b).rx.find? (fun r => r.id = id) = none →
      (s.inst d b).rxUsed + (s.inst d b).bind.buffers id.phase id.chunk ≤ (s.inst d b).rxRes) →
    (r1.pieces.length < total → ∃ u : State, exec (.chunkData d) s = .next u ∧ (u.die d).mem = (s.die d).mem ∧
      (u.inst d b).rx = (if (s.inst d b).rx.find? (fun r => r.id = id) = none then (s.inst d b).rx ++ [r1]
        else (s.inst d b).rx.map (fun e => if e.id = id then r1 else e))) ∧
    (∀ all : Bytes, total ≤ r1.pieces.length → all = (r1.pieces.map Prod.snd).flatten → all.length = n + 8 →
      (all.drop n == chunkTag (s.inst d b).bind.planId (s.inst d b).number id.chunk (all.take n)) = true →
      ∃ u : State, exec (.chunkData d) s = .next u ∧
        ((u.inst d b).state = 9 ∨ ∃ e ∈ (u.inst d b).rx, e.id = id ∧ e.verified = true) ∧
        (id.phase = 2 → ((u.inst d b).wk id.chunk).out = all.take ((s.inst d b).bind.outBytes id.chunk))) ∧
    (∀ all : Bytes, total ≤ r1.pieces.length → all = (r1.pieces.map Prod.snd).flatten →
      (all.drop n == chunkTag (s.inst d b).bind.planId (s.inst d b).number id.chunk (all.take n)) = false → r.attempt < 2 →
      (s.die d).fab.rankOk ((s.team d b).at_ peer).1 = true →
      ∃ u : State, exec (.chunkData d) s = .next u ∧ (u.die d).whisk.resends = satAdd 16 (s.die d).whisk.resends 1 ∧
        (∃ e ∈ (u.inst d b).rx, e.id = id ∧ e.pieces = [] ∧ e.attempt = r.attempt + 1) ∧ (u.die d).mem = (s.die d).mem)) ∧
  (∀ key r, (s.inst d b).rx[key]? = some r → (s.inst d b).live = true → r.verified = false → r.attempt < 2 →
    (s.die d).fab.rankOk ((s.team d b).at_ r.id.peer).1 = true →
    ∃ u : State, exec (.chunkTimeout d b key) s = .next u ∧
      (u.inst d b).rx = (s.inst d b).rx.map (fun e => if e.id = r.id then { e with attempt := r.attempt + 1, pieces := [] } else e) ∧
      (u.die d).whisk.resends = satAdd 16 (s.die d).whisk.resends 1) ∧
  (∀ key r, (s.inst d b).rx[key]? = some r → (s.inst d b).live = true → (s.inst d b).state ≠ 7 → r.verified = false → 2 ≤ r.attempt →
    ∃ u : State, exec (.chunkTimeout d b key) s = .next u ∧ (u.inst d b).state = 9 ∧ AbortCodes Code.collResendFailed (u.inst d b).codes)

/-- CACK ends the repeats of its packet, CTL_REPEAT_TIMEOUT sends it again, COLL_TIMEOUT ends an instance whose timer has run for TIMEOUT
turns, and ABORT_RAISE, 24 turns after the first cause, records the lowest code seen by an aborted instance of its bucket: first of one that
the bucket has left behind, then of its last one (R357, R361, R363, R364). -/
def Obligations.WhiskTimersComplete : Prop :=  ∀ (s : State) (d b : Nat),
  (∀ q x peer, (s.die d).takeRx 4 [10] = some (q, x) → x.bucketOf q = some b → (s.team d b).find q.srcRank q.srcDie = some peer →
    ∃ u : State, exec (.cack d) s = .next u ∧
      (u.inst d b).ctlSent = (s.inst d b).ctlSent.filter (fun c => ! (c.peer = peer && c.index = wIndex q)) ∧
      (u.die d).fab = (s.die d).fab) ∧
  (∀ key c, (s.inst d b).ctlSent[key]? = some c → (s.die d).fab.rankOk ((s.team d b).at_ c.peer).1 = true →
    exec (.ctlRepeatTimeout d b key) s = .next (s.modDie d (fun x => { x with fab := { x.fab with handoff := x.fab.handoff ++
      [.pkt ((s.team d b).at_ c.peer).1 ((s.team d b).at_ c.peer).2 clsCtl c.trans c.payload] } }))) ∧
  ((s.inst d b).live = true → (s.inst d b).state ≠ 7 → (s.inst d b).timerRuns = true →
    turnCome (turnPlus (s.inst d b).timerFrom (s.inst d b).bind.timeout) s.turn = true →
    ∃ u : State, exec (.collTimeout d b) s = .next u ∧ (u.inst d b).state = 9 ∧ AbortCodes Code.collTimeout (u.inst d b).codes ∧
      (u.die d).whisk.aborts = satAdd 16 (s.die d).whisk.aborts 1) ∧
  (∀ i t0, ((s.die d).whisk.insts.map Prod.fst).Pairwise (· < ·) → b < 64 → (s.die d).whisk.insts.find b = some i → i.bind.bucket = b →
    (∀ e ∈ (s.die d).whisk.insts, e.2.bind.bucket = b → e.1 = b) → i.abortDue = true →
    i.abortTurn = some t0 → turnCome (turnPlus t0 24) s.turn = true →
    ∃ u : State, exec (.abortRaise d b) s = .next u ∧ (u.inst d b).abortRaised = true ∧
      (u.die d).whisk.abortPlan = i.bind.planId ∧ (u.die d).whisk.abortInstance = i.number % 65536 ∧
      (u.die d).whisk.abortPhase = i.phase ∧ (u.die d).whisk.abortCode = i.codes.foldl min (i.codes.headD 0)) ∧
  (∀ k i, ((s.die d).whisk.insts.map Prod.fst).Pairwise (· < ·) → (s.die d).whisk.insts.find? (fun e => decide (64 ≤ e.1) &&
      e.2.bind.bucket = b && e.2.abortDue && e.2.abortTurn.any (fun t0 => turnCome (turnPlus t0 24) s.turn)) = some (k, i) →
    ∃ u : State, exec (.abortRaise d b) s = .next u ∧ (∀ j, (u.die d).whisk.insts.find k = some j → j.abortRaised = true) ∧
      (u.die d).whisk.abortPlan = i.bind.planId ∧ (u.die d).whisk.abortInstance = i.number % 65536 ∧
      (u.die d).whisk.abortPhase = i.phase ∧ (u.die d).whisk.abortCode = i.codes.foldl min (i.codes.headD 0))

/-- LEAVE_REQUEST presents the heavy command at the head of a unit once; LEAVE_GRANT gives the first request that can be granted its whole
cost, from its ticket and from headroom, and held and reserved leave stay within the budget; RAMP_FALL lowers the ramp level to held leave
(R373, R375, R376, R379, R380). Where no command heads the unit while a known-answer test runs at the die, LEAVE_REQUEST presents a heavy
command of the test, which asks for unbooked leave (R456); that its cost is any of those of its unit is the model's own choice (log 203).
LVE_BOOK sets the level of a ticket of the next turn, and LVE_RELEASE returns a ticket's undrawn level (R381). -/
def Obligations.LeaveStaysWithinBudget : Prop :=
  (∀ (s : State) (d : Nat),
  (∀ unit key cost ticket, (s.die d).heavyAt unit s.turn = some (key, cost, ticket) → (s.die d).leave.waiting unit key = false →
    (s.die d).leave.granted unit key = false → exec (.leaveRequest d unit) s = .next (s.modDie d (fun x => { x with leave := { x.leave with
      waited := true,
      reqs := x.leave.reqs ++ [{ unit := unit, key := key, cost := cost, ticket := ticket, turn := s.turn }] } }))) ∧
  (∀ unit k, (s.die d).heavyAt unit s.turn = none → s.panel.kats.find d = some k → 1 ≤ unit → unit ≤ 14 →
    (s.die d).leave.waiting unit katLeaveKey = false → ∃ (u : State) (cost : Nat), exec (.leaveRequest d unit) s = .next u ∧ OnlyDie d s u ∧
      cost ∈ katCosts unit ∧ (u.die d).mem = (s.die d).mem ∧ (u.die d).leave.reqs = (s.die d).leave.reqs ++
        [{ unit := unit, key := katLeaveKey, cost := cost, ticket := 0, turn := s.turn }]) ∧
  (∀ r p, (s.die d).leave.firstGrant s.turn (s.die d).leave.reqs false = some (r, p) →
    ∃ u : State, exec (.leaveGrant d) s = .next u ∧ OnlyDie d s u ∧ r ∈ (s.die d).leave.reqs ∧ p.1 + p.2 = r.cost ∧
      (u.die d).leave.held = (s.die d).leave.held + r.cost ∧ (u.die d).leave.granted r.unit r.key = true ∧
      (u.die d).leave.waiting r.unit r.key = false ∧
      ((s.die d).leave.Ok → (u.die d).leave.Ok)) ∧
  (∃ u : State, exec (.rampFall d) s = .next u ∧ (u.die d).leave.ramp = min (s.die d).leave.ramp (s.die d).leave.held ∧
    (u.die d).leave.reqs = (s.die d).leave.reqs ∧ (u.die d).mem = (s.die d).mem)) ∧
  (∀ (s : State) (d c t : Nat) (w : W64), wTicket w = 0 → wField w 45 42 ≠ 0 →
  (s.issues d c t w 6 1 = true → bodyOk w (maskOf 45 42 + maskOf 8 0) = true → wField w 8 0 ≤ 420 →
    exec (.lveBook d c t w) s = .next (s.afterWord d c t w fun s o => (s.modDie d (fun x => { x with leave := { x.leave with
      overrides := x.leave.overrides.put (wField w 45 42) (wField w 8 0) } })).countTag d o)) ∧
  (s.issues d c t w 6 2 = true → bodyOk w (maskOf 45 42) = true →
    exec (.lveRelease d c t w) s = .next (s.afterWord d c t w fun s o => (s.modDie d (fun x => { x with leave := { x.leave with
      undrawn := x.leave.undrawn.put (wField w 45 42) 0 } })).countTag d o)))

/-- BUDGET_RECOMPUTE, ten turns or more after the last, gives every ACTIVE die one budget from 260 to 420 units, and no increase to a hot
die unless the coolant is out of range; a share below 260 is reported, at most once in 1,000 turns (R382). Three points are the model's own
choice: a die in GRACE is hot (log 142), and with no ACTIVE die the share is 420, and an increase is one over NEXT, the budget last written
(log 143). -/
def Obligations.BudgetsAreShared : Prop :=  ∀ (s : State) (busbar leave : Nat), 10 ≤ turnsSince s.panel.budgetTurn s.turn →
    ∃ (u : State) (b : Nat) (share : Int), exec (.budgetRecompute busbar leave) s = .next u ∧ 260 ≤ b ∧ b ≤ 420 ∧
      u.panel.budgetTurn = s.turn ∧ u.panel.busbarW = busbar ∧ u.panel.leaveW = leave ∧
      share = (if s.activeSites = [] then 420 else (((min s.panel.powerLimit s.panel.coolantLimit : Nat) : Int) - ((busbar : Int) - leave)) /
        (s.activeSites.length : Int)) ∧
      (s.panel.coolantOut = true → b = 260) ∧ (s.panel.coolantOut = false → (b : Int) = min 420 (max 260 share)) ∧
      (∀ e ∈ s.activeSites, (u.die e).leave.next =
        (if ((s.die e).thermal.state = .warning ∨ (s.die e).thermal.state = .grace ∨ (s.die e).thermal.state = .throttle) ∧
          s.panel.coolantOut = false then min b (s.die e).leave.next else b)) ∧
      (∀ e, s.activeSite e = false → u.die e = s.die e) ∧
      u.panel.logged = s.panel.logged + (if share < 260 ∧ ∀ t, s.panel.lowTurn = some t → 1000 ≤ turnsSince t s.turn then 1 else 0)

/-- SENSOR_READING records the 16 readings of a window of a die; a good sensor that has stood at 120 °C or more for two readings takes a die
that is not in SHUTDOWN there, with every domain but ALWAYS_ON off; the four readings of a hearth that has not failed go to its own sensors
(R384, R386, R391, R393). The junction and stack loops (R389, R390, R392, R394): SLOPE_HOLD_END ends the hold when no sensor rises;
THERMAL_THROTTLE_STEP, ten turns after the entry or the last step, steps the duty of a loop in THROTTLE; GRACE_TIMER_EXPIRY takes a die in
GRACE to THROTTLE; HBM_TEMP_READ records the temperatures and moves the stack loop. That the stack loop leaves WARNING below HBM_WARN − 5 is
the model's own choice: R392 gives no threshold for it (log 149). -/
def Obligations.ThermalRowsComplete : Prop :=
  (∀ (s : State) (d : Nat) (counts : List Nat),
  (d < 52 → counts.length = 16 → ∃ u : State, exec (.sensorReading d counts) s = .next u ∧
    (u.die d).thermal.sensors = sensorRound 16 gridNeighbours (s.die d).thermal.sensors
      (fun i => sensorValue ((s.die d).n25.getD i 2500) ((s.die d).n105.getD i 1700) (counts.getD i 0)) ∧
    ((s.die d).thermal.state ≠ .shutdown →
      (goodOnes (sensorRound 16 gridNeighbours (s.die d).thermal.sensors
        (fun i => sensorValue ((s.die d).n25.getD i 2500) ((s.die d).n105.getD i 1700) (counts.getD i 0)))).any
          (fun e => decide (2 ≤ e.2.hot)) = true →
      (u.die d).thermal.state = .shutdown ∧ (u.die d).power.on = alwaysOn)) ∧
  (d = 52 ∨ d = 53 → counts.length = 4 → (s.panel.hearth (d - 52)).fail = false → ∃ u : State,
    exec (.sensorReading d counts) s = .next u ∧ (u.panel.hearth (d - 52)).sensors =
      sensorRound 4 (fun i => (List.range 4).filter (fun j => j ≠ i)) (s.panel.hearth (d - 52)).sensors
        (fun i => sensorValue ((s.panel.hearth (d - 52)).n25.getD i 2500) ((s.panel.hearth (d - 52)).n105.getD i 1700) (counts.getD i 0)))) ∧
  (∀ (s : State) (d : Nat),
  ((s.die d).thermal.sensors.any (fun e => e.2.rises) = false →
    exec (.slopeHoldEnd d) s = .next (s.modThermal d (fun t => { t with slope := false }))) ∧
  ((s.die d).thermal.state = .throttle → 10 ≤ turnsSince (s.die d).thermal.throttleTurn s.turn → ∃ u : State,
    exec (.thermalThrottleStep d) s = .next u ∧
    (u.die d).thermal.dThr = dutyStep (s.die d).thermal.tmax 1680 1648 (s.die d).thermal.dThr ∧
    (u.die d).thermal.throttleTurn = turnPlus (s.die d).thermal.throttleTurn 10) ∧
  ((s.die d).thermal.hbmState = .throttle → 10 ≤ turnsSince (s.die d).thermal.hbmTurn s.turn → ∃ u : State,
    exec (.thermalThrottleStep d) s = .next u ∧
    (u.die d).thermal.dHbm = dutyStep (s.die d).thermal.hottest (s.die d).thermal.hbmThrottle ((s.die d).thermal.hbmThrottle - 2)
      (s.die d).thermal.dHbm ∧
    (u.die d).thermal.hbmTurn = turnPlus (s.die d).thermal.hbmTurn 10) ∧
  ((s.die d).thermal.state = .grace → ∃ u : State, exec (.graceTimerExpiry d) s = .next u ∧ (u.die d).thermal.state = .throttle ∧
    (u.die d).thermal.dThr = 12 ∧ (u.die d).thermal.graceExpired = satAdd 16 (s.die d).thermal.graceExpired 1 ∧
    (u.die d).thermal.throttles = satAdd 16 (s.die d).thermal.throttles 1 ∧ u.panel.logged = s.panel.logged + 1) ∧
  (∀ (t0 t1 hot : Int), hot = max t0 t1 → (s.die d).power.good.testBit 20 = true → (s.die d).power.good.testBit 21 = true → ∃ u : State,
    exec (.hbmTempRead d t0 t1) s = .next u ∧ (u.die d).thermal.hbmTemp = [(0, t0), (1, t1)] ∧
    ((s.die d).thermal.hbmState = .normal → (u.die d).thermal.hbmState = (if hot < ((s.die d).thermal.hbmWarn : Int) then .normal
      else if hot < ((s.die d).thermal.hbmThrottle : Int) then .warning else .throttle)) ∧
    ((s.die d).thermal.hbmState = .warning → (u.die d).thermal.hbmState = (if ((s.die d).thermal.hbmThrottle : Int) ≤ hot then .throttle
      else if hot < ((s.die d).thermal.hbmWarn : Int) - 5 then .normal else .warning)) ∧
    ((s.die d).thermal.hbmState = .throttle → (u.die d).thermal.dHbm = (s.die d).thermal.dHbm ∧ (u.die d).thermal.hbmState =
      (if (s.die d).thermal.dHbm = 16 ∧ hot < ((s.die d).thermal.hbmThrottle : Int) - 5 then .warning else .throttle)) ∧
    ((s.die d).thermal.hbmState ≠ .throttle → (u.die d).thermal.hbmState = .throttle → (u.die d).thermal.dHbm = 12)))

/-- Writes of the hearth into a die that a hearth reaches (R15, R26, R370, R371, R390, R396, R460): DIE_PWR_ON switches domains off, and on,
within what R371 and R37 let the hearth have on; POWER_GOOD; THM_CFG; FAB_FENCE; REGISTER_WRITE of the job seed and of the next budget;
nothing happens at a site that no hearth reaches. The model's own choices: a write to a register whose domain is not at power-good changes
nothing (log 171); DIE_PWR_ON ignores the bits that the table of R371 does not let the hearth set, and those that it clears under a running
menu, and starts at most four of the domains at a time (log 202). -/
def Obligations.DieRegistersWrite : Prop :=  ∀ (s : State) (d : Nat),
  (∀ v on good m, s.panel.busbar ≠ .lost → s.reaches d = true →
    m = (bits v 28 0 &&& (if s.mayPower d then s.domainsOf d else 0) ||| (if s.dieBusy d then on else 0)) → on = (s.die d).power.on → good = (s.die d).power.good → good &&& on = good →
    ∃ u : State, exec (.diePwrOn d v) s = .next u ∧
      (∀ n, n < 29 → m.testBit n = false → (u.die d).power.on.testBit n = false ∧ (u.die d).power.good.testBit n = false) ∧
      (∀ n, n < 29 → m.testBit n = true → (u.die d).power.good.testBit n = good.testBit n ∧
        ((u.die d).power.on.testBit n = true ∨
          (on.testBit n = false ∧ 4 ≤ popCount ((u.die d).power.on - (u.die d).power.good &&& (u.die d).power.on) 30))) ∧
      popCount ((u.die d).power.on - (u.die d).power.good &&& (u.die d).power.on) 30 ≤ max 4 (popCount (on - good &&& on) 30) ∧
      (u.die d).power.on.testBit 29 = on.testBit 29) ∧
  (∀ dom, dom < 30 → (s.die d).power.on.testBit dom = true → (s.die d).power.good.testBit dom = false →
    exec (.powerGood d dom) s = .next (s.modDie d (fun x => { x with power := { x.power with good := x.power.good + 2 ^ dom } }))) ∧
  (∀ v, s.reaches d = true → ∃ u : State, exec (.thmCfg d v) s = .next u ∧ (u.die d).thermal.managed = v.testBit 16 ∧
    (u.die d).thermal.hbmThrottle = bits v 15 8 ∧ (u.die d).thermal.hbmWarn = bits v 7 0 ∧
    (u.die d).thermal.state = (if (s.die d).thermal.state = .grace ∧ v.testBit 16 = false then .throttle else (s.die d).thermal.state)) ∧
  (∀ v, s.reaches d = true → exec (.fabFence d v) s = .next (if (s.die d).power.good.testBit 27 then
      s.modDie d (fun x => { x with fab := { x.fab with fenced := v.testBit 0 || (x.fab.fenced && x.fab.selfValid) } })
    else s)) ∧
  (∀ v : W64, s.reaches d = true → (s.die d).power.good.testBit 29 = true →
    exec (.registerWrite d 0x20 v) s = .next (s.modDie d (fun x => { x with seed := v.toNat })) ∧
    ∃ u : State, exec (.registerWrite d 0xC0000 v) s = .next u ∧ (u.die d).leave.next = max 260 (min 420 (bits v.toNat 25 16))) ∧
  (∀ off (v : W64), off ≠ 0x28 → off ≠ 0xD0028 → off / 0x10000 ≠ 0xE → (s.die d).power.good.testBit (regDomain off) = false →
    ∃ u : State, exec (.registerWrite d off v) s = .next u ∧ SameDies s u ∧ u.panel = s.panel) ∧
  (∀ off (v : W64) n, s.reaches d = false → exec (.registerWrite d off v) s = .next s ∧ exec (.diePwrOn d n) s = .next s ∧
    exec (.thmCfg d n) s = .next s ∧ exec (.fabFence d n) s = .next s)

/-- COLD_RESET starts bring-up at step 1 with no job and no menu, every die at ALWAYS_ON with its memory empty, and what the hearths hold in
MRAM, the fuses and the live map standing; BUSBAR_LOSS and BUSBAR_OVERVOLTAGE leave the dies without power at all, and BUSBAR_DIP and
BUSBAR_HIGH only log (R434, R436, R441, R496). That every bay, an OFF one too, takes its reset value at COLD_RESET while its seat stands is
the model's own choice (log 156). -/
def Obligations.ColdResetKeepsMram : Prop :=  ∀ (s : State),
  (∃ u : State, exec .coldReset s = .next u ∧ u.turn = 0 ∧ u.menus = [] ∧ u.panel.job = none ∧ u.panel.bring.step = 1 ∧
    (∀ d, d < 52 → (u.die d).power.on = alwaysOn ∧ (u.die d).mem.cells = []) ∧ u.panel.powerLimit = s.panel.powerLimit ∧
    u.panel.clSet = s.panel.clSet ∧ u.panel.bootSlot = s.panel.bootSlot ∧ u.panel.fuses = s.panel.fuses ∧ u.live = s.live ∧
    u.panel.acceptIndex = s.panel.acceptIndex ∧ u.panel.journal.length = s.panel.journal.length ∧ u.pending = s.pending ∧
    (∀ b, b < 12 → (u.bay b).state = 0 ∧ (u.bay b).seated = (s.bay b).seated)) ∧
  (∀ mv, mv < 48000 → ∃ u : State, exec (.busbarLoss mv) s = .next u ∧ u.panel.busbar = .lost ∧ u.panel.busbarMv = mv ∧
    (∀ d, d < 52 → (u.die d).power.on = 0 ∧ (u.die d).power.good = 0 ∧ (u.die d).mem.cells = []) ∧
    u.panel.powerLimit = s.panel.powerLimit) ∧
  (∀ mv, 59000 < mv → ∃ u : State, exec (.busbarOvervoltage mv) s = .next u ∧ u.panel.busbar = .lost ∧ u.panel.busbarMv = mv ∧
    (∀ d, d < 52 → (u.die d).power.on = 0 ∧ (u.die d).power.good = 0 ∧ (u.die d).mem.cells = []) ∧
    u.panel.powerLimit = s.panel.powerLimit) ∧
  (∀ mv, s.panel.busbar ≠ .lost → 40000 ≤ mv → mv < 48000 → ∃ u : State, exec (.busbarDip mv) s = .next u ∧
    u.panel.busbarMv = mv ∧ u.panel.logged = s.panel.logged + 1 ∧ SameDies s u) ∧
  (∀ mv, s.panel.busbar ≠ .lost → 58000 < mv → ∃ u : State, exec (.busbarHigh mv) s = .next u ∧
    u.panel.busbarMv = mv ∧ u.panel.logged = s.panel.logged + 1 ∧ SameDies s u)

/-- BOTH_HEARTHS_FAILED starts a panel warm reset: the dies take their reset values and keep HBM and the larder, the job context stands;
BRING_UP_START and REFERENCE_CLOCK_RELEASE take bring-up to step 2; DIE_RESET_RESTART samples the straps of a die, hard-fails it when they
differ from those of its site, and else powers, trains and tests it; a die whose power, links or memories fail goes to ALWAYS_ON;
PORT_RESET_END returns a port to RUN and logs it (R28, R32, R434, R436, R438 to R443, R461). The model's own choices: all domains are on at
the end of the step that switches them on (log 202), the reset of a die that is out of service ends at once (log 158), and the form of the
record of an end of reset (log 215). BRING_UP_STEP_DONE ends a step of bring-up: the hearths' self-tests in step 2, the roles in step 3, the
live map in step 4, the straps in step 5, the power of the dies in step 6, the links in step 7, memory training in step 8, the ports and the
start of the tests in step 9, their end in step 10, the rewriting of the dies in step 11, and service after step 12; a die that fails step 7
or 8 goes to ALWAYS_ON (R32, R37, R44, R400, R441, R442, R443, R444). -/
def Obligations.ResetsAndBringUpComplete : Prop :=
  (∀ (s : State),
  ((s.panel.hearths.getD 0 {}).fail = true → (s.panel.hearths.getD 1 {}).fail = true → ∃ u : State,
    exec .bothHearthsFailed s = .next u ∧ u.panel.bring.step = 0 ∧ u.panel.bring.cold = false ∧ u.panel.job = s.panel.job ∧
    (∀ d, (s.dies.find d).isSome = true → (u.die d).power.on = alwaysOn ∧ (u.die d).seed = 0 ∧ (u.die d).standsFor = 0x3F ∧
      ∀ a, a < pantryBase → (u.die d).mem.cells.read a = (s.die d).mem.cells.read a)) ∧
  (s.panel.bring.step = 0 → ∃ u : State, exec .bringUpStart s = .next u ∧ u.panel.bring.step = 2) ∧
  (∀ mv inlet outlet flow, s.panel.bring.step = 1 → s.panel.busbar ≠ .lost → 48000 ≤ mv → mv ≤ 58000 → 1500 ≤ flow → inlet ≤ 640 →
    ∃ u : State, exec (.referenceClockRelease mv inlet outlet flow) s = .next u ∧ u.panel.bring.step = 2 ∧ u.turn = 0 ∧ SameDies s u) ∧
  (∀ d r strap power links mem blamed, s.panel.restarts.find d = some r → r.waiting = true → s.panel.out.contains d = false →
    blamed = linkBlame (links.filter (fun f => touches d f && s.linkTrains d f)) →
    (strap % 4 = strapsOf d → power = true → blamed = [] → mem = true → ∃ u : State,
      exec (.dieResetRestart ⟨d, strap, power, links, mem⟩) s = .next u ∧ (u.die d).power.on = s.domainsOf d ∧ (u.die d).siteNum = d ∧
      (u.die d).orient = strap % 4 ∧ (u.die d).standsFor = (s.site d).standsFor ∧ (u.die d).mem.hbmTrained = 3 ∧
      (u.panel.kats.find d).map Kat.trigger = some 0) ∧
    (strap % 4 = strapsOf d → power = false ∨ d ∈ blamed ∨ mem = false → ∃ u : State,
      exec (.dieResetRestart ⟨d, strap, power, links, mem⟩) s = .next u ∧ (u.die d).power.on = alwaysOn) ∧
    (strap % 4 ≠ strapsOf d → ∃ u : State,
      exec (.dieResetRestart ⟨d, strap, power, links, mem⟩) s = .next u ∧ (u.site d).state = .failed)) ∧
  (∀ d r strap power links mem, s.panel.restarts.find d = some r → r.waiting = true → s.panel.out.contains d = true → ∃ u : State,
    exec (.dieResetRestart ⟨d, strap, power, links, mem⟩) s = .next u ∧ SameDies s u ∧ u.panel.restarts = s.panel.restarts.del d ∧
    u.panel.logged = s.panel.logged + 1) ∧
  (∀ port, (s.port port).state = 1 → ∃ u : State, exec (.portResetEnd port) s = .next u ∧ (u.port port).state = 2 ∧
    s.panel.logged < u.panel.logged ∧ ∀ e, (u.die e).mem = (s.die e).mem)) ∧
  (∀ (s : State) (ok0 ok1 : Bool) (failed : List (Nat × Nat)),
  (s.panel.bring.step = 2 → ∃ u : State, exec (.bringUpStepDone ok0 ok1 failed) s = .next u ∧ u.panel.bring.step = 3 ∧
    (ok0 = true → (u.panel.hearth 0).tested = ! (s.panel.hearth 0).fail) ∧ (ok0 = false → (u.panel.hearth 0).fail = true) ∧
    (ok1 = true → (u.panel.hearth 1).tested = ! (s.panel.hearth 1).fail) ∧ (ok1 = false → (u.panel.hearth 1).fail = true)) ∧
  (∀ x0 x1, s.panel.bring.step = 3 → s.panel.bootOf 0 ok0 = some x0 → s.panel.bootOf 1 ok1 = some x1 →
    ((s.panel.hearth 0).slots.getD x0.1 {}).version = ((s.panel.hearth 1).slots.getD x1.1 {}).version → ∃ u : State,
    exec (.bringUpStepDone ok0 ok1 failed) s = .next u ∧ u.panel.bring.step = 4 ∧ (u.panel.hearth 0).role = .primary ∧
    (u.panel.hearth 1).role = .partner ∧ (u.panel.hearth 0).booted = some x0.1 ∧ (u.panel.hearth 1).booted = some x1.1) ∧
  (s.panel.bring.step = 4 → s.panel.compatClass = 1 ∨ s.panel.compatClass = 2 → ∃ u : State,
    exec (.bringUpStepDone ok0 ok1 []) s = .next u ∧ u.panel.bring.step = 5 ∧ u.panel.pendingMap = u.live ∧
    u.live = formMap s ((s.panel.bring.snapshot).getD s.panel.pendingMap)) ∧
  (s.panel.bring.step = 5 → ∃ u : State, exec (.bringUpStepDone ok0 ok1 failed) s = .next u ∧ u.panel.bring.step = 6 ∧
    (∀ f ∈ failed, s.activeSite f.1 = true → f.2 % 4 ≠ strapsOf f.1 → (u.site f.1).state = .failed)) ∧
  (s.panel.bring.step = 6 → ∃ u : State, exec (.bringUpStepDone ok0 ok1 []) s = .next u ∧
    u.panel.bring.step = 7 ∧ (∀ d ∈ s.stepDies, (u.die d).power.on = s.domainsOf d ∧ (u.die d).power.good = s.domainsOf d ∧
      (u.die d).siteNum = d ∧ (u.die d).standsFor = (s.site d).standsFor)) ∧
  (s.panel.bring.step = 7 → ∃ u : State, exec (.bringUpStepDone ok0 ok1 failed) s = .next u ∧ u.panel.bring.step = 8 ∧
    (∀ d ∈ linkBlame ((failed.filter (fun f => s.stepDies.contains f.1)).filter (s.linkTrains 52)), (u.die d).power.on = alwaysOn)) ∧
  (s.panel.bring.step = 8 → ∃ u : State, exec (.bringUpStepDone ok0 ok1 failed) s = .next u ∧ u.panel.bring.step = 9 ∧
    (∀ d ∈ s.stepDies, if failed.any (fun f => f.1 = d) then (u.die d).power.on = alwaysOn
      else (u.die d).mem.hbmTrained = 3 ∧ (u.die d).mem.larTrained = true ∧ (u.die d).mem.selfRefresh = false)) ∧
  (s.panel.bring.step = 9 → ∃ u : State, exec (.bringUpStepDone ok0 ok1 failed) s = .next u ∧ u.panel.bring.step = 10 ∧
    (∀ n, n < 8 → (u.port n).state = (if (s.port n).held then 0 else 2)) ∧
    (∀ d ∈ s.stepDies, (u.panel.kats.find d).map Kat.trigger = some 0)) ∧
  (s.panel.bring.step = 10 → s.panel.kats.any (fun k => k.2.trigger = 0 && (s.panel.restarts.find k.1).isNone) = false →
    exec (.bringUpStepDone ok0 ok1 failed) s = .next (s.modPanel (fun p => { p with bring := { p.bring with step := 11 } }))) ∧
  (s.panel.bring.step = 11 → ∃ u : State, exec (.bringUpStepDone ok0 ok1 failed) s = .next u ∧ u.panel.bring.step = 12 ∧
    (∀ d ∈ s.stepDies, (u.die d).seed = (s.panel.job.map Job.seed).getD 0 ∧
      (u.die d).mem.regions = s.panel.regionTable (s.site d).standsFor)) ∧
  (s.panel.bring.step = 12 → (∀ e ∈ s.panel.journal, e.state ≠ .executing) → ∃ u : State,
    exec (.bringUpStepDone ok0 ok1 failed) s = .next u ∧ u.panel.bring.step = 13 ∧ (u.port 8).enabled = true))

/-- TURN_TICK increments the turn number modulo 2^48 and takes the coolant readings; in ACQUIRING without an active menu the number may
instead step to the parent's (R56, R57, R64, R383). The discipline loop: BEACON_SEND sends one beacon in a turn on a lit pair, and none in a
turn in which the light is interrupted when it is due; TURN_LOCK after 16 good turns in ACQUIRING; TURN_HOLDOVER_ENTRY after four silent
turns in LOCKED; TURN_HOLDOVER and TURN_MISALIGNED give their notices once (R64, R65, R242). -/
def Obligations.TurnsComplete : Prop :=
  (∀ (s : State) (inlet outlet : Int) (flow : Nat) (light : List (Nat × Nat × Int)), s.panel.bring.step ≠ 1 → s.panel.busbar ≠ .lost →
    ∃ u : State, exec (.turnTick inlet outlet flow light) s = .next u ∧ u.panel.inlet = inlet ∧ u.panel.outlet = outlet ∧
      u.panel.flow = flow ∧ u.panel.coolantLimit = coolantLimit inlet flow ∧
      (((s.panel.time.role ≠ 2 ∧ s.panel.time.role ≠ 3) ∨ s.panel.time.state ≠ 1 ∨ s.anyActive = true) →
        u.turn = (s.turn + 1) % 2 ^ 48) ∧ (∀ d, (u.die d).mem.cells = (s.die d).mem.cells)) ∧
  (∀ (s : State),
  (∀ d p phase, (s.pair d p).lit = true → s.darkens d p = false → (s.port (portOf d p)).gap = false →
    s.beaconDone d p = false → ∃ (u : State) (f : IdleFrame), exec (.beaconSend d p phase) s = .next u ∧
    u.outbox = s.outbox ++ [.idle d p f] ∧ f.hasBeacon = true ∧
    f.beacon = leBytes 6 s.turn ++ leBytes 2 phase ++ leBytes 1 s.panel.time.beaconHops ++ leBytes 1 s.ownGroup ∧
    exec (.beaconSend d p phase) u = .next u) ∧
  (∀ d p phase, (s.pair d p).lit = true → s.darkens d p = false → (s.port (portOf d p)).gap = true → s.beaconDone d p = false →
    ∃ u : State, exec (.beaconSend d p phase) s = .next u ∧ u.outbox = s.outbox ∧ u.beaconDone d p = true ∧ SameDies s u) ∧
  (s.panel.time.state = 1 → 16 ≤ s.panel.time.good → exec .turnLock s = .next (s.modTime (fun t => { t with state := 2 }))) ∧
  (s.panel.time.state = 2 → 4 ≤ s.panel.time.silent → s.panel.time.role = 2 ∨ s.panel.time.role = 3 → ∃ u : State,
    exec .turnHoldoverEntry s = .next u ∧ u.panel.time.state = 3 ∧ u.panel.time.holdover = 0 ∧
    u.panel.time.corrSent = s.panel.time.held ∧ SameDies s u) ∧
  (s.panel.time.state = 3 → 64 ≤ s.panel.time.holdover → s.panel.time.holdNoticed = false → ∃ u : State,
    exec .turnHoldover s = .next u ∧ u.panel.time.holdNoticed = true ∧ u.panel.logged = s.panel.logged + 1) ∧
  (64 < s.panel.time.outside → s.panel.time.misNoticed = false → ∃ u : State,
    exec .turnMisaligned s = .next u ∧ u.panel.time.misNoticed = true ∧ u.panel.logged = s.panel.logged + 1))

/-- HEARTBEAT, HEARTBEAT_LOSS, FAIL_LINE and FIRMWARE_WATCHDOG: a failed hearth is DOWN, its partner becomes SOLE or takes over;
BRIDGE_CLAIM gives the bridge, TAKEOVER_COMPLETE, with no command executing, makes the claimer SOLE and tells every hatch;
NEIGHBOUR_SOLICITATION is answered and PTP_MESSAGE sets the time (R400 to R405). That the partner of a primary that lost its heartbeats is
DOWN, and the other hearth after a takeover, is the model's own choice: R402 gives only the SOLE role (log 49). -/
def Obligations.HearthsFailOver : Prop :=  ∀ (s : State) (k : Nat), k < 2 →
  (exec (.heartbeat k) s = .next (s.modHearth k (fun y => { y with missed := 0 }))) ∧
  (4 ≤ s.panel.bring.step → (s.panel.hearth k).role = .partner → ∃ u : State, exec (.heartbeatLoss k) s = .next u ∧
    u.panel.takeover = some k ∧ (u.panel.hearth k).missed = 5) ∧
  (4 ≤ s.panel.bring.step → (s.panel.hearth k).role = .primary → ∃ u : State, exec (.heartbeatLoss k) s = .next u ∧
    (u.panel.hearth k).role = .sole ∧ (u.panel.hearth (1 - k)).role = .down ∧ u.panel.logged = s.panel.logged + 1) ∧
  ((s.panel.hearth k).fail = false → 4 ≤ s.panel.bring.step → (s.panel.hearth (1 - k)).role = .partner → ∃ u : State,
    exec (.failLine k) s = .next u ∧ (u.panel.hearth k).fail = true ∧ (u.panel.hearth k).role = .down ∧ u.panel.takeover = some (1 - k)) ∧
  ((s.panel.hearth k).fail = false → 4 ≤ s.panel.bring.step → (s.panel.hearth k).role = .partner →
    (s.panel.hearth (1 - k)).role = .primary → ∃ u : State, exec (.firmwareWatchdog k) s = .next u ∧ (u.panel.hearth k).fail = true ∧
    (u.panel.hearth k).role = .down ∧ (u.panel.hearth (1 - k)).role = .sole) ∧
  (∀ stale, s.panel.takeover = some k → (s.panel.hearth s.panel.bridgeOwner).fail = true ∨ stale = true →
    exec (.bridgeClaim k stale) s = .next (s.modPanel (fun p => { p with bridgeOwner := k }))) ∧
  (s.panel.takeover = some k → s.panel.bridgeOwner = k → s.panel.bring.step ≠ 0 →
    (∀ r, (s.panel.hatch 0).record = some r → r.done = true) → (∀ e ∈ s.panel.journal, e.state ≠ .executing) → ∃ u : State,
    exec (.takeoverComplete k) s = .next u ∧ (u.panel.hearth k).role = .sole ∧ (u.panel.hearth (1 - k)).role = .down ∧
    u.panel.takeover = none ∧ u.panel.failovers = satAdd 16 s.panel.failovers 1 ∧ s.panel.logged < u.panel.logged) ∧
  ((s.port 8).up = true → exec .neighbourSolicitation s = .next { s with outbox := s.outbox ++ [.solicitation] }) ∧
  (∀ time, (s.port 8).up = true → s.panel.serves = true → exec (.ptpMessage time) s = .next (s.modPanel (fun p => { p with ptp := some time })))

/-- The write of the sieve to its ring for a buffer of records: the next whole block of the ring, padded with zero records (R472). -/
def SieveBlock (v : Sieve) (records : List Bytes) : KilnReq :=
  { owner := .sieve, block := v.ringBase + 4096 * v.nextBlock
    pieces := [(0, records.flatten ++ List.replicate (4096 - records.flatten.length) 0)] }

/-- KAT_DONE ends the test of a die: a test that passes is logged and changes no byte but those of the KAT areas of the banks and of the
unused last 512 KiB of each tag range; a die that fails the test of bring-up or of a die reset under a new condition goes to ALWAYS_ON,
where the first time its test is repeated and the second time it stays; a die that fails under a condition that it has failed under before
is hard-failed (R443, R455, R457). ACCUMULATOR_CLOSE frees the accumulators of a finished course, and their records enter the buffer of 64
in ascending TENSOR_ID. A record that fills the buffer hands all 64 to the kiln as the next block of the digest ring, and what follows
starts a new buffer; after the end of the menu the buffer goes at once, padded (R471, R472). PORT_WINDOW_END closes the windows of the four
pairs: the counts move to the snapshot and restart. SAMPLE_WINDOW_END records twelve records in a half with source SAMPLE, six per core,
each with the turn, its place and the values of three counters of the core, 0 for the places past the last counter. SLOT_TIMER_FIRE stops or
starts the halves that name it, a half that a timer of the same cycle also stops recording nothing, and SB_GP0_EDGE starts those that wait
for it (R480 to R482). The counts of events that the model's steps do not make one by one are free in the values recorded, as `settle`
leaves them (log 3). -/
def Obligations.TestsAndRecordsComplete : Prop :=
  (∀ (s : State) (d failed : Nat) (k : Kat) (tmax : Int) (duty leave : Nat), s.panel.kats.find d = some k →
  (katPhases failed = 0 → ∃ u : State, exec (.katDone d failed tmax duty leave) s = .next u ∧
    s.panel.logged < u.panel.logged ∧ u.panel.katKeys = s.panel.katKeys ∧
    (k.trigger < 2 → u.panel.kats = s.panel.kats.del d) ∧
    SameBytes d ((List.range 8).map (fun b => (pantryBase + 12582912 * b + 11534336, 1048576)) ++
      [(0x1FFFF80000, 524288), (0x3FFFF80000, 524288)]) s u) ∧
  (k.trigger = 0 → katPhases failed ≠ 0 → (s.panel.katKeys.getD d []).contains (katKey tmax duty leave) = false →
    ∃ u : State, exec (.katDone d failed tmax duty leave) s = .next u ∧ (u.die d).power.on = alwaysOn ∧
      katKey tmax duty leave ∈ u.panel.katKeys.getD d [] ∧
      (if ((s.panel.restarts.find d).map Restart.again).getD false then u.panel.restarts.find d = none ∧ u.panel.out.contains d = true
       else u.panel.restarts.find d = some { waiting := true, again := true })) ∧
  (k.trigger ≤ 2 → katPhases failed ≠ 0 → (s.panel.katKeys.getD d []).contains (katKey tmax duty leave) = true →
    ∃ u : State, exec (.katDone d failed tmax duty leave) s = .next u ∧ (u.die d).power.on = alwaysOn ∧ (u.site d).state = .failed)) ∧
  (∀ (s : State) (d c off : Nat) (v : Sieve) (active : Bool) (closed : List Acc) (all : List Bytes), v = (s.die d).sieve →
  v.accs.any (fun a => a.core = c && a.off = off) = true → off < ((s.die d).seq c).off → (s.die d).digesting c off = false →
  active = (((s.die d).seq c).menu.bind s.menu).any Menu.active →
  closed = (v.accs.filter (fun a => a.core = c && a.off = off)).foldl (fun l a => insertAcc a l) [] →
  all = v.records ++ closed.map
    (fun a => a.record (((s.die d).seq c).start + off) (s.die d).standsFor (((s.die d).seq c).menu.getD 0)) →
  ∃ u : State, exec (.accumulatorClose d c off) s = .next u ∧ OnlyDie d s u ∧
    (u.die d).sieve.accs = v.accs.filter (fun a => ! (a.core = c && a.off = off)) ∧
    (active = true → all.length < 64 → (u.die d).sieve.records = all ∧ (u.die d).mem = (s.die d).mem ∧
      (u.die d).sieve.nextBlock = v.nextBlock) ∧
    (active = true → v.ringBlocks ≠ 0 → v.records.length < 64 → 64 ≤ all.length → all.length < 128 →
      (u.die d).sieve.records = all.drop 64 ∧ (u.die d).mem = (s.die d).mem.kilnPush (SieveBlock v (all.take 64)) ∧
      (u.die d).sieve.nextBlock = (if v.nextBlock + 1 = v.ringBlocks then 0 else v.nextBlock + 1)) ∧
    (active = false → v.ringBlocks ≠ 0 → all.length < 64 →
      (u.die d).sieve.records = [] ∧ (u.die d).mem = (s.die d).mem.kilnPush (SieveBlock v all) ∧
      (u.die d).sieve.nextBlock = (if v.nextBlock + 1 = v.ringBlocks then 0 else v.nextBlock + 1))) ∧
  (∀ (s : State) (d : Nat),
  ((s.die d).obs.wNow ≠ 0 → s.turn % (s.die d).obs.wNow = 0 →
    ((s.die d).obs.ports.getD 0 {}).windows = 0 ∨ ((s.die d).obs.ports.getD 0 {}).endTurn ≠ s.turn →
    ∃ u : State, exec (.portWindowEnd d) s = .next u ∧ OnlyDie d s u ∧
      ∀ p, p < 4 → (u.die d).obs.ports.getD p {} = ((s.die d).obs.ports.getD p {}).close s.turn) ∧
  (∀ h half, h < 2 → half = (if h = 0 then (s.die d).obs.half0 else (s.die d).obs.half1) →
    ((s.die d).obs.w1 ≠ 0 → s.turn % (s.die d).obs.w1 = 0 → half.source = 3 → half.run = true → half.next + 12 < 4096 →
      ∃ u : State, exec (.sampleWindowEnd d) s = .next u ∧
      (if h = 0 then (u.die d).obs.half0 else (u.die d).obs.half1).next = half.next + 12 ∧
      (if h = 0 then (u.die d).obs.half0 else (u.die d).obs.half1).run = true ∧
      (∀ c k, c < 2 → k < 6 → (if h = 0 then (u.die d).obs.half0 else (u.die d).obs.half1).recs.getD (half.next + 6 * c + k) [] =
        traceHead s.turn (256 * c + 3 * k) ++ leBytes 8 (((s.settle d).die d).cnt c (3 * k)).value ++
          leBytes 8 (if k = 5 then 0 else (((s.settle d).die d).cnt c (3 * k + 1)).value) ++
          leBytes 8 (if k = 5 then 0 else (((s.settle d).die d).cnt c (3 * k + 2)).value))) ∧
    (∀ k, ((s.die d).obs.timers.getD k {}).armed = true → ((s.die d).obs.timers.getD k {}).turn = s.turn → half.cfg.testBit 63 = true →
      ∃ u : State, exec (.slotTimerFire d k) s = .next u ∧ ((u.die d).obs.timers.getD k {}).armed = false ∧
      (half.stop = 1 → half.stopT = k → (if h = 0 then (u.die d).obs.half0 else (u.die d).obs.half1).run = false) ∧
      (half.start = 1 → half.startT = k → half.frozen = false →
        (s.die d).stopsAt half s.turn ((s.die d).obs.timers.getD k {}).ref = false →
        (if h = 0 then (u.die d).obs.half0 else (u.die d).obs.half1).run = true) ∧
      (¬ (half.stop = 1 ∧ half.stopT = k) → half.start ≠ 1 ∨ half.startT ≠ k ∨
          (s.die d).stopsAt half s.turn ((s.die d).obs.timers.getD k {}).ref = true →
        (if h = 0 then (u.die d).obs.half0 else (u.die d).obs.half1) = half)) ∧
    (∀ m, s.menus.find? (fun m => m.active && decide ((m.claimOf 0xFF 6 0).map Claim.value = some 1)) = some m →
      d ∈ m.dies.filterMap s.siteOf → half.cfg.testBit 63 = true → half.start = 2 → half.frozen = false → ∃ u : State,
      exec .sbGp0Edge s = .next u ∧ (if h = 0 then (u.die d).obs.half0 else (u.die d).obs.half1).run = true)))

/-- What counting up to now does to a counter: an enabled one whose event the model's steps count one by one, and one that is not enabled,
stand; the counts of the others are free (R476, log 3). CNT_READ with SET 0 writes the CNT_VALUE words of the counters in its mask to the
pantry, ascending, one after the other, and with SET 1 the words of the four CNT_PORT; a counter of issued words gives its value before the
cycle of the read itself. CNT_CTL enables, disables or zeroes the counters in its mask, and nothing else of them and no other counter
changes but by counting; a zeroed counter of issued words holds the issue of the CNT_CTL itself (R477, R478, R479). The words are written
where no FROZEN region lies. -/
def Obligations.CounterWordsComplete : Prop :=  ∀ (s : State) (d c t : Nat) (w : W64) (after : Die), wTicket w = 0 → after = ((s.takeWord d c t w).settle d).die d →
  (∀ e i, i < 16 → ((s.die d).cnt e i).enable = false ∨ (((s.die d).cnt e i).edge = false ∧ countedEvent ((s.die d).cnt e i).event = true ∧
      ((s.die d).cnt e i).event ≠ evIssue) → after.cnt e i = (s.die d).cnt e i) ∧
  (s.issues d c t w 7 1 = true → bodyOk w (maskOf 45 44 + maskOf 41 21 + maskOf 15 0) = true → wField w 45 44 = 1 → wField w 15 0 = 0 →
    pantryBase + 64 * wField w 41 21 + 128 ≤ pantryEnd → (s.panel.job.map Job.counterRead).getD false = true →
    (s.die d).mem.frozen (pantryBase + 64 * wField w 41 21) 128 = false → ∃ u : State,
    exec (.cntRead d c t w) s = .next u ∧ (u.die d).mem.cells = (s.die d).mem.cells.write (pantryBase + 64 * wField w 41 21)
      ((List.range 4).flatMap (fun p => ((s.die d).obs.ports.getD p {}).words.flatMap (leBytes 8)))) ∧
  (∀ l, s.issues d c t w 7 1 = true → bodyOk w (maskOf 45 44 + maskOf 41 21 + maskOf 15 0) = true → wField w 45 44 = 0 →
    l = (List.range 16).filter (fun i => (wField w 15 0).testBit i) →
    pantryBase + 64 * wField w 41 21 + 8 * l.length ≤ pantryEnd → (s.panel.job.map Job.counterRead).getD false = true →
    (s.die d).mem.frozen (pantryBase + 64 * wField w 41 21) (8 * l.length) = false → ∃ u : State,
    exec (.cntRead d c t w) s = .next u ∧ (u.die d).mem.cells = (s.die d).mem.cells.write (pantryBase + 64 * wField w 41 21)
      (l.flatMap (fun i => leBytes 8 (if (after.cnt c i).issues then ((s.die d).cnt c i).value else (after.cnt c i).value)))) ∧
  (s.issues d c t w 7 2 = true → bodyOk w (maskOf 45 44 + maskOf 15 0) = true → wField w 45 44 ≠ 3 → ∃ u : State,
    exec (.cntCtl d c t w) s = .next u ∧ (u.die d).mem = (s.die d).mem ∧
      (∀ i, i < 16 → (wField w 15 0).testBit i = true →
        ((u.die d).cnt c i).edge = ((s.die d).cnt c i).edge ∧ ((u.die d).cnt c i).event = ((s.die d).cnt c i).event ∧
        (wField w 45 44 = 0 → ((u.die d).cnt c i).enable = true ∧ ((u.die d).cnt c i).count = (after.cnt c i).count) ∧
        (wField w 45 44 = 1 → ((u.die d).cnt c i).enable = false ∧ ((u.die d).cnt c i).count = (after.cnt c i).count) ∧
        (wField w 45 44 = 2 → ((u.die d).cnt c i).enable = ((s.die d).cnt c i).enable ∧ ((u.die d).cnt c i).ovf = false ∧
          ((u.die d).cnt c i).count = (if (s.die d).obs.held = false ∧ ((s.die d).cnt c i).enable = true ∧ ((s.die d).cnt c i).edge = false ∧
            ((s.die d).cnt c i).event = evIssue then 1 else 0))) ∧
      (∀ e i, i < 16 → e ≠ c ∨ (wField w 15 0).testBit i = false → (u.die d).cnt e i = after.cnt e i))

/-- A read command is answered on arrival with one FINISH, code 0 and its values, or with GW_PAYLOAD when it breaks its layout: a wrong
length, a reserved field that is not zero, an operand out of range. STATUS_GET of an ID that names no register answers a zero word for it,
with GW_PAYLOAD; DIE_READ of a number that no die serves answers SITE_VACANT. A status read of one register changes nothing but GW_COUNT,
which clears when read (R412, R422, R423, R431, R510). -/
def Obligations.ReadCommandsAnswerOnce : Prop :=  ∀ (s : State) (h : Nat) (pl : Bytes),
  (∀ v, s.readable h 0x0001 = true → pl.length = 2 → s.statusReg (leAt pl 0 2) = some v →
    exec (.statusGet h pl) s = .next ((if leAt pl 0 2 = 6 then s.modPanel Panel.clearGw else s).reply h (2 ^ 48 - 1) 0x0001 .finish 0 false
      (leBytes 8 v))) ∧
  (s.readable h 0x0002 = true → exec (.siteMapGet h []) s = .next (s.reply h (2 ^ 48 - 1) 0x0002 .finish 0 false
    (s.mapBytes s.live ++ s.mapBytes s.panel.pendingMap ++ leBytes 8 s.siteSummary ++ leBytes 8 s.panel.features))) ∧
  (s.readable h 0x0003 = true → ∃ b : Bytes, exec (.fabricGet h []) s = .next (s.reply h (2 ^ 48 - 1) 0x0003 .finish 0 false b) ∧
    b.length = 1184 ∧ leAt b 8 8 = s.panel.fabric.word % 2 ^ 64) ∧
  (s.readable h 0x0004 = true → pl.length = 8 → byteAt pl 0 < 16 → allZero (sliceAt pl 1 7) = true → ∃ b : Bytes,
    exec (.hatchStatus h pl) s = .next (s.reply h (2 ^ 48 - 1) 0x0004 .finish 0 false b) ∧ b.length = 32 ∧
    leAt b 0 8 = (s.panel.hatch (byteAt pl 0)).nextSeq % 2 ^ 64 ∧ leAt b 16 4 = s.panel.countIn (byteAt pl 0) .accepted % 2 ^ 32) ∧
  (s.readable h 0x0005 = true → pl.length = 40 → byteAt pl 0x20 < 2 → allZero (sliceAt pl 0x21 7) = true → ∃ b : Bytes,
    exec (.attestGet h pl) s = .next (s.reply h (2 ^ 48 - 1) 0x0005 .finish 0 false b) ∧ leAt b 8 8 = s.panel.serial % 2 ^ 64 ∧
    sliceAt b 0x10 32 = pl.take 32) ∧
  (∀ d n r, s.readable h 0x0006 = true → pl.length = 16 → n = byteAt pl 1 → 1 ≤ n → n ≤ 64 → allZero (sliceAt pl 2 6) = true →
    leAt pl 8 8 % 8 = 0 → controlBase ≤ leAt pl 8 8 → leAt pl 8 8 + 8 * n ≤ 0x8000000000 → s.siteOf (byteAt pl 0) = some d →
    s.inService d = true → r = State.readRegs d n (leAt pl 8 8 - controlBase) s →
    exec (.dieRead h pl) s = .next (r.2.reply h (2 ^ 48 - 1) 0x0006 .finish 0 false (r.1.flatMap (leBytes 8)))) ∧
  (∀ vs t, s.readable h 0x0001 = true → pl.length % 2 = 0 → 2 ≤ pl.length → pl.length ≤ 512 →
    State.statusRegs ((List.range (pl.length / 2)).map (fun i => leAt pl (2 * i) 2)) s = (vs, false, t) →
    exec (.statusGet h pl) s = .next (t.reply h (2 ^ 48 - 1) 0x0001 .finish 0 false (vs.flatMap (leBytes 8)))) ∧
  (∀ i op bad, (i, op, bad) ∈
      [(Instr.statusGet h pl, 0x0001, pl.length % 2 ≠ 0 ∨ pl.length < 2 ∨ 512 < pl.length),
       (Instr.siteMapGet h pl, 0x0002, pl.length ≠ 0), (Instr.fabricGet h pl, 0x0003, pl.length ≠ 0),
       (Instr.hatchStatus h pl, 0x0004, pl.length ≠ 8 ∨ 16 ≤ byteAt pl 0 ∨ allZero (sliceAt pl 1 7) = false),
       (Instr.attestGet h pl, 0x0005, pl.length ≠ 40 ∨ 2 ≤ byteAt pl 0x20 ∨ allZero (sliceAt pl 0x21 7) = false),
       (Instr.dieRead h pl, 0x0006, pl.length ≠ 16 ∨ byteAt pl 1 = 0 ∨ 64 < byteAt pl 1 ∨ allZero (sliceAt pl 2 6) = false ∨
         leAt pl 8 8 % 8 ≠ 0 ∨ leAt pl 8 8 < controlBase ∨ 0x8000000000 < leAt pl 8 8 + 8 * byteAt pl 1)] → bad →
    s.readable h op = true → exec i s = .next (s.reply h (2 ^ 48 - 1) op .finish Code.gwPayload false [])) ∧
  (s.readable h 0x0001 = true → pl.length = 2 → s.statusReg (leAt pl 0 2) = none →
    exec (.statusGet h pl) s = .next (s.reply h (2 ^ 48 - 1) 0x0001 .finish Code.gwPayload false (List.replicate 8 0))) ∧
  (∀ vs t, s.readable h 0x0001 = true → pl.length % 2 = 0 → 2 ≤ pl.length → pl.length ≤ 512 →
    State.statusRegs ((List.range (pl.length / 2)).map (fun i => leAt pl (2 * i) 2)) s = (vs, true, t) →
    exec (.statusGet h pl) s = .next (t.reply h (2 ^ 48 - 1) 0x0001 .finish Code.gwPayload false (vs.flatMap (leBytes 8)))) ∧
  (s.readable h 0x0006 = true → pl.length = 16 → 1 ≤ byteAt pl 1 → byteAt pl 1 ≤ 64 → allZero (sliceAt pl 2 6) = true →
    leAt pl 8 8 % 8 = 0 → controlBase ≤ leAt pl 8 8 → leAt pl 8 8 + 8 * byteAt pl 1 ≤ 0x8000000000 → s.vacant (byteAt pl 0) = true →
    exec (.dieRead h pl) s = .next (s.reply h (2 ^ 48 - 1) 0x0006 .finish Code.siteVacant false []))

/-- COMMAND_ACCEPT takes a command into the journal exactly once: the next SEQ becomes an ACCEPTED entry at the end of the journal and is
answered with ACCEPT, and the same command again is answered from its entry and makes none; another command under its SEQ, a SEQ without an
entry and a SEQ out of range are rejected, a SEQ ahead is held without a reply, and a full journal answers BUSY (R410, R413, R414).
COMMAND_EXECUTE_START starts the oldest ACCEPTED entry of its hatch (R415). The model's own choices: what ACKED_SEQ covers is retired before
the command is looked at (log 22), a second copy of a held SEQ is dropped (log 23), and so is, without a reply, a datagram that the inbound
queue does not admit (log 205). -/
def Obligations.AcceptanceIsExactlyOnce : Prop :=  ∀ (s : State),
  (∀ (dg : Bytes) (g : GwHeader) (c : OpClass) (p : Panel) (dist : Int), GwHeader.parse dg = g → s.listens = true →
    s.panel.authentic dg = true → g.typ = 1 →
    g.ok (dg.length - 64) = true → opClass g.opcode = some c → c = .oper ∨ c = .job → s.mayRun g.hatch g.opcode c = true → g.read = false →
    s.panel.powerDown = false → s.panel.romMode = false → s.isSole = false → p = s.panel.retire g.hatch g.arg →
    s.panel.hearthAdmits g.hatch ((dg.length + 63) / 64) = true →
    dist = signed 48 ((g.seq + 2 ^ 48 - (s.panel.hatch g.hatch).nextSeq) % 2 ^ 48) →
    (g.seq = (s.panel.hatch g.hatch).nextSeq → g.seq < 2 ^ 48 → p.journal.length < 65536 →
      (128 < (dg.drop 64).length → p.pagesUsed < 8192) →
      (s.panel.hatch g.hatch).held.any (fun k => k.1 = (g.seq + 1) % 2 ^ 48) = false →
      ∃ (u : State) (e : Entry), exec (.commandAccept dg) s = .next u ∧ u.panel.journal =
        (p.journal.filter (fun o => ! (o.hatch = g.hatch && o.seq = g.seq))) ++ [e] ∧
        e.hatch = g.hatch ∧ e.seq = g.seq ∧ e.opcode = g.opcode ∧ e.payload = dg.drop 64 ∧ e.state = .accepted ∧ e.turn = s.turn ∧
        e.index = s.panel.acceptIndex ∧ (u.panel.hatch g.hatch).nextSeq = (g.seq + 1) % 2 ^ 48 ∧
        u.outbox = s.outbox ++ [.reply g.hatch g.seq g.opcode ((g.seq + 1) % 2 ^ 48) .accept 0 false []]) ∧
    (dist < 0 → ∃ u : State, exec (.commandAccept dg) s = .next u ∧ u.panel.journal = p.journal ∧
        (u.panel.hatch g.hatch).nextSeq = (s.panel.hatch g.hatch).nextSeq ∧ SameDies s u ∧
        (∀ e, p.entry g.hatch g.seq = some e → e.digest = Sm3.digest (dg.drop 64) → e.opcode = g.opcode →
          u.panel.duplicates = satAdd 16 s.panel.duplicates 1) ∧
        (∀ e, p.entry g.hatch g.seq = some e → ¬ (e.digest = Sm3.digest (dg.drop 64) ∧ e.opcode = g.opcode) → u.outbox = s.outbox ++
          [.reply g.hatch g.seq g.opcode (s.panel.hatch g.hatch).nextSeq .reject Code.gwSeqConflict false []]) ∧
        (p.entry g.hatch g.seq = none → u.outbox = s.outbox ++
          [.reply g.hatch g.seq g.opcode (s.panel.hatch g.hatch).nextSeq .reject Code.gwSeqStale false []])) ∧
    (64 ≤ dist → ∃ u : State, exec (.commandAccept dg) s = .next u ∧ u.panel.journal = p.journal ∧ u.outbox = s.outbox ++
      [.reply g.hatch g.seq g.opcode (s.panel.hatch g.hatch).nextSeq .reject Code.gwSeqRange false []]) ∧
    (0 < dist → dist < 64 → ∃ u : State, exec (.commandAccept dg) s = .next u ∧ u.panel.journal = p.journal ∧ u.outbox = s.outbox ∧
      (u.panel.hatch g.hatch).held = (s.panel.hatch g.hatch).held ++
        (if (s.panel.hatch g.hatch).held.any (fun k => k.1 = g.seq) then [] else [(g.seq, dg)])) ∧
    (g.seq = (s.panel.hatch g.hatch).nextSeq → g.seq < 2 ^ 48 → 65536 ≤ p.journal.length ∨ (128 < (dg.drop 64).length ∧ 8192 ≤ p.pagesUsed) →
      ∃ u : State, exec (.commandAccept dg) s = .next u ∧ u.panel.journal = p.journal ∧ u.outbox = s.outbox ++
        [.reply g.hatch g.seq g.opcode (s.panel.hatch g.hatch).nextSeq .busy Code.journalFull false []])) ∧
  (∀ dg g, GwHeader.parse dg = g → s.panel.authentic dg = true → g.typ = 1 → s.panel.hearthAdmits g.hatch ((dg.length + 63) / 64) = false →
    exec (.commandAccept dg) s = .next s) ∧
  (∀ h e, s.works = true → s.panel.nextEntry h = some e → (∀ o ∈ s.panel.journal, o.hatch = h → o.state ≠ .executing) →
    exec (.commandExecuteStart h) s = .next (s.modEntry h e.seq (fun e => { e with state := .executing })))

/-- Job contexts (R425, R459, R460): JOB_OPEN installs the keys of the job hatches, JOB_CLOSE ends the context, TEARDOWN ends what the job
has under way, EVICT fences the module when the manager's signature holds. That the context stands after TEARDOWN is the model's own choice:
step 4 of R327 says that TEARDOWN ends it, while R460 has it end by JOB_CLOSE or a cold reset, and the model follows R460 (log 133). -/
def Obligations.JobContextCommands : Prop :=  ∀ (s : State) (h : Nat) (e : Entry), isJobHatch h = false →
  (s.runs h 0x0100 e → e.payload.length = 528 → leAt e.payload 0 2 < 2 ^ 12 → leAt e.payload 2 2 < 2 → allZero (sliceAt e.payload 4 4) = true →
    s.panel.job = none → ∃ u : State, exec (.jobOpen h) s = .next u ∧ u.finished h e.seq 0 ∧
      u.panel.job = some { tag := leAt e.payload 0 2, counterRead := leAt e.payload 2 2 = 1, seed := leAt e.payload 8 8,
                           menuKey := sliceAt e.payload 0x10 64 } ∧
      (∀ k, 1 ≤ k → k ≤ 14 → (u.panel.hatch k).key = some (leAt e.payload (0x50 + 32 * (k - 1)) 32) ∧ (u.panel.hatch k).nextSeq = 1) ∧
      ∀ d ∈ s.activeSites, (u.die d).seed = leAt e.payload 8 8) ∧
  (s.runs h 0x0101 e → jobTagOk e.payload = true → s.jobIs (leAt e.payload 0 2) = true → ∃ u : State, exec (.jobClose h) s = .next u ∧
    u.finished h e.seq 0 ∧ u.panel.job = none ∧ u.panel.fenced = false ∧ u.menus = [] ∧ u.panel.plans = [] ∧ u.panel.regions = [] ∧
    (∀ k, 1 ≤ k → k ≤ 14 → (u.panel.hatch k).key = none) ∧ ∀ o ∈ u.panel.journal, isJobHatch o.hatch = false) ∧
  (s.runs h 0x0102 e → jobTagOk e.payload = true → s.jobIs (leAt e.payload 0 2) = true → ∃ u : State, exec (.teardown h) s = .next u ∧
    u.finished h e.seq 0 ∧ u.panel.job = s.panel.job ∧ u.panel.fabric.inForce = none ∧
    (∀ id m, u.menu id = some m → m.active = false) ∧
    ∀ d ∈ s.activeSites, (u.die d).rem.reqs = [] ∧ (u.die d).fab.selfValid = false ∧ (u.die d).fab.ranks = []) ∧
  (∀ t, s.runs h 0x0103 e → e.payload.length = 88 → leAt e.payload 0 4 = 1 → allZero (sliceAt e.payload 0x12 6) = true → s.panel.job.isSome = true →
    s.panel.fabric.inForce = some t → leAt e.payload 4 2 = t.job → leAt e.payload 6 2 = t.rank → t.job < 2 ^ 12 → t.rank < 2 ^ 14 →
    leAt e.payload 8 8 = s.panel.serial → (leAt e.payload 0x10 2 + 65536 - t.epoch) % 65536 ≤ 32767 → ∃ u : State,
    exec (.evict h) s = .next u ∧
    (if Config.sm2Verify s.panel.fmKey (Sm3.digest (e.payload.take 0x18)) (sliceAt e.payload 0x18 64) = true then
      u.finished h e.seq 0 ∧ u.panel.fenced = true ∧ ∀ d ∈ s.activeSites, s.panel.fenced = false → (u.die d).fab.fenced = true
     else u.finished h e.seq Code.evictInvalid ∧ u.panel.fenced = s.panel.fenced ∧ SameDies s u))

/-- The commands of hatch 15 that set what the hearths hold: FABRIC_PUT, RANK_TABLE_PUT, POWER_LIMIT_SET, NOTICE_ROUTE, FIRMWARE_PUT,
FIRMWARE_ACTIVATE and KEYS_PUT (R61, R270, R274, R382, R430, R448, R503, R504). That FABRIC_PUT with COORD_VALID 0 leaves the cleared
coordinate word is the model's own choice (log 54). -/
def Obligations.SettingCommands : Prop :=  ∀ (s : State) (h : Nat) (e : Entry),
  (s.runs h 0x0104 e → fabricOk e.payload = true → ∃ u : State, exec (.fabricPut h) s = .next u ∧ u.finished h e.seq 0 ∧
    (bitAt (leAt e.payload 0 8) 0 = true → u.panel.fabric.origin = bitAt (leAt e.payload 8 8) 16 ∧
      u.panel.fabric.coordValid = bitAt (leAt e.payload 8 8) 15 ∧
      u.panel.fabric.coord = if bitAt (leAt e.payload 8 8) 15 then leAt e.payload 8 8 % 2 ^ 14 else 0x3F80) ∧
    (bitAt (leAt e.payload 0 8) 1 = true → u.panel.time.role = bits (leAt e.payload 0x10 8) 7 6) ∧
    (bitAt (leAt e.payload 0 8) 2 = true → u.panel.fabric.viaMask = leAt e.payload 0x18 16 ∧
      ∀ d ∈ s.activeSites, (u.die d).fab.viaMask = leAt e.payload 0x18 16) ∧
    (bitAt (leAt e.payload 0 8) 3 = true → ∀ d ∈ s.activeSites, (u.die d).fab.gw = u.panel.fabric.gw ∧ (u.die d).fab.gwExcluded = []) ∧
    (bitAt (leAt e.payload 0 8) 3 = false → u.panel.fabric.gw = s.panel.fabric.gw)) ∧
  (s.runs h 0x0104 e → fabricOk e.payload = false → ∃ u : State, exec (.fabricPut h) s = .next u ∧ u.finished h e.seq Code.gwPayload ∧
    SameDies s u ∧ u.panel.fabric = s.panel.fabric ∧ u.panel.time = s.panel.time) ∧
  (s.runs h 0x0105 e → e.payload.length = 16 → leAt e.payload 0 2 < 2 ^ 12 → leAt e.payload 2 2 < 2 ^ 14 → leAt e.payload 6 2 = 0 →
    leAt e.payload 0x0E 2 = 0 → s.panel.fenced = false → s.panel.bulk h e.seq = none → (∀ b ∈ s.panel.bulks, b.running = true) →
    s.panel.bulks.length < 8 → ∃ (u : State) (b : Bulk), exec (.rankTablePut h) s = .next u ∧ u.panel.bulk h e.seq = some b ∧
    b.kind = .ranks ∧ b.pages = 8 ∧ b.running = true ∧ b.held = [] ∧ u.outbox = s.outbox ++ [.bulkAck h e.seq 0 []] ∧ SameDies s u) ∧
  (∀ b, s.runs h 0x0105 e → s.panel.entry h e.seq = some e → e.payload.length = 16 → leAt e.payload 0 2 < 2 ^ 12 → leAt e.payload 2 2 < 2 ^ 14 → leAt e.payload 6 2 = 0 →
    leAt e.payload 0x0E 2 = 0 → s.panel.fenced = false → s.panel.bulk h e.seq = some b → b.held.length = 8 →
    ∃ (u : State) (code : Nat), exec (.rankTablePut h) s = .next u ∧
    code = s.tableCode (leAt e.payload 2 2) (leAt e.payload 4 2) (leAt e.payload 8 6) (rankEntries b.data) ∧
    u.finished h e.seq code ∧ u.panel.bulk h e.seq = none ∧
    (code = 0 → ∃ t ∈ u.panel.fabric.pendingTables, t.rank = leAt e.payload 2 2 ∧ t.epoch = leAt e.payload 4 2 ∧
      t.turn = leAt e.payload 8 6 ∧ t.table = rankEntries b.data) ∧
    (code ≠ 0 → u.panel.fabric.pendingTables = s.panel.fabric.pendingTables)) ∧
  (s.runs h 0x0107 e → e.payload.length = 8 → allZero (sliceAt e.payload 4 4) = true → ∃ u : State, exec (.powerLimitSet h) s = .next u ∧
    SameDies s u ∧ (if 12000 ≤ leAt e.payload 0 4 ∧ leAt e.payload 0 4 ≤ 20000 then
      u.finished h e.seq 0 ∧ u.panel.powerLimit = leAt e.payload 0 4
     else u.finished h e.seq Code.gwPayload ∧ u.panel.powerLimit = s.panel.powerLimit)) ∧
  (s.runs h 0x0108 e → e.payload.length = 11 → (∀ b ∈ e.payload, b.toNat < 16) → ∃ u : State, exec (.noticeRoute h) s = .next u ∧
    u.finished h e.seq 0 ∧ ∀ i, i < 11 → u.panel.route.find (i + 1) = some (byteAt e.payload i)) ∧
  (s.runs h 0x010B e → e.payload.length = 16 + leAt e.payload 8 4 → byteAt e.payload 0 ≤ 1 → allZero (sliceAt e.payload 1 3) = true →
    1 ≤ leAt e.payload 8 4 → leAt e.payload 8 4 ≤ 4080 → allZero (sliceAt e.payload 0x0C 4) = true →
    leAt e.payload 4 4 + leAt e.payload 8 4 ≤ 16777216 →
    (∀ k ∈ s.panel.running, (s.panel.hearth k).booted ≠ some (byteAt e.payload 0) ∧
      leAt e.payload 4 4 ≤ ((s.panel.hearth k).slot (byteAt e.payload 0)).fill) →
    ∃ u : State, exec (.firmwarePut h) s = .next u ∧ u.finished h e.seq 0 ∧ ∀ k ∈ s.panel.running,
      (u.panel.hearth k).slot (byteAt e.payload 0) =
        ((s.panel.hearth k).slot (byteAt e.payload 0)).write (leAt e.payload 4 4) (e.payload.drop 16)) ∧
  (s.runs h 0x010C e → e.payload.length = 8 → byteAt e.payload 0 ≤ 1 → byteAt e.payload 1 ≤ s.panel.clMax → allZero (sliceAt e.payload 2 6) = true →
    (∀ k ∈ s.panel.running, ((s.panel.hearth k).slot (byteAt e.payload 0)).activates s.panel = true) → ∃ u : State,
    exec (.firmwareActivate h) s = .next u ∧ u.panel.bootSlot = byteAt e.payload 0 ∧
    u.panel.clSet = (if byteAt e.payload 1 = 0 then s.panel.clMax else byteAt e.payload 1) ∧ u.panel.bring.step = 0 ∧
    u.panel.powerLimit = s.panel.powerLimit) ∧
  (s.runs h 0x010D e → e.payload.length = 528 → leAt e.payload 0 4 = 1 → leAt e.payload 8 8 = s.panel.serial → s.panel.keyEpoch < leAt e.payload 4 4 →
    ∃ u : State, exec (.keysPut h) s = .next u ∧ SameDies s u ∧
    match Config.sm2Verify s.panel.ownerKey (Sm3.digest (e.payload.take 0x1D0)) (sliceAt e.payload 0x1D0 64), s.keyBlock e.payload with
    | true, some b => u.finished h e.seq 0 ∧ u.panel.ownerKey = sliceAt e.payload 0x10 64 ∧ u.panel.fmKey = sliceAt e.payload 0x50 64 ∧
        u.panel.keyEpoch = leAt e.payload 4 4 ∧ (u.panel.hatch 0).key = some (leAt b 0 32) ∧ (u.panel.hatch 15).key = some (leAt b 32 32) ∧
        (u.panel.hatch 15).nextSeq = 1
    | _, _ => u.finished h e.seq Code.keysInvalid ∧ u.panel.ownerKey = s.panel.ownerKey ∧ u.panel.keyEpoch = s.panel.keyEpoch)

/-- KAT_RUN starts a test on each of its dies; RESET resets a die, a port or the panel, and its entry is FINISHED first; a die in SHUTDOWN
is not reset, and a target that does not exist answers RESET_INVALID (R415, R435, R458). -/
def Obligations.TestAndResetCommands : Prop :=  ∀ (s : State) (h : Nat) (e : Entry),
  (s.runs h 0x0109 e → s.panel.katRun = none → e.payload.length = 16 → allZero (sliceAt e.payload 9 7) = true → 1 ≤ byteAt e.payload 8 →
    byteAt e.payload 8 ≤ 16 → leAt e.payload 0 8 ≠ 0 → (∀ n, (leAt e.payload 0 8).testBit n = true → homeNumber n = true ∧ s.vacant n = false) →
    ((List.range 64).filter (fun n => (leAt e.payload 0 8).testBit n)).length * byteAt e.payload 8 ≤ 127 →
    (∀ m ∈ s.menus, m.active = true → ∀ n ∈ m.dies, (leAt e.payload 0 8).testBit n = false) →
    ∃ (u : State) (r : KatRun), exec (.katRun h) s = .next u ∧ u.panel.katRun = some r ∧ r.hatch = h ∧ r.left = byteAt e.payload 8 - 1 ∧
      (∀ n, n ∈ r.dies ↔ (leAt e.payload 0 8).testBit n = true) ∧ u.panel.executing h 0x0109 = some e ∧
      ∀ n d, n ∈ r.dies → s.siteOf n = some d → ∃ k, u.panel.kats.find d = some k ∧ k.trigger = 2 ∧ k.turn = s.turn) ∧
  (s.runs h 0x010A e → e.payload.length = 8 → allZero (sliceAt e.payload 2 6) = true →
    (byteAt e.payload 0 = 1 → byteAt e.payload 1 < 52 → (s.site (byteAt e.payload 1)).state = .active →
      s.panel.restarts.find (byteAt e.payload 1) = none → (s.die (byteAt e.payload 1)).power.shutdown = false →
      ∃ (u : State) (f : Entry), exec (.reset h) s = .next u ∧ u.panel.entry h e.seq = some f ∧ f.state = .finished ∧
        u.panel.restarts.find (byteAt e.payload 1) = some { waiting := true, again := false } ∧
        (u.die (byteAt e.payload 1)).power.on = alwaysOn ∧ (u.die (byteAt e.payload 1)).standsFor = 0x3F) ∧
    (byteAt e.payload 0 = 2 → byteAt e.payload 1 < 8 → ∃ u : State, exec (.reset h) s = .next u ∧ u.finished h e.seq 0 ∧
      (u.port (byteAt e.payload 1)).state = 1 ∧ (u.port (byteAt e.payload 1)).held = false ∧
      ∀ q ∈ pairsOf (byteAt e.payload 1), (u.pair q.1 q.2).state = .dark) ∧
    (byteAt e.payload 0 = 3 → byteAt e.payload 1 = 0 → ∃ (u : State) (f : Entry), exec (.reset h) s = .next u ∧
      u.panel.entry h e.seq = some f ∧ f.state = .finished ∧ u.panel.bring.step = 0 ∧ u.panel.bring.cold = false ∧ u.panel.job = s.panel.job) ∧
    (byteAt e.payload 0 = 1 → byteAt e.payload 1 < 52 → (s.site (byteAt e.payload 1)).state = .active →
      s.panel.restarts.find (byteAt e.payload 1) = none → (s.die (byteAt e.payload 1)).power.shutdown = true →
      ∃ u : State, exec (.reset h) s = .next u ∧ u.finished h e.seq Code.thermalShutdown ∧ SameDies s u) ∧
    (byteAt e.payload 0 = 0 ∨ 3 < byteAt e.payload 0 ∨ (byteAt e.payload 0 = 1 ∧ 52 ≤ byteAt e.payload 1) ∨
      (byteAt e.payload 0 = 2 ∧ 8 ≤ byteAt e.payload 1) ∨ (byteAt e.payload 0 = 3 ∧ byteAt e.payload 1 ≠ 0) →
      ∃ u : State, exec (.reset h) s = .next u ∧ u.finished h e.seq Code.resetInvalid ∧ SameDies s u))

/-- REGION_PUT and REGION_DELETE change the region tables; MENU_LOAD loads a package that passes its checks and finishes with the first code
of one that does not; MENU_UNLOAD removes a menu that does not run; LAUNCH sets up the cores of its dies or finishes with its code;
COLL_PLAN_PUT, COLL_PLAN_DELETE and QUEUE_FLUSH (R69 to R74, R186, R224, R335, R507 to R510). That COLL_PLAN_DELETE of a plan that is not
held finishes with 0 is the model's own choice (log 39). -/
def Obligations.MenuAndRegionCommands : Prop :=  ∀ (s : State) (h : Nat) (e : Entry),
  (∀ l t, s.runs h 0x0202 e → regionEntries e.payload = some l → s.panel.job.isSome = true → (∀ x ∈ l, s.vacant x.1 = false) →
    installRegions s.panel.regions l = .inl t → ∃ u : State, exec (.regionPut h) s = .next u ∧ u.finished h e.seq 0 ∧ u.panel.regions = t) ∧
  (∀ l t, s.runs h 0x0203 e → regionEntries e.payload = some l → s.panel.job.isSome = true → (∀ x ∈ l, s.vacant x.1 = false) →
    deleteAll s.panel.regions l = some t → ∃ u : State, exec (.regionDelete h) s = .next u ∧ u.finished h e.seq 0 ∧ u.panel.regions = t) ∧
  (∀ d s1 bs, s.runs h 0x0204 e → e.payload.length = 24 → allZero (sliceAt e.payload 1 7) = true → s.panel.job.isSome = true →
    s.panel.fenced = false → s.siteOf (byteAt e.payload 0) = some d → s.inService d = true →
    (s.die d).spanOk (leAt e.payload 8 8) (leAt e.payload 0x10 8) = true →
    s.hearthRead d (leAt e.payload 8 8) (leAt e.payload 0x10 8) = (s1, .inl bs) → ∃ u : State, exec (.menuLoad h) s = .next u ∧
    (s1.packageCode { pkg := bs, loadHatch := h } ≠ 0 →
      u.finished h e.seq (s1.packageCode { pkg := bs, loadHatch := h }) ∧ u.menus = s.menus) ∧
    (∀ t, s1.packageCode { pkg := bs, loadHatch := h } = 0 →
      installRegions s.panel.regions (Menu.regionList { pkg := bs, loadHatch := h }) = .inl t →
      u.finished h e.seq 0 ∧ u.menus.length = s.menus.length + 1 ∧
      u.menus.getLast? = some { pkg := bs, loadHatch := h, lastHatch := s.panel.launchOf (Menu.id { pkg := bs, loadHatch := h }) } ∧
      u.panel.regions = t)) ∧
  (∀ m, s.runs h 0x0205 e → e.payload.length = 8 → s.panel.job.isSome = true → s.menu (leAt e.payload 0 8) = some m → m.active = false →
    ∃ u : State, exec (.menuUnload h) s = .next u ∧ u.finished h e.seq 0 ∧ u.menu (leAt e.payload 0 8) = none ∧
      ∀ k, k ≠ leAt e.payload 0 8 → u.menu k = s.menu k) ∧
  (s.runs h 0x0206 e → s.launchCode e.payload = 0 → ∃ (u : State) (m : Menu) (f : Entry), exec (.launch h) s = .next u ∧
    u.menu (leAt e.payload 0 8) = some m ∧ m.state = .launched ∧ m.s = leAt e.payload 8 6 ∧ m.n = leAt e.payload 0x10 4 ∧
    u.panel.entry h e.seq = some f ∧ f.state = .running ∧
    (∃ n, Output.reply h e.seq 0x0206 n .result 0 false [] ∈ u.outbox) ∧
    ∀ n d c, n ∈ m.dies → s.siteOf n = some d → c < 2 → ((u.die d).seq c).menu = some (leAt e.payload 0 8) ∧
      ((u.die d).seq c).start = leAt e.payload 8 6 ∧ ((u.die d).seq c).off = 0) ∧
  (s.runs h 0x0206 e → s.launchCode e.payload ≠ 0 → ∃ u : State, exec (.launch h) s = .next u ∧
    u.finished h e.seq (s.launchCode e.payload) ∧ SameDies s u) ∧
  (s.runs h 0x0207 e → e.payload.length = 2112 → s.panel.job.isSome = true → planOk e.payload = true → s.panel.plans.length < 256 →
    s.planBound (leAt e.payload 0 2) = false → ∃ u : State, exec (.collPlanPut h) s = .next u ∧ u.finished h e.seq 0 ∧
    u.panel.plans.find (leAt e.payload 0 2) = some e.payload ∧ SameDies s u) ∧
  (s.runs h 0x0208 e → e.payload.length = 8 → leAt e.payload 0 2 ≤ 255 → allZero (sliceAt e.payload 2 6) = true → s.panel.job.isSome = true →
    s.planBound (leAt e.payload 0 2) = false → ∃ u : State, exec (.collPlanDelete h) s = .next u ∧ u.finished h e.seq 0 ∧
    u.panel.plans.find (leAt e.payload 0 2) = none ∧ SameDies s u) ∧
  (∀ d, s.runs h 0x0209 e → e.payload.length = 8 → byteAt e.payload 1 = 0 → menuQueue (leAt e.payload 2 2) = true →
    allZero (sliceAt e.payload 4 4) = true → s.panel.job.isSome = true → s.siteOf (byteAt e.payload 0) = some d → s.inService d = true →
    ∃ u : State, exec (.queueFlush h) s = .next u ∧ u.finished h e.seq 0 ∧ ((u.die d).queue (leAt e.payload 2 2)).items = [] ∧
      ((u.die d).queue (leAt e.payload 2 2)).lastFlush = e.index % 2 ^ 44 ∧ (u.die d).mem = (s.die d).mem)

/-- Transfers in pages (R419, R420): a BULK_PUT or BULK_GET that passes its checks starts with a BULK_ACK, and a BULK_GET of one page sends
it; BULK_DATA lands a page of a BULK_PUT; a transfer whose last page is held finishes; BULK_ACK_TIMER sends BULK_ACKs, and BULK_ABANDONED
ends a transfer. The first page of the bitmaps is the model's own choice: page 0 in the BULK_ACK that starts a transfer, the lowest missing
page in those of the timer (log 41). -/
def Obligations.TransfersComplete : Prop :=  ∀ (s : State) (h : Nat) (e : Entry),
  (s.runs h 0x0200 e → s.panel.bulk h e.seq = none → s.bulkCode true e.payload = 0 → (∀ b ∈ s.panel.bulks, b.running = true) →
    s.panel.bulks.length < 8 → ∃ (u : State) (b : Bulk), exec (.bulkPut h) s = .next u ∧ u.panel.bulk h e.seq = some b ∧ b.running = true ∧
      b.kind = .put ∧ b.die = byteAt e.payload 0 ∧ b.addr = leAt e.payload 8 8 ∧ b.pages = leAt e.payload 0x10 8 ∧ b.held = [] ∧
      u.outbox = s.outbox ++ [.bulkAck h e.seq 0 []] ∧ SameDies s u) ∧
  (∀ d bs, s.runs h 0x0201 e → s.panel.bulk h e.seq = none → s.bulkCode false e.payload = 0 → (∀ b ∈ s.panel.bulks, b.running = true) →
    s.panel.bulks.length < 8 → leAt e.payload 0x10 8 = 1 → s.siteOf (byteAt e.payload 0) = some d →
    ((s.die d).mem.panScan (leAt e.payload 8 8) 4096).2 = false → (s.die d).mem.verifiedRead .hearth (leAt e.payload 8 8) 4096 = .bytes bs →
    ∃ u : State, exec (.bulkGet h) s = .next u ∧ u.outbox = s.outbox ++ [.bulkAck h e.seq 0 [], .bulkData h e.seq 0 bs] ∧
      (u.die d).mem.cells = (s.die d).mem.cells) ∧
  (∀ dg g b d a, GwHeader.parse dg = g → s.listens = true → s.panel.authentic dg = true → g.typ = 5 → g.ok (dg.length - 64) = true →
    s.panel.hearthAdmits g.hatch ((dg.length + 63) / 64) = true → s.panel.bulk g.hatch g.seq = some b → b.running = true → b.kind = .put → g.arg < b.pages → dg.length = 4160 → s.panel.powerDown = false →
    s.pagePlace b g.arg = some (d, a) → (s.die d).mem.frozen a 4096 = false → ∃ u : State, exec (.bulkData dg) s = .next u ∧
    (u.die d).mem.cells = ((s.hearthWrite d a (dg.drop 64)).die d).mem.cells ∧
    ((insertNat g.arg b.held).length ≠ b.pages → ∃ c, u.panel.bulk g.hatch g.seq = some c ∧ c.held = insertNat g.arg b.held) ∧
    ((insertNat g.arg b.held).length = b.pages → u.panel.bulk g.hatch g.seq = none)) ∧
  (s.runs h 0x0201 e → s.panel.bulk h e.seq = none → s.bulkCode false e.payload = 0 → (∀ b ∈ s.panel.bulks, b.running = true) →
    s.panel.bulks.length < 8 → ∃ (u : State) (l : List Output), exec (.bulkGet h) s = .next u ∧
      u.outbox = s.outbox ++ .bulkAck h e.seq 0 [] :: l ∧ ∀ d, (u.die d).mem.cells = (s.die d).mem.cells) ∧
  (∀ i op put, (i, op, put) ∈ [(Instr.bulkPut h, 0x0200, true), (Instr.bulkGet h, 0x0201, false)] → s.runs h op e →
    s.panel.bulk h e.seq = none → s.bulkCode put e.payload ≠ 0 → ∃ u : State, exec i s = .next u ∧
      u.finished h e.seq (s.bulkCode put e.payload) ∧ SameDies s u) ∧
  (∀ dg g b, GwHeader.parse dg = g → s.listens = true → s.panel.authentic dg = true → g.typ = 6 → g.ok (dg.length - 64) = true →
    s.panel.hearthAdmits g.hatch ((dg.length + 63) / 64) = true → s.panel.bulk g.hatch g.seq = some b → b.running = true → b.kind = .get → dg.length = 576 → s.panel.powerDown = false →
    (s.panel.entry g.hatch g.seq).isSome = true →
    ((((bitmapPages g.arg (dg.drop 64)).filter (fun k => decide (k < b.next))).foldl (fun l k => insertNat k l) b.held).length = b.pages) →
    ∃ u : State, exec (.bulkAck dg) s = .next u ∧ u.finished g.hatch g.seq 0 ∧ u.panel.bulk g.hatch g.seq = none) ∧
  (∀ b, s.works = true → b ∈ s.panel.bulks → b.hatch = h → b.running = true → b.kind ≠ .get → ∃ u : State,
    exec (.bulkAckTimer h) s = .next u ∧ Output.bulkAck h b.seq b.missing (b.held.filter (fun k =>
      decide (b.missing ≤ k) && decide (k < b.missing + 4096))) ∈ u.outbox ∧ u.panel = s.panel ∧ u.dies = s.dies) ∧
  (∀ b, s.works = true → s.panel.bulks.find? (fun b => b.hatch = h && b.running) = some b → (s.panel.entry h b.seq).isSome = true →
    ∃ u : State, exec (.bulkAbandoned h) s = .next u ∧ u.finished h b.seq Code.bulkAbandoned ∧ u.panel.bulk h b.seq = none)

/-- FINISH_REPEAT repeats the FINISH of every entry not yet retired; NOTICE_ACK retires notices, and NOTICE_OVERFLOW then tells of those
that were dropped; NOTICE_RESEND sends every notice that is not acknowledged, at most 64 in a message (R227, R414, R430). That
NOTICE_OVERFLOW is queued and logged in the step of the NOTICE_ACK that brings space back is the model's own choice (log 34). -/
def Obligations.RepliesAndNoticesRepeat : Prop :=  ∀ (s : State), s.listens = true →
  (∀ e, s.panel.romMode = false → e ∈ s.panel.journal → e.state = .finished → (s.panel.hatch e.hatch).key.isSome = true → ∃ u : State,
    exec .finishRepeat s = .next u ∧ u.panel = s.panel ∧ u.dies = s.dies ∧
    Output.reply e.hatch e.seq e.opcode (s.panel.hatch e.hatch).nextSeq .finish e.code false e.answer ∈ u.outbox) ∧
  (∀ dg g, GwHeader.parse dg = g → s.panel.authentic dg = true → g.typ = 4 → g.ok (dg.length - 64) = true →
    s.panel.hearthAdmits g.hatch ((dg.length + 63) / 64) = true → (s.panel.hatch g.hatch).dropped = 0 →
    exec (.noticeAck dg) s = .next (s.modPanel (fun p => (p.freeCells (16 + g.hatch) 0
        ((s.panel.hatch g.hatch).notices.filter (fun n => decide (n.seq ≤ g.arg))).length).modHatch g.hatch (fun x =>
      { x with notices := x.notices.filter (fun n => decide (g.arg < n.seq)) })))) ∧
  (∀ dg g, GwHeader.parse dg = g → s.panel.authentic dg = true → g.typ = 4 → g.ok (dg.length - 64) = true →
    s.panel.hearthAdmits g.hatch ((dg.length + 63) / 64) = true → (s.panel.hatch g.hatch).dropped ≠ 0 → g.arg < (s.panel.hatch g.hatch).noticeSeq →
    (s.panel.modHatch g.hatch (fun x => { x with notices := x.notices.filter (fun n => decide (g.arg < n.seq)) })).hearthAdmits (16 + g.hatch) 1 = true →
    ∃ u : State, exec (.noticeAck dg) s = .next u ∧ (u.panel.hatch g.hatch).dropped = 0 ∧ u.panel.logged = s.panel.logged + 1 ∧
      (((u.panel.hatch g.hatch).notices.getLast?).map (fun n => (n.code, n.arg1))) =
        some (Code.noticeOverflow, (s.panel.hatch g.hatch).dropped)) ∧
  (∃ u : State, exec .noticeResend s = .next u ∧ u.dies = s.dies ∧ (∀ h, (u.panel.hatch h).notices = (s.panel.hatch h).notices) ∧
    ∀ h, h < 16 → (s.panel.hatch h).key.isSome = true → ∀ n ∈ (s.panel.hatch h).notices, ∃ l first,
      Output.notices h first l ∈ u.outbox ∧ n ∈ l ∧ l.length ≤ 64)

/-- Lifeline commands act at once, whatever the journal holds: LIFELINE_STATUS, JOURNAL_READ and LOG_DUMP answer, LASER_OFF, PORT_OFF,
DIE_POWER_OFF, PANEL_RESET and POWER_DOWN act, and one that breaks its layout is answered with GW_PAYLOAD and does nothing (R255, R426 to
R428). That POWER_DOWN takes every one of the 52 sites out of service until the next panel reset is the model's own choice (log 169). -/
def Obligations.LifelineCommandsAct : Prop :=  ∀ (s : State) (pl : Bytes) (n : Nat), s.listens = true → (s.panel.hatch 0).key.isSome = true → (s.panel.hatch 0).nextSeq = n →
  (∃ u : State, exec (.lifelineStatus []) s = .next u ∧ SameDies s u ∧ u.panel.journal = s.panel.journal ∧
    u.outbox = s.outbox ++ [.reply 0 n 0x0F00 ((n + 1) % 2 ^ 48) .finish 0 false s.lifeStatus] ∧
    (u.panel.hatch 0).nextSeq = (n + 1) % 2 ^ 48 ∧
    (u.panel.hatch 0).record = some { seq := n, opcode := 0x0F00, code := 0, done := true, request := [], answer := s.lifeStatus }) ∧
  (pl.length = 8 → byteAt pl 0 < 16 → 1 ≤ byteAt pl 1 → byteAt pl 1 ≤ 15 → ∃ u : State, exec (.journalRead pl) s = .next u ∧ SameDies s u ∧
    u.panel.journal = s.panel.journal ∧ u.outbox = s.outbox ++ [.reply 0 n 0x0F01 ((n + 1) % 2 ^ 48) .finish 0 false
      (s.panel.journalBytes (byteAt pl 0) (leAt pl 2 6) (byteAt pl 1))]) ∧
  (pl.length = 8 → allZero (sliceAt pl 4 4) = true → ∃ u : State, exec (.logDump pl) s = .next u ∧ SameDies s u ∧
    u.outbox = s.outbox ++ [.reply 0 n 0x0F02 ((n + 1) % 2 ^ 48) .finish 0 false (s.panel.logBytes (leAt pl 0 4 % 2 ^ 20))]) ∧
  (∃ u : State, exec (.laserOff []) s = .next u ∧ u.panel.laserOff = true ∧ (u.port 8).up = false ∧
    (∀ m, m < 8 → ∀ q ∈ pairsOf m, (u.pair q.1 q.2).state = .dark) ∧
    ∀ b, b < 12 → (s.bay b).seated = true → (u.bay b).state = 5) ∧
  (pl.length = 8 → byteAt pl 0 ≤ 7 → allZero (sliceAt pl 1 7) = true → ∃ u : State, exec (.portOff pl) s = .next u ∧
    (u.port (byteAt pl 0)).state = 0 ∧ (u.port (byteAt pl 0)).held = true ∧ ∀ q ∈ pairsOf (byteAt pl 0), (u.pair q.1 q.2).state = .dark) ∧
  (pl.length = 8 → byteAt pl 0 ≤ 51 → allZero (sliceAt pl 1 7) = true → s.activeSite (byteAt pl 0) = true →
    (s.die (byteAt pl 0)).power.on ≠ alwaysOn → ∃ u : State, exec (.diePowerOff pl) s = .next u ∧
    (u.die (byteAt pl 0)).power.on = alwaysOn ∧ byteAt pl 0 ∈ u.panel.out) ∧
  (∃ u : State, exec (.panelReset []) s = .next u ∧ u.panel.bring.step = 0 ∧ u.panel.bring.cold = false ∧ u.panel.job = s.panel.job ∧
    u.panel.powerDown = false ∧ Output.reply 0 n 0x0F06 ((n + 1) % 2 ^ 48) .finish 0 false [] ∈ u.outbox) ∧
  (∃ u : State, exec (.powerDown []) s = .next u ∧ u.panel.powerDown = true ∧ (∀ d, d < 52 → (u.die d).power.on = alwaysOn) ∧
    ∀ d, d < 52 → d ∈ u.panel.out) ∧
  (∀ i op, (i, op) ∈ [(Instr.lifelineStatus pl, 0x0F00), (Instr.laserOff pl, 0x0F03), (Instr.panelReset pl, 0x0F06), (Instr.powerDown pl, 0x0F07)] →
    pl ≠ [] → ∃ u : State, exec i s = .next u ∧ SameDies s u ∧
    u.outbox = s.outbox ++ [.reply 0 n op ((n + 1) % 2 ^ 48) .finish Code.gwPayload false []]) ∧
  (∀ i op, (i, op) ∈ [(Instr.journalRead pl, 0x0F01), (Instr.logDump pl, 0x0F02), (Instr.portOff pl, 0x0F04), (Instr.diePowerOff pl, 0x0F05)] →
    pl.length ≠ 8 → ∃ u : State, exec i s = .next u ∧ SameDies s u ∧
    u.outbox = s.outbox ++ [.reply 0 n op ((n + 1) % 2 ^ 48) .finish Code.gwPayload false []])

/-- What a cold reset of a module fresh from manufacture leaves (R17, R42, R58, R370, R382, R409), and that it keeps the invariants of the
block. NEXT_SEQ = 1 of hatches 1 to 14 is the model's own choice: R409 gives manufacture only hatches 0 and 15 (log 17). No other choice of
the model for a value that the spec does not give is stated here. -/
def Obligations.ColdResetValues : Prop :=  State.reset.turn = 0 ∧ State.reset.menus = [] ∧ State.reset.panel.job = none ∧ State.reset.panel.journal = [] ∧
  State.reset.panel.powerLimit = 20000 ∧ State.reset.panel.coolantLimit = 20000 ∧ State.reset.panel.fenced = false ∧
  State.reset.panel.bring.step = 1 ∧ (∀ h, h < 16 → (State.reset.panel.hatch h).nextSeq = 1) ∧
  (∀ d, d < 52 → (State.reset.die d).power.on = alwaysOn ∧ (State.reset.die d).seed = 0 ∧ (State.reset.die d).mem.regions = [] ∧
    State.reset.panel.pendingMap.find d = State.reset.live.find d ∧
    (d % 13 ≠ 12 → State.reset.live.find d = some { state := .active, standsFor := d }) ∧
    (d % 13 = 12 → State.reset.live.find d = some { state := .spare, standsFor := 0x3F })) ∧
  State.reset.MemOk ∧ State.reset.panel.HeldOk

/-- Whatever command runs, in whatever state, the memories of every die keep their canonical form: addresses rise, and no byte that reads as
an unwritten one is listed. -/
def Obligations.EveryStepKeepsMemoryForm : Prop :=  ∀ s t : State, s.MemOk → step s = .next t → t.MemOk

/-- Whatever command runs, in whatever state, the power limit stays within 12,000 W to 20,000 W (R382), the level in force stays one that
the module supports (R502), the boot slot names a slot (R503), and the fuses do not change (R51, R445). -/
def Obligations.EveryStepKeepsHeldState : Prop :=  ∀ s t : State, step s = .next t → (s.panel.HeldOk → t.panel.HeldOk) ∧ t.panel.fuses = s.panel.fuses

/-- Packets, link words, idle frames and region entries: what is read out of their words is what was put into them, at every value that
their fields admit; a packet reads as odd when a reserved field of its transport bytes or of its payload is not zero (R185, R240, R277 to
R280). -/
def Obligations.EncodingsRoundTrip : Prop :=  (∀ p : Packet, p.dstRank < 2 ^ 14 → p.dstDie < 2 ^ 6 → p.dstCoord < 2 ^ 14 → p.srcRank < 2 ^ 14 → p.srcDie < 2 ^ 6 → p.cls < 4 →
    p.phase < 8 → p.epoch < 2 ^ 16 → p.job < 2 ^ 12 → p.via < 2 ^ 7 → p.ttl < 2 ^ 6 → p.odd = transOdd p.trans p.payload →
    p.trans.length = 12 → p.payload.length ≤ 220 → p.encode.length = 248 ∧ Packet.decode p.encode = p) ∧
  (∀ l : LinkWord, l.creditQ < 2 ^ 10 → l.creditN < 2 ^ 6 → l.sharedN < 2 ^ 6 → l.encode < 2 ^ 32 ∧ LinkWord.decode l.encode = l) ∧
  (∀ f : IdleFrame, f.txNext < 2 ^ 16 → f.ackSeq < 2 ^ 16 → f.nakSeq < 2 ^ 16 → f.beacon.length = 10 → f.pauseTurn < 2 ^ 48 →
    f.pauseLen < 2 ^ 8 → f.laneNext < 2 ^ 16 → f.laneNow < 2 ^ 16 → f.laneTurn < 2 ^ 48 → f.fab.length = 256 →
    f.encode.length = 508 ∧ IdleFrame.decode (f.encode ++ leBytes 4 (crc32 f.encode)) = some f) ∧
  (∀ r : Region, r.base < 2 ^ 28 → r.blocksM1 < 2 ^ 25 → r.crcBase < 2 ^ 28 → r.tensor < 2 ^ 32 → r.users = 0 →
    r.word0 < 2 ^ 64 ∧ r.word1 < 2 ^ 64 ∧ Region.ofWords r.word0 r.word1 = r)

/-- R38: the stripe set of a site and its ports. Ports are coded X+ 0, X− 1, Y+ 2, Y− 3, Z+ 4, Z− 5, G0 6, G1 7; pairs 0 and 1 belong to
engine 0 and pairs 2 and 3 to engine 1, the pair nearer the logical north end first. -/
def Obligations.StripeSetsGivePorts : Prop :=  ∀ row col, row < 4 → col < 13 →
    ((row + col) % 4 = 0 → (List.range 4).map (portOf (13 * row + col)) = [0, 3, 4, 6]) ∧
    ((row + col) % 4 = 1 → (List.range 4).map (portOf (13 * row + col)) = [1, 2, 5, 7]) ∧
    ((row + col) % 4 = 2 → (List.range 4).map (portOf (13 * row + col)) = [0, 2, 5, 7]) ∧
    ((row + col) % 4 = 3 → (List.range 4).map (portOf (13 * row + col)) = [1, 3, 4, 6])

/-- The mixing function of R139 on unsigned 64-bit values. -/
def mixWord (x : W64) : W64 :=
  let a := (x ^^^ (x >>> 30)) * 0xBF58476D1CE4E5B9#64
  let b := (a ^^^ (a >>> 27)) * 0x94D049BB133111EB#64
  b ^^^ (b >>> 31)

/-- R139: the 24 bits with which a value is rounded are those that the generator gives for the job seed, the tensor and the element index,
and they depend on nothing else. -/
def Obligations.StochasticBitsFollowTheGenerator : Prop :=  ∀ seed tensor index : W64, srBits seed.toNat tensor.toNat index.toNat =
    (mixWord (mixWord (seed ^^^ (tensor * 0x9E3779B97F4A7C15#64)) ^^^ index) >>> 40).toNat

/-- R43: a SITE_MAP_PUT takes the place of the pending map only when its 52 entries keep the seven rules; otherwise the whole write is
rejected with SITE_MAP_INVALID and the pending map stands. Words are the 16-bit entries of R42. -/
def Obligations.SiteMapPutKeepsRules : Prop :=  ∀ (s : State) (h : Nat) (e : Entry) (w : Nat → Nat) (code : Nat → Nat) (own : Nat → Nat) (old : Nat → SiteEntry),
  s.runs h 0x0106 e → e.payload.length = 104 → (∀ d, w d = leAt e.payload (2 * d) 2) → (∀ d, code d = bits (w d) 15 13) →
  (∀ d, own d = w d % 64) → (∀ d, old d = SiteMap.entry s.panel.pendingMap d) →
  let home := fun n => n < 52 ∧ n % 13 ≠ 12
  let kept := (∀ d, d < 52 → code d ≤ 4 ∧ bits (w d) 10 6 = 0) ∧
    (∀ d, d < 52 → (old d).state = .failed ∨ (old d).state = .incompat →
      siteStateOf (w d) = some (old d).state ∧ own d = (old d).standsFor) ∧
    (∀ d, d < 52 → code d = 3 ∨ code d = 4 → (old d).state = .failed ∨ (old d).state = .incompat) ∧
    (∀ d, d < 52 → home d → code d = 0 → own d = d) ∧
    (∀ d, d < 52 → ¬ home d → code d = 0 → home (own d) ∧ code (own d) ≠ 0) ∧
    (∀ d e, d < 52 → e < 52 → d ≠ e → code d = 0 → code e = 0 → own d ≠ own e) ∧
    (∀ d, d < 52 → code d ≠ 0 → own d = 0x3F) ∧
    (∀ d, d < 52 → home d → code d = 1 → (old d).state = .spare) ∧
    (∀ d, d < 52 → ¬ home d → code d = 2 → (old d).state = .off)
  ∃ u : State, exec (.siteMapPut h) s = .next u ∧ SameDies s u ∧ u.live = s.live ∧
    (kept → u.finished h e.seq 0 ∧ ∀ d, d < 52 → ∃ st, siteStateOf (w d) = some st ∧
      SiteMap.entry u.panel.pendingMap d = { state := st, standsFor := own d }) ∧
    (¬ kept → u.finished h e.seq Code.siteMapInvalid ∧ u.panel.pendingMap = s.panel.pendingMap)
end

