-- ==== Sys2Proof/Laws/Bytes.lean ====
section
/-! SUPPORT. Laws of byte strings, digests and the TAG of a datagram (R13, R406, R407). -/
namespace Sys2Proof.Laws
open Sys2Proof Sys2Proof.Machine

@[simp] theorem leBytes_length (n v : Nat) : (leBytes n v).length = n := by
  induction n generalizing v with
  | zero => rfl
  | succ n ih => simp [leBytes, ih]

/-- Reading back the bytes of a number. -/
theorem leNat_leBytes (n v : Nat) (bs : Bytes) : leNat n (leBytes n v ++ bs) = v % 2 ^ (8 * n) := by
  induction n generalizing v with
  | zero => simp [leNat, Nat.mod_one]
  | succ n ih =>
    simp only [leBytes, List.cons_append, leNat, ih, BitVec.toNat_ofNat]
    rw [show 8 * (n + 1) = 8 + 8 * n by omega, Nat.pow_add, Nat.mod_mul]

/-- A number that fits is read back whole. -/
theorem leNat_leBytes_of_lt {n v : Nat} (h : v < 2 ^ (8 * n)) (bs : Bytes) : leNat n (leBytes n v ++ bs) = v := by
  rw [leNat_leBytes, Nat.mod_eq_of_lt h]

theorem leNat_zeros (n k : Nat) : leNat n (List.replicate k 0) = 0 := by
  induction n generalizing k with
  | zero => rfl
  | succ n ih => cases k with
    | zero => simp [leNat]
    | succ k => simp only [List.replicate_succ, leNat, ih k]; rfl

/-- Past a first part, a string of zeros reads 0. -/
theorem leAt_zeros (a : Bytes) (k off n : Nat) (h : a.length ≤ off) : leAt (a ++ List.replicate k 0) off n = 0 := by
  rw [leAt, List.drop_append, List.drop_eq_nil_of_le h, List.drop_replicate]
  exact leNat_zeros _ _

@[simp] theorem beBytes_length (n v : Nat) : (Sm3.beBytes n v).length = n := by simp [Sm3.beBytes]

/-- A digest is 32 bytes long. -/
@[simp] theorem digest_length (bs : Bytes) : (Sm3.digest bs).length = 32 := by simp [Sm3.digest]

/-- A slice of the length of a part, at that part's place, is that part. -/
theorem sliceAt_append (a b c : Bytes) : sliceAt (a ++ b ++ c) a.length b.length = b := by
  unfold sliceAt
  rw [List.append_assoc, List.drop_left, List.take_left]
  simp

/-- A datagram that carries its TAG under a key carries the TAG of that key. -/
theorem tagOf_append (k : Nat) (h pl : Bytes) (hl : h.length = 48) :
    let dg := h ++ (Sm3.hmac (leBytes 32 k) (h ++ List.replicate 16 0 ++ pl)).take 16 ++ pl
    tagOf k dg = sliceAt dg 48 16 := by
  have ht : ((Sm3.hmac (leBytes 32 k) (h ++ List.replicate 16 0 ++ pl)).take 16).length = 16 := by
    simp [Sm3.hmac]
  have h1 : ∀ t : Bytes, (h ++ t ++ pl).take 48 = h := by
    intro t; rw [List.append_assoc, ← hl, List.take_left]
  have h2 : ∀ t : Bytes, t.length = 16 → (h ++ t ++ pl).drop 64 = pl := by
    intro t ht; rw [show 64 = (h ++ t).length by simp [hl, ht], List.drop_left]
  have h3 : ∀ t : Bytes, t.length = 16 → sliceAt (h ++ t ++ pl) 48 16 = t := by
    intro t ht; have := sliceAt_append h t pl; rwa [hl, ht] at this
  show tagOf k _ = sliceAt _ 48 16
  rw [h3 _ ht, tagOf, h1, h2 _ ht]

theorem crcBitsR_lt {w p c : Nat} (hp : p < 2 ^ w) (hc : c < 2 ^ w) (k : Nat) : crcBitsR p k c < 2 ^ w := by
  induction k generalizing c with
  | zero => exact hc
  | succ k ih =>
    have hs : c >>> 1 < 2 ^ w := Nat.lt_of_le_of_lt (Nat.shiftRight_le ..) hc
    unfold crcBitsR
    split
    · exact ih (Nat.xor_lt_two_pow hs hp)
    · exact ih hs

theorem crc32_lt (bs : Bytes) : crc32 bs < 2 ^ 32 := by
  unfold crc32
  refine Nat.xor_lt_two_pow ?_ (by decide)
  suffices h : ∀ (l : Bytes) (c : Nat), c < 2 ^ 32 → l.foldl (fun c b => crcBitsR 0xEDB88320 8 (c ^^^ b.toNat)) c < 2 ^ 32 from
    h bs _ (by decide)
  intro l
  induction l with
  | nil => exact fun c h => h
  | cons b l ih => exact fun c h => ih _ (crcBitsR_lt (by decide) (Nat.xor_lt_two_pow h (by have := b.isLt; omega)) 8)

theorem leAt_append (a b : Bytes) (n : Nat) : leAt (a ++ b) a.length n = leNat n b := by rw [leAt, List.drop_left]

end Sys2Proof.Laws
end

