-- ==== Sys2Proof/Laws/State.lean ====
section
/-! SUPPORT. Small lemmas about sparse tables and about every field of State under every update, so that no later
proof unfolds a record update. -/
namespace Sys2Proof

/-! ### Sparse tables -/

@[simp] theorem Tab.find_nil {α : Type} (k : Nat) : Tab.find ([] : Tab α) k = none := rfl

theorem Tab.find_put_self {α : Type} (t : Tab α) (k : Nat) (v : α) : (t.put k v).find k = some v := by
  fun_induction Tab.put t k v <;> grind [Tab.find]

theorem Tab.find_put_ne {α : Type} (t : Tab α) {k j : Nat} (v : α) (h : j ≠ k) : (t.put k v).find j = t.find j := by
  fun_induction Tab.put t k v <;> grind [Tab.find]

@[simp] theorem Tab.getD_put_self {α : Type} (t : Tab α) (k : Nat) (v d : α) : (t.put k v).getD k d = v := by
  simp [Tab.getD, Tab.find_put_self]

@[simp] theorem Tab.getD_put_ne {α : Type} (t : Tab α) {k j : Nat} (v d : α) (h : j ≠ k) : (t.put k v).getD j d = t.getD j d := by
  simp [Tab.getD, Tab.find_put_ne t v h]

theorem Tab.getD_put {α : Type} (t : Tab α) (k j : Nat) (v d : α) : (t.put k v).getD j d = if j = k then v else t.getD j d := by
  split
  · subst j; simp
  · simp [*]

theorem Tab.find_mapVal {α β : Type} (t : Tab α) (f : Nat → α → β) (k : Nat) : (t.mapVal f).find k = (t.find k).map (f k) := by
  fun_induction Tab.find t k <;> grind [Tab.mapVal, Tab.find]

theorem Tab.getD_mapVal {α : Type} (t : Tab α) (f : Nat → α → α) (k : Nat) (d : α) :
    (t.mapVal f).getD k d = d ∨ (t.mapVal f).getD k d = f k (t.getD k d) := by
  simp only [Tab.getD, Tab.find_mapVal]
  cases h : t.find k with
  | none => exact .inl rfl
  | some v => exact .inr rfl

theorem Tab.mem_put {α : Type} (t : Tab α) (k : Nat) (v : α) {e : Nat × α} (h : e ∈ t.put k v) : e = (k, v) ∨ e ∈ t := by
  fun_induction Tab.put t k v <;> grind

theorem Tab.mem_mapVal {α β : Type} (t : Tab α) (f : Nat → α → β) {e : Nat × β} (h : e ∈ t.mapVal f) :
    ∃ x ∈ t, e = (x.1, f x.1 x.2) := by
  induction t with
  | nil => cases h
  | cons y t ih =>
    rcases List.mem_cons.mp h with h | h
    · exact ⟨y, List.mem_cons_self, h⟩
    · obtain ⟨x, hx, e⟩ := ih h
      exact ⟨x, List.mem_cons_of_mem _ hx, e⟩

theorem Tab.mem_of_find {α : Type} (t : Tab α) (k : Nat) {v : α} (h : t.find k = some v) : ∃ x ∈ t, x.2 = v := by
  fun_induction Tab.find t k
  · cases h
  · cases h; exact ⟨_, List.mem_cons_self, rfl⟩
  · rename_i ih
    obtain ⟨x, hx, e⟩ := ih h
    exact ⟨x, List.mem_cons_of_mem _ hx, e⟩

theorem Tab.getD_mapVal_same {α : Type} (t : Tab α) (f : Nat → α → α) (k : Nat) (d : α) (h : f k d = d) :
    (t.mapVal f).getD k d = f k (t.getD k d) := by
  simp only [Tab.getD, Tab.find_mapVal]
  cases t.find k with
  | none => exact h.symm
  | some v => rfl

namespace Machine

/-! ### Dies -/

@[simp] theorem State.die_setDie_self (s : State) (d : Nat) (x : Die) : (s.setDie d x).die d = x := by
  simp [State.die, State.setDie]
@[simp] theorem State.die_setDie_ne (s : State) {d e : Nat} (x : Die) (h : e ≠ d) : (s.setDie d x).die e = s.die e := by
  simp [State.die, State.setDie, h]
theorem State.die_setDie (s : State) (d e : Nat) (x : Die) : (s.setDie d x).die e = if e = d then x else s.die e := by
  split
  · subst e; simp
  · simp [*]
@[simp] theorem State.die_modDie_self (s : State) (d : Nat) (f : Die → Die) : (s.modDie d f).die d = f (s.die d) := by
  simp [State.modDie]
@[simp] theorem State.die_modDie_ne (s : State) {d e : Nat} (f : Die → Die) (h : e ≠ d) : (s.modDie d f).die e = s.die e := by
  simp [State.modDie, h]
theorem State.die_modDie (s : State) (d e : Nat) (f : Die → Die) : (s.modDie d f).die e = if e = d then f (s.die e) else s.die e := by
  split
  · subst e; simp
  · simp [*]

/-! ### setDie -/

@[simp] theorem State.setDie_pending (s : State) (d : Nat) (x : Die) : (s.setDie d x).pending = s.pending := rfl
@[simp] theorem State.setDie_outbox (s : State) (d : Nat) (x : Die) : (s.setDie d x).outbox = s.outbox := rfl
@[simp] theorem State.setDie_freeCtr (s : State) (d : Nat) (x : Die) : (s.setDie d x).freeCtr = s.freeCtr := rfl
@[simp] theorem State.setDie_turn (s : State) (d : Nat) (x : Die) : (s.setDie d x).turn = s.turn := rfl
@[simp] theorem State.setDie_live (s : State) (d : Nat) (x : Die) : (s.setDie d x).live = s.live := rfl
@[simp] theorem State.setDie_menus (s : State) (d : Nat) (x : Die) : (s.setDie d x).menus = s.menus := rfl
@[simp] theorem State.setDie_panel (s : State) (d : Nat) (x : Die) : (s.setDie d x).panel = s.panel := rfl
@[simp] theorem State.setDie_images (s : State) (d : Nat) (x : Die) : (s.setDie d x).images = s.images := rfl

/-! ### modDie -/

@[simp] theorem State.modDie_pending (s : State) (d : Nat) (f : Die → Die) : (s.modDie d f).pending = s.pending := rfl
@[simp] theorem State.modDie_outbox (s : State) (d : Nat) (f : Die → Die) : (s.modDie d f).outbox = s.outbox := rfl
@[simp] theorem State.modDie_freeCtr (s : State) (d : Nat) (f : Die → Die) : (s.modDie d f).freeCtr = s.freeCtr := rfl
@[simp] theorem State.modDie_turn (s : State) (d : Nat) (f : Die → Die) : (s.modDie d f).turn = s.turn := rfl
@[simp] theorem State.modDie_live (s : State) (d : Nat) (f : Die → Die) : (s.modDie d f).live = s.live := rfl
@[simp] theorem State.modDie_menus (s : State) (d : Nat) (f : Die → Die) : (s.modDie d f).menus = s.menus := rfl
@[simp] theorem State.modDie_panel (s : State) (d : Nat) (f : Die → Die) : (s.modDie d f).panel = s.panel := rfl
@[simp] theorem State.modDie_images (s : State) (d : Nat) (f : Die → Die) : (s.modDie d f).images = s.images := rfl

/-! ### modThread -/

@[simp] theorem State.modThread_pending (s : State) (d c t : Nat) (f : Thread → Thread) : (s.modThread d c t f).pending = s.pending := rfl
@[simp] theorem State.modThread_outbox (s : State) (d c t : Nat) (f : Thread → Thread) : (s.modThread d c t f).outbox = s.outbox := rfl
@[simp] theorem State.modThread_freeCtr (s : State) (d c t : Nat) (f : Thread → Thread) : (s.modThread d c t f).freeCtr = s.freeCtr := rfl
@[simp] theorem State.modThread_turn (s : State) (d c t : Nat) (f : Thread → Thread) : (s.modThread d c t f).turn = s.turn := rfl
@[simp] theorem State.modThread_live (s : State) (d c t : Nat) (f : Thread → Thread) : (s.modThread d c t f).live = s.live := rfl
@[simp] theorem State.modThread_menus (s : State) (d c t : Nat) (f : Thread → Thread) : (s.modThread d c t f).menus = s.menus := rfl
@[simp] theorem State.modThread_panel (s : State) (d c t : Nat) (f : Thread → Thread) : (s.modThread d c t f).panel = s.panel := rfl
@[simp] theorem State.modThread_images (s : State) (d c t : Nat) (f : Thread → Thread) : (s.modThread d c t f).images = s.images := rfl

/-! ### modPanel -/

@[simp] theorem State.modPanel_pending (s : State) (f : Panel → Panel) : (s.modPanel f).pending = s.pending := rfl
@[simp] theorem State.modPanel_outbox (s : State) (f : Panel → Panel) : (s.modPanel f).outbox = s.outbox := rfl
@[simp] theorem State.modPanel_freeCtr (s : State) (f : Panel → Panel) : (s.modPanel f).freeCtr = s.freeCtr := rfl
@[simp] theorem State.modPanel_turn (s : State) (f : Panel → Panel) : (s.modPanel f).turn = s.turn := rfl
@[simp] theorem State.modPanel_dies (s : State) (f : Panel → Panel) : (s.modPanel f).dies = s.dies := rfl
@[simp] theorem State.modPanel_live (s : State) (f : Panel → Panel) : (s.modPanel f).live = s.live := rfl
@[simp] theorem State.modPanel_menus (s : State) (f : Panel → Panel) : (s.modPanel f).menus = s.menus := rfl
@[simp] theorem State.modPanel_images (s : State) (f : Panel → Panel) : (s.modPanel f).images = s.images := rfl
@[simp] theorem State.modPanel_panel (s : State) (f : Panel → Panel) : (s.modPanel f).panel = f s.panel := rfl
@[simp] theorem State.modPanel_die (s : State) (f : Panel → Panel) (i : Nat) : (s.modPanel f).die i = s.die i := rfl

/-! ### modMenu -/

@[simp] theorem State.modMenu_pending (s : State) (id : Nat) (f : Menu → Menu) : (s.modMenu id f).pending = s.pending := rfl
@[simp] theorem State.modMenu_outbox (s : State) (id : Nat) (f : Menu → Menu) : (s.modMenu id f).outbox = s.outbox := rfl
@[simp] theorem State.modMenu_freeCtr (s : State) (id : Nat) (f : Menu → Menu) : (s.modMenu id f).freeCtr = s.freeCtr := rfl
@[simp] theorem State.modMenu_turn (s : State) (id : Nat) (f : Menu → Menu) : (s.modMenu id f).turn = s.turn := rfl
@[simp] theorem State.modMenu_dies (s : State) (id : Nat) (f : Menu → Menu) : (s.modMenu id f).dies = s.dies := rfl
@[simp] theorem State.modMenu_live (s : State) (id : Nat) (f : Menu → Menu) : (s.modMenu id f).live = s.live := rfl
@[simp] theorem State.modMenu_panel (s : State) (id : Nat) (f : Menu → Menu) : (s.modMenu id f).panel = s.panel := rfl
@[simp] theorem State.modMenu_images (s : State) (id : Nat) (f : Menu → Menu) : (s.modMenu id f).images = s.images := rfl
@[simp] theorem State.modMenu_length (s : State) (id : Nat) (f : Menu → Menu) : (s.modMenu id f).menus.length = s.menus.length := by
  simp [State.modMenu]
@[simp] theorem State.modMenu_die (s : State) (id : Nat) (f : Menu → Menu) (i : Nat) : (s.modMenu id f).die i = s.die i := rfl

/-! ### noticeTo -/

@[simp] theorem State.noticeTo_pending (s : State) (about : Option Nat) (code subject a1 a2 a3 : Nat) : (s.noticeTo about code subject a1 a2 a3).pending = s.pending := rfl
@[simp] theorem State.noticeTo_freeCtr (s : State) (about : Option Nat) (code subject a1 a2 a3 : Nat) : (s.noticeTo about code subject a1 a2 a3).freeCtr = s.freeCtr := rfl
@[simp] theorem State.noticeTo_turn (s : State) (about : Option Nat) (code subject a1 a2 a3 : Nat) : (s.noticeTo about code subject a1 a2 a3).turn = s.turn := rfl
@[simp] theorem State.noticeTo_dies (s : State) (about : Option Nat) (code subject a1 a2 a3 : Nat) : (s.noticeTo about code subject a1 a2 a3).dies = s.dies := rfl
@[simp] theorem State.noticeTo_live (s : State) (about : Option Nat) (code subject a1 a2 a3 : Nat) : (s.noticeTo about code subject a1 a2 a3).live = s.live := rfl
@[simp] theorem State.noticeTo_menus (s : State) (about : Option Nat) (code subject a1 a2 a3 : Nat) : (s.noticeTo about code subject a1 a2 a3).menus = s.menus := rfl
@[simp] theorem State.noticeTo_images (s : State) (about : Option Nat) (code subject a1 a2 a3 : Nat) : (s.noticeTo about code subject a1 a2 a3).images = s.images := rfl
@[simp] theorem State.noticeTo_die (s : State) (about : Option Nat) (code subject a1 a2 a3 : Nat) (i : Nat) : (s.noticeTo about code subject a1 a2 a3).die i = s.die i := rfl

/-! ### gatherNotices -/

@[simp] theorem State.gatherNotices_pending (s : State) (h k : Nat) : (s.gatherNotices h k).pending = s.pending := rfl
@[simp] theorem State.gatherNotices_freeCtr (s : State) (h k : Nat) : (s.gatherNotices h k).freeCtr = s.freeCtr := rfl
@[simp] theorem State.gatherNotices_turn (s : State) (h k : Nat) : (s.gatherNotices h k).turn = s.turn := rfl
@[simp] theorem State.gatherNotices_dies (s : State) (h k : Nat) : (s.gatherNotices h k).dies = s.dies := rfl
@[simp] theorem State.gatherNotices_live (s : State) (h k : Nat) : (s.gatherNotices h k).live = s.live := rfl
@[simp] theorem State.gatherNotices_menus (s : State) (h k : Nat) : (s.gatherNotices h k).menus = s.menus := rfl
@[simp] theorem State.gatherNotices_images (s : State) (h k : Nat) : (s.gatherNotices h k).images = s.images := rfl
@[simp] theorem State.gatherNotices_die (s : State) (h k d : Nat) : (s.gatherNotices h k).die d = s.die d := rfl

/-! ### notice -/

@[simp] theorem State.notice_pending (s : State) (code subject a1 a2 a3 : Nat) : (s.notice code subject a1 a2 a3).pending = s.pending := rfl
@[simp] theorem State.notice_freeCtr (s : State) (code subject a1 a2 a3 : Nat) : (s.notice code subject a1 a2 a3).freeCtr = s.freeCtr := rfl
@[simp] theorem State.notice_turn (s : State) (code subject a1 a2 a3 : Nat) : (s.notice code subject a1 a2 a3).turn = s.turn := rfl
@[simp] theorem State.notice_dies (s : State) (code subject a1 a2 a3 : Nat) : (s.notice code subject a1 a2 a3).dies = s.dies := rfl
@[simp] theorem State.notice_live (s : State) (code subject a1 a2 a3 : Nat) : (s.notice code subject a1 a2 a3).live = s.live := rfl
@[simp] theorem State.notice_menus (s : State) (code subject a1 a2 a3 : Nat) : (s.notice code subject a1 a2 a3).menus = s.menus := rfl
@[simp] theorem State.notice_images (s : State) (code subject a1 a2 a3 : Nat) : (s.notice code subject a1 a2 a3).images = s.images := rfl
@[simp] theorem State.notice_die (s : State) (code subject a1 a2 a3 : Nat) (i : Nat) : (s.notice code subject a1 a2 a3).die i = s.die i := rfl

/-! ### logEvent -/

@[simp] theorem State.logEvent_pending (s : State) (kind a2 a3 subject : Nat) : (s.logEvent kind a2 a3 subject).pending = s.pending := rfl
@[simp] theorem State.logEvent_outbox (s : State) (kind a2 a3 subject : Nat) : (s.logEvent kind a2 a3 subject).outbox = s.outbox := rfl
@[simp] theorem State.logEvent_freeCtr (s : State) (kind a2 a3 subject : Nat) : (s.logEvent kind a2 a3 subject).freeCtr = s.freeCtr := rfl
@[simp] theorem State.logEvent_turn (s : State) (kind a2 a3 subject : Nat) : (s.logEvent kind a2 a3 subject).turn = s.turn := rfl
@[simp] theorem State.logEvent_dies (s : State) (kind a2 a3 subject : Nat) : (s.logEvent kind a2 a3 subject).dies = s.dies := rfl
@[simp] theorem State.logEvent_live (s : State) (kind a2 a3 subject : Nat) : (s.logEvent kind a2 a3 subject).live = s.live := rfl
@[simp] theorem State.logEvent_menus (s : State) (kind a2 a3 subject : Nat) : (s.logEvent kind a2 a3 subject).menus = s.menus := rfl
@[simp] theorem State.logEvent_images (s : State) (kind a2 a3 subject : Nat) : (s.logEvent kind a2 a3 subject).images = s.images := rfl
@[simp] theorem State.logEvent_die (s : State) (kind a2 a3 subject : Nat) (i : Nat) : (s.logEvent kind a2 a3 subject).die i = s.die i := rfl

/-! ### reply -/

@[simp] theorem State.reply_pending (s : State) (h seq opcode : Nat) (stage : Stage) (code : Nat) (single : Bool) (payload : Bytes) : (s.reply h seq opcode stage code single payload).pending = s.pending := rfl
@[simp] theorem State.reply_freeCtr (s : State) (h seq opcode : Nat) (stage : Stage) (code : Nat) (single : Bool) (payload : Bytes) : (s.reply h seq opcode stage code single payload).freeCtr = s.freeCtr := rfl
@[simp] theorem State.reply_turn (s : State) (h seq opcode : Nat) (stage : Stage) (code : Nat) (single : Bool) (payload : Bytes) : (s.reply h seq opcode stage code single payload).turn = s.turn := rfl
@[simp] theorem State.reply_dies (s : State) (h seq opcode : Nat) (stage : Stage) (code : Nat) (single : Bool) (payload : Bytes) : (s.reply h seq opcode stage code single payload).dies = s.dies := rfl
@[simp] theorem State.reply_live (s : State) (h seq opcode : Nat) (stage : Stage) (code : Nat) (single : Bool) (payload : Bytes) : (s.reply h seq opcode stage code single payload).live = s.live := rfl
@[simp] theorem State.reply_menus (s : State) (h seq opcode : Nat) (stage : Stage) (code : Nat) (single : Bool) (payload : Bytes) : (s.reply h seq opcode stage code single payload).menus = s.menus := rfl
@[simp] theorem State.reply_panel (s : State) (h seq opcode : Nat) (stage : Stage) (code : Nat) (single : Bool) (payload : Bytes) : (s.reply h seq opcode stage code single payload).panel = s.panel := rfl
@[simp] theorem State.reply_images (s : State) (h seq opcode : Nat) (stage : Stage) (code : Nat) (single : Bool) (payload : Bytes) : (s.reply h seq opcode stage code single payload).images = s.images := rfl
@[simp] theorem State.reply_die (s : State) (h seq opcode : Nat) (stage : Stage) (code : Nat) (single : Bool) (payload : Bytes) (i : Nat) : (s.reply h seq opcode stage code single payload).die i = s.die i := rfl

/-! ### modEntry -/

@[simp] theorem State.modEntry_pending (s : State) (h seq : Nat) (f : Entry → Entry) : (s.modEntry h seq f).pending = s.pending := rfl
@[simp] theorem State.modEntry_outbox (s : State) (h seq : Nat) (f : Entry → Entry) : (s.modEntry h seq f).outbox = s.outbox := rfl
@[simp] theorem State.modEntry_freeCtr (s : State) (h seq : Nat) (f : Entry → Entry) : (s.modEntry h seq f).freeCtr = s.freeCtr := rfl
@[simp] theorem State.modEntry_turn (s : State) (h seq : Nat) (f : Entry → Entry) : (s.modEntry h seq f).turn = s.turn := rfl
@[simp] theorem State.modEntry_dies (s : State) (h seq : Nat) (f : Entry → Entry) : (s.modEntry h seq f).dies = s.dies := rfl
@[simp] theorem State.modEntry_live (s : State) (h seq : Nat) (f : Entry → Entry) : (s.modEntry h seq f).live = s.live := rfl
@[simp] theorem State.modEntry_menus (s : State) (h seq : Nat) (f : Entry → Entry) : (s.modEntry h seq f).menus = s.menus := rfl
@[simp] theorem State.modEntry_images (s : State) (h seq : Nat) (f : Entry → Entry) : (s.modEntry h seq f).images = s.images := rfl
@[simp] theorem State.modEntry_die (s : State) (h seq : Nat) (f : Entry → Entry) (i : Nat) : (s.modEntry h seq f).die i = s.die i := rfl

/-! ### The free counter -/

@[simp] theorem State.fresh_pending (s : State) : s.fresh.2.pending = s.pending := rfl
@[simp] theorem State.fresh_outbox (s : State) : s.fresh.2.outbox = s.outbox := rfl
@[simp] theorem State.fresh_turn (s : State) : s.fresh.2.turn = s.turn := rfl
@[simp] theorem State.fresh_dies (s : State) : s.fresh.2.dies = s.dies := rfl
@[simp] theorem State.fresh_live (s : State) : s.fresh.2.live = s.live := rfl
@[simp] theorem State.fresh_menus (s : State) : s.fresh.2.menus = s.menus := rfl
@[simp] theorem State.fresh_panel (s : State) : s.fresh.2.panel = s.panel := rfl
@[simp] theorem State.fresh_images (s : State) : s.fresh.2.images = s.images := rfl
@[simp] theorem State.fresh_die (s : State) (i : Nat) : s.fresh.2.die i = s.die i := rfl

end Machine
end Sys2Proof
end

