-- ==== Sys2Proof/Laws/Issue.lean ====
section
/-! SUPPORT. What the shared operations of course words do: a word that issues, its checks, and what a word leaves alone. -/
namespace Sys2Proof.Machine

/-- A word that issues and is known runs its effect between the take of the word and the end of the course. -/
theorem State.issue_eq {s : State} {d c t : Nat} {w : W64} {unit op : Nat} (h : s.issues d c t w unit op = true)
    (k : opKnown unit op = true) (act : State → Origin → State) : s.issue d c t w unit op act = s.afterWord d c t w act := by
  simp only [State.issues, Bool.and_eq_true, decide_eq_true_eq] at h
  obtain ⟨⟨h1, rfl⟩, rfl⟩ := h
  simp [State.issue, State.afterWord, h1, k]

/-- Nothing that is not issued changes the state. -/
theorem State.issue_of_not {s : State} {d c t : Nat} {w : W64} (h : s.canIssue d c t w = false) (unit op : Nat)
    (act : State → Origin → State) : s.issue d c t w unit op act = s := by
  simp [State.issue, h]

/-- Checks that all pass leave the effect. -/
theorem State.checked_none {s : State} {d : Nat} {o : Origin} {l : List (Bool × Nat)} (h : lowestCode l = none) (k : State) :
    s.checked d o l k = k := by
  simp [State.checked, h]

theorem State.checked_some {s : State} {d : Nat} {o : Origin} {l : List (Bool × Nat)} {code : Nat} (h : lowestCode l = some code) (k : State) :
    s.checked d o l k = s.raise d o code := by
  simp [State.checked, h]

theorem State.afterWord_congr {s : State} {d c t : Nat} {w : W64} {f g : State → Origin → State}
    (h : f (s.takeWord d c t w) (s.originOf d c t w) = g (s.takeWord d c t w) (s.originOf d c t w)) :
    s.afterWord d c t w f = s.afterWord d c t w g := by
  simp [State.afterWord, h]

/-! ### The take of a word (R78): the thread steps past it, and only sequencer and observation state of the die changes -/

/-- Two dies differ in nothing but their sequencers and their observation unit. -/
def Die.SameUnits (x y : Die) : Prop := ({ y with seqs := x.seqs, obs := x.obs } : Die) = x

theorem Die.SameUnits.refl (x : Die) : Die.SameUnits x x := by simp [Die.SameUnits]

theorem Die.SameUnits.trans {x y z : Die} (h : Die.SameUnits x y) (k : Die.SameUnits y z) : Die.SameUnits x z := by
  have e := congrArg (fun v : Die => ({ v with seqs := x.seqs, obs := x.obs } : Die)) k
  exact e.trans h

/-- Every other field of the two is the same. -/
theorem Die.SameUnits.field {x y : Die} (h : Die.SameUnits x y) {α : Type} (f : Die → α) : f { y with seqs := x.seqs, obs := x.obs } = f x :=
  congrArg f h

theorem State.traceSeq_die (s : State) (d c t : Nat) (w : W64) (word e : Nat) :
    (s.traceSeq d c t w word).die e = { s.die e with obs := ((s.traceSeq d c t w word).die e).obs } := by
  unfold State.traceSeq
  dsimp only
  split
  · rfl
  · by_cases h : e = d
    · subst h
      rw [State.die_modDie_self]
      rfl
    · rw [State.die_modDie_ne _ _ h]
      rfl

theorem State.traceSeq_die_ne (s : State) {d c t : Nat} (w : W64) (word : Nat) {e : Nat} (h : e ≠ d) :
    (s.traceSeq d c t w word).die e = s.die e := by
  unfold State.traceSeq
  dsimp only
  split
  · rfl
  · rw [State.die_modDie_ne _ _ h]
    rfl

theorem State.takeWord_seq (s : State) (d c t : Nat) (w : W64) : ((s.takeWord d c t w).die d).seq c =
    { ((s.die d).seq c).modThread t (fun th => { th with pc := (((s.die d).seq c).thread t).pc + 1 }) with last := t } := by
  unfold State.takeWord
  dsimp only
  rw [State.traceSeq_die, State.die_modDie_self]
  simp [Die.bump, Die.seq, Die.modSeq]

theorem State.takeWord_seq_ne (s : State) (d : Nat) {c e : Nat} (t : Nat) (w : W64) (h : e ≠ c) :
    ((s.takeWord d c t w).die d).seq e = (s.die d).seq e := by
  unfold State.takeWord
  dsimp only
  rw [State.traceSeq_die, State.die_modDie_self]
  simp [Die.bump, Die.seq, Die.modSeq, h]

@[simp] theorem State.takeWord_words (s : State) (d c t : Nat) (w : W64) :
    (((s.takeWord d c t w).die d).seq c).words = ((s.die d).seq c).words := by simp [State.takeWord_seq, Seq.modThread]

theorem State.takeWord_thread (s : State) (d c t : Nat) (w : W64) : (((s.takeWord d c t w).die d).seq c).thread t =
    { ((s.die d).seq c).thread t with pc := (((s.die d).seq c).thread t).pc + 1 } := by
  simp [State.takeWord_seq, Seq.modThread, Seq.thread]

theorem State.takeWord_thread_ne (s : State) (d c : Nat) {t e : Nat} (w : W64) (h : e ≠ t) :
    (((s.takeWord d c t w).die d).seq c).thread e = ((s.die d).seq c).thread e := by
  simp [State.takeWord_seq, Seq.modThread, Seq.thread, h]

theorem State.takeWord_units (s : State) (d c t : Nat) (w : W64) : Die.SameUnits (s.die d) ((s.takeWord d c t w).die d) := by
  unfold State.takeWord
  dsimp only
  rw [State.traceSeq_die, State.die_modDie_self]
  simp [Die.SameUnits, Die.bump, Die.modSeq]

theorem State.takeWord_die_ne (s : State) {d : Nat} (c t : Nat) (w : W64) {e : Nat} (h : e ≠ d) :
    (s.takeWord d c t w).die e = s.die e := by
  unfold State.takeWord
  dsimp only
  rw [State.traceSeq_die_ne _ _ _ h, State.die_modDie_ne _ _ h]

/-- The take of a word changes nothing but the dies and the counter of free values. -/
theorem State.takeWord_rest (s : State) (d c t : Nat) (w : W64) :
    (s.takeWord d c t w).panel = s.panel ∧ (s.takeWord d c t w).menus = s.menus ∧ (s.takeWord d c t w).live = s.live ∧
      (s.takeWord d c t w).turn = s.turn ∧ (s.takeWord d c t w).outbox = s.outbox ∧ (s.takeWord d c t w).images = s.images ∧
      (s.takeWord d c t w).pending = s.pending := by
  unfold State.takeWord State.traceSeq
  dsimp only
  split <;> simp [State.fresh]

@[simp] theorem State.takeWord_panel (s : State) (d c t : Nat) (w : W64) : (s.takeWord d c t w).panel = s.panel := (s.takeWord_rest d c t w).1
@[simp] theorem State.takeWord_menus (s : State) (d c t : Nat) (w : W64) : (s.takeWord d c t w).menus = s.menus := (s.takeWord_rest d c t w).2.1
@[simp] theorem State.takeWord_live (s : State) (d c t : Nat) (w : W64) : (s.takeWord d c t w).live = s.live := (s.takeWord_rest d c t w).2.2.1
@[simp] theorem State.takeWord_turn (s : State) (d c t : Nat) (w : W64) : (s.takeWord d c t w).turn = s.turn := (s.takeWord_rest d c t w).2.2.2.1
@[simp] theorem State.takeWord_outbox (s : State) (d c t : Nat) (w : W64) : (s.takeWord d c t w).outbox = s.outbox :=
  (s.takeWord_rest d c t w).2.2.2.2.1

/-! ### Counting a tag and the end of a course -/

theorem State.countTag_units (s : State) (d : Nat) (o : Origin) (e : Nat) : Die.SameUnits (s.die e) ((s.countTag d o).die e) := by
  unfold State.countTag
  split
  · exact Die.SameUnits.refl _
  · by_cases h : e = d
    · subst h
      simp [State.modThread, Die.SameUnits, Die.modSeq]
    · simp [State.modThread, State.die_modDie_ne _ _ h, Die.SameUnits]

@[simp] theorem State.countTag_panel (s : State) (d : Nat) (o : Origin) : (s.countTag d o).panel = s.panel := by
  unfold State.countTag; split <;> rfl
@[simp] theorem State.countTag_menus (s : State) (d : Nat) (o : Origin) : (s.countTag d o).menus = s.menus := by
  unfold State.countTag; split <;> rfl
@[simp] theorem State.countTag_turn (s : State) (d : Nat) (o : Origin) : (s.countTag d o).turn = s.turn := by
  unfold State.countTag; split <;> rfl
@[simp] theorem State.countTag_outbox (s : State) (d : Nat) (o : Origin) : (s.countTag d o).outbox = s.outbox := by
  unfold State.countTag; split <;> rfl

/-! ### Fields of the dies under the shared operations -/

@[simp] theorem State.takeWord_gangs (s : State) (d c t : Nat) (w : W64) : ((s.takeWord d c t w).die d).gangs = (s.die d).gangs :=
  (s.takeWord_units d c t w).field Die.gangs
@[simp] theorem State.takeWord_tiles (s : State) (d c t : Nat) (w : W64) : ((s.takeWord d c t w).die d).tiles = (s.die d).tiles :=
  (s.takeWord_units d c t w).field Die.tiles
@[simp] theorem State.takeWord_arrs (s : State) (d c t : Nat) (w : W64) : ((s.takeWord d c t w).die d).arrs = (s.die d).arrs :=
  (s.takeWord_units d c t w).field Die.arrs
@[simp] theorem State.takeWord_vecs (s : State) (d c t : Nat) (w : W64) : ((s.takeWord d c t w).die d).vecs = (s.die d).vecs :=
  (s.takeWord_units d c t w).field Die.vecs
@[simp] theorem State.takeWord_sieve (s : State) (d c t : Nat) (w : W64) : ((s.takeWord d c t w).die d).sieve = (s.die d).sieve :=
  (s.takeWord_units d c t w).field Die.sieve
@[simp] theorem State.takeWord_mem (s : State) (d c t : Nat) (w : W64) : ((s.takeWord d c t w).die d).mem = (s.die d).mem :=
  (s.takeWord_units d c t w).field Die.mem
@[simp] theorem State.takeWord_ladle (s : State) (d c t : Nat) (w : W64) : ((s.takeWord d c t w).die d).ladle = (s.die d).ladle :=
  (s.takeWord_units d c t w).field Die.ladle
@[simp] theorem State.takeWord_pool (s : State) (d c t : Nat) (w : W64) : ((s.takeWord d c t w).die d).pool = (s.die d).pool :=
  (s.takeWord_units d c t w).field Die.pool
@[simp] theorem State.takeWord_fab (s : State) (d c t : Nat) (w : W64) : ((s.takeWord d c t w).die d).fab = (s.die d).fab :=
  (s.takeWord_units d c t w).field Die.fab
@[simp] theorem State.takeWord_rem (s : State) (d c t : Nat) (w : W64) : ((s.takeWord d c t w).die d).rem = (s.die d).rem :=
  (s.takeWord_units d c t w).field Die.rem
@[simp] theorem State.takeWord_whisk (s : State) (d c t : Nat) (w : W64) : ((s.takeWord d c t w).die d).whisk = (s.die d).whisk :=
  (s.takeWord_units d c t w).field Die.whisk
@[simp] theorem State.takeWord_leave (s : State) (d c t : Nat) (w : W64) : ((s.takeWord d c t w).die d).leave = (s.die d).leave :=
  (s.takeWord_units d c t w).field Die.leave
@[simp] theorem State.takeWord_thermal (s : State) (d c t : Nat) (w : W64) : ((s.takeWord d c t w).die d).thermal = (s.die d).thermal :=
  (s.takeWord_units d c t w).field Die.thermal
@[simp] theorem State.takeWord_power (s : State) (d c t : Nat) (w : W64) : ((s.takeWord d c t w).die d).power = (s.die d).power :=
  (s.takeWord_units d c t w).field Die.power
@[simp] theorem State.takeWord_pairs (s : State) (d c t : Nat) (w : W64) : ((s.takeWord d c t w).die d).pairs = (s.die d).pairs :=
  (s.takeWord_units d c t w).field Die.pairs
@[simp] theorem State.takeWord_seed (s : State) (d c t : Nat) (w : W64) : ((s.takeWord d c t w).die d).seed = (s.die d).seed :=
  (s.takeWord_units d c t w).field Die.seed
@[simp] theorem State.takeWord_standsFor (s : State) (d c t : Nat) (w : W64) : ((s.takeWord d c t w).die d).standsFor = (s.die d).standsFor :=
  (s.takeWord_units d c t w).field Die.standsFor
@[simp] theorem State.takeWord_siteNum (s : State) (d c t : Nat) (w : W64) : ((s.takeWord d c t w).die d).siteNum = (s.die d).siteNum :=
  (s.takeWord_units d c t w).field Die.siteNum
@[simp] theorem State.takeWord_featureEnable (s : State) (d c t : Nat) (w : W64) : ((s.takeWord d c t w).die d).featureEnable = (s.die d).featureEnable :=
  (s.takeWord_units d c t w).field Die.featureEnable
@[simp] theorem State.takeWord_orient (s : State) (d c t : Nat) (w : W64) : ((s.takeWord d c t w).die d).orient = (s.die d).orient :=
  (s.takeWord_units d c t w).field Die.orient
@[simp] theorem State.takeWord_nextKey (s : State) (d c t : Nat) (w : W64) : ((s.takeWord d c t w).die d).nextKey = (s.die d).nextKey :=
  (s.takeWord_units d c t w).field Die.nextKey
@[simp] theorem State.takeWord_stepping (s : State) (d c t : Nat) (w : W64) : ((s.takeWord d c t w).die d).stepping = (s.die d).stepping :=
  (s.takeWord_units d c t w).field Die.stepping
@[simp] theorem State.takeWord_features (s : State) (d c t : Nat) (w : W64) : ((s.takeWord d c t w).die d).features = (s.die d).features :=
  (s.takeWord_units d c t w).field Die.features
@[simp] theorem State.takeWord_n25 (s : State) (d c t : Nat) (w : W64) : ((s.takeWord d c t w).die d).n25 = (s.die d).n25 :=
  (s.takeWord_units d c t w).field Die.n25
@[simp] theorem State.takeWord_n105 (s : State) (d c t : Nat) (w : W64) : ((s.takeWord d c t w).die d).n105 = (s.die d).n105 :=
  (s.takeWord_units d c t w).field Die.n105
@[simp] theorem State.countTag_gangs (s : State) (d : Nat) (o : Origin) (e : Nat) : ((s.countTag d o).die e).gangs = (s.die e).gangs :=
  (s.countTag_units d o e).field Die.gangs
@[simp] theorem State.countTag_tiles (s : State) (d : Nat) (o : Origin) (e : Nat) : ((s.countTag d o).die e).tiles = (s.die e).tiles :=
  (s.countTag_units d o e).field Die.tiles
@[simp] theorem State.countTag_arrs (s : State) (d : Nat) (o : Origin) (e : Nat) : ((s.countTag d o).die e).arrs = (s.die e).arrs :=
  (s.countTag_units d o e).field Die.arrs
@[simp] theorem State.countTag_vecs (s : State) (d : Nat) (o : Origin) (e : Nat) : ((s.countTag d o).die e).vecs = (s.die e).vecs :=
  (s.countTag_units d o e).field Die.vecs
@[simp] theorem State.countTag_sieve (s : State) (d : Nat) (o : Origin) (e : Nat) : ((s.countTag d o).die e).sieve = (s.die e).sieve :=
  (s.countTag_units d o e).field Die.sieve
@[simp] theorem State.countTag_mem (s : State) (d : Nat) (o : Origin) (e : Nat) : ((s.countTag d o).die e).mem = (s.die e).mem :=
  (s.countTag_units d o e).field Die.mem
@[simp] theorem State.countTag_ladle (s : State) (d : Nat) (o : Origin) (e : Nat) : ((s.countTag d o).die e).ladle = (s.die e).ladle :=
  (s.countTag_units d o e).field Die.ladle
@[simp] theorem State.countTag_pool (s : State) (d : Nat) (o : Origin) (e : Nat) : ((s.countTag d o).die e).pool = (s.die e).pool :=
  (s.countTag_units d o e).field Die.pool
@[simp] theorem State.countTag_fab (s : State) (d : Nat) (o : Origin) (e : Nat) : ((s.countTag d o).die e).fab = (s.die e).fab :=
  (s.countTag_units d o e).field Die.fab
@[simp] theorem State.countTag_rem (s : State) (d : Nat) (o : Origin) (e : Nat) : ((s.countTag d o).die e).rem = (s.die e).rem :=
  (s.countTag_units d o e).field Die.rem
@[simp] theorem State.countTag_whisk (s : State) (d : Nat) (o : Origin) (e : Nat) : ((s.countTag d o).die e).whisk = (s.die e).whisk :=
  (s.countTag_units d o e).field Die.whisk
@[simp] theorem State.countTag_leave (s : State) (d : Nat) (o : Origin) (e : Nat) : ((s.countTag d o).die e).leave = (s.die e).leave :=
  (s.countTag_units d o e).field Die.leave
@[simp] theorem State.countTag_thermal (s : State) (d : Nat) (o : Origin) (e : Nat) : ((s.countTag d o).die e).thermal = (s.die e).thermal :=
  (s.countTag_units d o e).field Die.thermal
@[simp] theorem State.countTag_power (s : State) (d : Nat) (o : Origin) (e : Nat) : ((s.countTag d o).die e).power = (s.die e).power :=
  (s.countTag_units d o e).field Die.power
@[simp] theorem State.countTag_pairs (s : State) (d : Nat) (o : Origin) (e : Nat) : ((s.countTag d o).die e).pairs = (s.die e).pairs :=
  (s.countTag_units d o e).field Die.pairs
@[simp] theorem State.countTag_seed (s : State) (d : Nat) (o : Origin) (e : Nat) : ((s.countTag d o).die e).seed = (s.die e).seed :=
  (s.countTag_units d o e).field Die.seed
@[simp] theorem State.countTag_standsFor (s : State) (d : Nat) (o : Origin) (e : Nat) : ((s.countTag d o).die e).standsFor = (s.die e).standsFor :=
  (s.countTag_units d o e).field Die.standsFor
@[simp] theorem State.countTag_siteNum (s : State) (d : Nat) (o : Origin) (e : Nat) : ((s.countTag d o).die e).siteNum = (s.die e).siteNum :=
  (s.countTag_units d o e).field Die.siteNum
@[simp] theorem State.countTag_featureEnable (s : State) (d : Nat) (o : Origin) (e : Nat) : ((s.countTag d o).die e).featureEnable = (s.die e).featureEnable :=
  (s.countTag_units d o e).field Die.featureEnable
@[simp] theorem State.countTag_orient (s : State) (d : Nat) (o : Origin) (e : Nat) : ((s.countTag d o).die e).orient = (s.die e).orient :=
  (s.countTag_units d o e).field Die.orient
@[simp] theorem State.countTag_nextKey (s : State) (d : Nat) (o : Origin) (e : Nat) : ((s.countTag d o).die e).nextKey = (s.die e).nextKey :=
  (s.countTag_units d o e).field Die.nextKey
@[simp] theorem State.countTag_stepping (s : State) (d : Nat) (o : Origin) (e : Nat) : ((s.countTag d o).die e).stepping = (s.die e).stepping :=
  (s.countTag_units d o e).field Die.stepping
@[simp] theorem State.countTag_features (s : State) (d : Nat) (o : Origin) (e : Nat) : ((s.countTag d o).die e).features = (s.die e).features :=
  (s.countTag_units d o e).field Die.features
@[simp] theorem State.countTag_n25 (s : State) (d : Nat) (o : Origin) (e : Nat) : ((s.countTag d o).die e).n25 = (s.die e).n25 :=
  (s.countTag_units d o e).field Die.n25
@[simp] theorem State.countTag_n105 (s : State) (d : Nat) (o : Origin) (e : Nat) : ((s.countTag d o).die e).n105 = (s.die e).n105 :=
  (s.countTag_units d o e).field Die.n105

/-! ### The end of a course (R83): its core stops, and its SENDs that a full queue refuses are repeated no more (R217) -/

/-- What the record of an error does to the dies: nothing, or the course of core `c` of die `d` stops. -/
theorem State.raiseAt_die (s : State) (d c code off th word : Nat) :
    (∀ e, (s.raiseAt d c code off th word).die e = s.die e) ∨
      ∀ e, (s.raiseAt d c code off th word).die e =
        (s.modDie d (fun x => (x.haltSends c).modSeq c (fun q => { q with stopped := true }))).die e := by
  unfold State.raiseAt
  dsimp only
  split
  · exact .inl fun _ => rfl
  · refine .inr fun e => ?_
    split
    · rfl
    · split
      · rfl
      · split
        · rfl
        · split
          · rfl
          · split <;> rfl

theorem State.runOff_die (s : State) (d c t : Nat) :
    (∀ e, (s.runOff d c t).die e = s.die e) ∨
      ∀ e, (s.runOff d c t).die e =
        (s.modDie d (fun x => (x.haltSends c).modSeq c (fun q => { q with stopped := true }))).die e := by
  unfold State.runOff
  dsimp only
  split
  · exact s.raiseAt_die d c _ _ _ _
  · exact .inl fun _ => rfl

/-- Nothing but sequencers, requests and the handoff to the fabric differs. -/
theorem State.runOff_units (s : State) (d c t e : Nat) :
    ({ (s.runOff d c t).die e with seqs := (s.die e).seqs, rem := (s.die e).rem, fab := (s.die e).fab } : Die) = s.die e := by
  rcases s.runOff_die d c t with h | h <;> rw [h]
  by_cases j : e = d
  · subst j; simp [Die.haltSends, Die.modSeq]
  · simp [State.die_modDie_ne _ _ j]

theorem State.runOff_field (s : State) (d c t e : Nat) {α : Type} (f : Die → α) :
    f { (s.runOff d c t).die e with seqs := (s.die e).seqs, rem := (s.die e).rem, fab := (s.die e).fab } = f (s.die e) :=
  congrArg f (s.runOff_units d c t e)

theorem State.runOff_die_ne (s : State) {d : Nat} (c t : Nat) {e : Nat} (h : e ≠ d) : (s.runOff d c t).die e = s.die e := by
  rcases s.runOff_die d c t with k | k <;> rw [k]
  simp [State.die_modDie_ne _ _ h]

/-- The record of an error changes menus and the counter of free values besides the die. -/
theorem State.raiseAt_rest (s : State) (d c code off th word : Nat) : (s.raiseAt d c code off th word).panel = s.panel ∧
    (s.raiseAt d c code off th word).outbox = s.outbox := by
  unfold State.raiseAt
  dsimp only
  split
  · exact ⟨rfl, rfl⟩
  · split
    · exact ⟨rfl, rfl⟩
    · split
      · exact ⟨rfl, rfl⟩
      · split
        · exact ⟨rfl, rfl⟩
        · split
          · exact ⟨rfl, rfl⟩
          · split <;> exact ⟨rfl, rfl⟩

theorem State.runOff_panel (s : State) (d c t : Nat) : (s.runOff d c t).panel = s.panel := by
  unfold State.runOff
  dsimp only
  split
  · exact (s.raiseAt_rest d c _ _ _ _).1
  · rfl

theorem State.runOff_outbox (s : State) (d c t : Nat) : (s.runOff d c t).outbox = s.outbox := by
  unfold State.runOff
  dsimp only
  split
  · exact (s.raiseAt_rest d c _ _ _ _).2
  · rfl

/-- The end of a course stops a core; its threads, words and course stand. -/
theorem State.runOff_seq (s : State) (d c t e k : Nat) : ∃ b, ((s.runOff d c t).die e).seq k = { (s.die e).seq k with stopped := b } := by
  rcases s.runOff_die d c t with h | h <;> rw [h]
  · exact ⟨_, rfl⟩
  · by_cases h : e = d
    · subst h
      by_cases j : k = c
      · subst j; exact ⟨true, by simp [Die.seq, Die.modSeq, Die.haltSends]⟩
      · exact ⟨((s.die e).seq k).stopped, by simp [Die.seq, Die.modSeq, Die.haltSends, j]⟩
    · exact ⟨((s.die e).seq k).stopped, by simp [State.die_modDie_ne _ _ h]⟩

/-- Requests may be marked as halted; nothing else of remote memory differs. -/
theorem State.runOff_rem (s : State) (d c t e : Nat) :
    ((s.runOff d c t).die e).rem = { (s.die e).rem with reqs := ((s.runOff d c t).die e).rem.reqs } := by
  rcases s.runOff_die d c t with h | h <;> rw [h]
  by_cases j : e = d
  · subst j; simp [Die.haltSends, Die.modSeq]
  · simp [State.die_modDie_ne _ _ j]

/-- Requests may leave the handoff; nothing else of the fabric interface differs. -/
theorem State.runOff_fab (s : State) (d c t e : Nat) :
    ((s.runOff d c t).die e).fab = { (s.die e).fab with handoff := ((s.runOff d c t).die e).fab.handoff } := by
  rcases s.runOff_die d c t with h | h <;> rw [h]
  by_cases j : e = d
  · subst j; simp [Die.haltSends, Die.modSeq]
  · simp [State.die_modDie_ne _ _ j]

@[simp] theorem State.runOff_gangs (s : State) (d c t e : Nat) : ((s.runOff d c t).die e).gangs = (s.die e).gangs :=
  s.runOff_field d c t e Die.gangs
@[simp] theorem State.runOff_tiles (s : State) (d c t e : Nat) : ((s.runOff d c t).die e).tiles = (s.die e).tiles :=
  s.runOff_field d c t e Die.tiles
@[simp] theorem State.runOff_arrs (s : State) (d c t e : Nat) : ((s.runOff d c t).die e).arrs = (s.die e).arrs :=
  s.runOff_field d c t e Die.arrs
@[simp] theorem State.runOff_vecs (s : State) (d c t e : Nat) : ((s.runOff d c t).die e).vecs = (s.die e).vecs :=
  s.runOff_field d c t e Die.vecs
@[simp] theorem State.runOff_sieve (s : State) (d c t e : Nat) : ((s.runOff d c t).die e).sieve = (s.die e).sieve :=
  s.runOff_field d c t e Die.sieve
@[simp] theorem State.runOff_mem (s : State) (d c t e : Nat) : ((s.runOff d c t).die e).mem = (s.die e).mem :=
  s.runOff_field d c t e Die.mem
@[simp] theorem State.runOff_ladle (s : State) (d c t e : Nat) : ((s.runOff d c t).die e).ladle = (s.die e).ladle :=
  s.runOff_field d c t e Die.ladle
@[simp] theorem State.runOff_pool (s : State) (d c t e : Nat) : ((s.runOff d c t).die e).pool = (s.die e).pool :=
  s.runOff_field d c t e Die.pool
@[simp] theorem State.runOff_whisk (s : State) (d c t e : Nat) : ((s.runOff d c t).die e).whisk = (s.die e).whisk :=
  s.runOff_field d c t e Die.whisk
@[simp] theorem State.runOff_leave (s : State) (d c t e : Nat) : ((s.runOff d c t).die e).leave = (s.die e).leave :=
  s.runOff_field d c t e Die.leave
@[simp] theorem State.runOff_thermal (s : State) (d c t e : Nat) : ((s.runOff d c t).die e).thermal = (s.die e).thermal :=
  s.runOff_field d c t e Die.thermal
@[simp] theorem State.runOff_power (s : State) (d c t e : Nat) : ((s.runOff d c t).die e).power = (s.die e).power :=
  s.runOff_field d c t e Die.power
@[simp] theorem State.runOff_pairs (s : State) (d c t e : Nat) : ((s.runOff d c t).die e).pairs = (s.die e).pairs :=
  s.runOff_field d c t e Die.pairs
@[simp] theorem State.runOff_seed (s : State) (d c t e : Nat) : ((s.runOff d c t).die e).seed = (s.die e).seed :=
  s.runOff_field d c t e Die.seed
@[simp] theorem State.runOff_standsFor (s : State) (d c t e : Nat) : ((s.runOff d c t).die e).standsFor = (s.die e).standsFor :=
  s.runOff_field d c t e Die.standsFor
@[simp] theorem State.runOff_siteNum (s : State) (d c t e : Nat) : ((s.runOff d c t).die e).siteNum = (s.die e).siteNum :=
  s.runOff_field d c t e Die.siteNum
@[simp] theorem State.runOff_featureEnable (s : State) (d c t e : Nat) : ((s.runOff d c t).die e).featureEnable = (s.die e).featureEnable :=
  s.runOff_field d c t e Die.featureEnable
@[simp] theorem State.runOff_orient (s : State) (d c t e : Nat) : ((s.runOff d c t).die e).orient = (s.die e).orient :=
  s.runOff_field d c t e Die.orient
@[simp] theorem State.runOff_nextKey (s : State) (d c t e : Nat) : ((s.runOff d c t).die e).nextKey = (s.die e).nextKey :=
  s.runOff_field d c t e Die.nextKey
@[simp] theorem State.runOff_stepping (s : State) (d c t e : Nat) : ((s.runOff d c t).die e).stepping = (s.die e).stepping :=
  s.runOff_field d c t e Die.stepping
@[simp] theorem State.runOff_features (s : State) (d c t e : Nat) : ((s.runOff d c t).die e).features = (s.die e).features :=
  s.runOff_field d c t e Die.features
@[simp] theorem State.runOff_n25 (s : State) (d c t e : Nat) : ((s.runOff d c t).die e).n25 = (s.die e).n25 :=
  s.runOff_field d c t e Die.n25
@[simp] theorem State.runOff_n105 (s : State) (d c t e : Nat) : ((s.runOff d c t).die e).n105 = (s.die e).n105 :=
  s.runOff_field d c t e Die.n105

end Sys2Proof.Machine
end

