-- ==== Sys2Proof/Laws/Mem.lean ====
section
/-! SUPPORT. Laws of memory (R173 to R191): the canonical form, and what a read finds after a write. -/
namespace Sys2Proof.Machine

/-- The canonical form: addresses rise strictly, and no zero byte is listed. -/
theorem Mem.wf_iff (m : Mem) : m.wf = true ↔ m.Pairwise (fun a b => a.1 < b.1) ∧ ∀ c ∈ m, c.2 ≠ 0 := by
  induction m with
  | nil => simp [Mem.wf]
  | cons c m ih =>
    cases m with
    | nil => simp [Mem.wf]
    | cons e m =>
      obtain ⟨i, v⟩ := c
      obtain ⟨j, w⟩ := e
      rw [Mem.wf]
      simp only [Bool.and_eq_true, bne_iff_ne, decide_eq_true_eq, ih]
      constructor
      · rintro ⟨⟨hv, hij⟩, hp, hz⟩
        refine ⟨List.pairwise_cons.mpr ⟨?_, hp⟩, ?_⟩
        · intro c hc
          rcases List.mem_cons.mp hc with rfl | hc
          · exact hij
          · exact Nat.lt_trans hij ((List.pairwise_cons.mp hp).1 c hc)
        · intro c hc
          rcases List.mem_cons.mp hc with rfl | hc
          · exact hv
          · exact hz c hc
      · rintro ⟨hp, hz⟩
        obtain ⟨h1, h2⟩ := List.pairwise_cons.mp hp
        exact ⟨⟨hz (i, v) (by simp), h1 (j, w) (by simp)⟩, h2, fun c hc => hz c (List.mem_cons_of_mem _ hc)⟩

theorem Mem.wf_nil : Mem.wf [] = true := rfl

theorem Mem.wf_filter {m : Mem} (h : m.wf = true) (p : Host.Cell → Bool) : Mem.wf (m.filter p) = true := by
  rw [Mem.wf_iff] at h ⊢
  exact ⟨h.1.sublist List.filter_sublist, fun c hc => h.2 c ((List.mem_filter.mp hc).1)⟩

theorem Mem.mem_cellsAt {bs : Bytes} {a : Nat} {c : Host.Cell} (h : c ∈ Mem.cellsAt a bs) :
    a ≤ c.1 ∧ c.1 < a + bs.length ∧ c.2 ≠ 0 := by
  induction bs generalizing a with
  | nil => cases h
  | cons b bs ih =>
    unfold Mem.cellsAt at h
    split at h
    · obtain ⟨h1, h2, h3⟩ := ih h; simp only [List.length_cons]; exact ⟨by omega, by omega, h3⟩
    · rename_i hb
      rcases List.mem_cons.mp h with rfl | h
      · simp only [List.length_cons]; exact ⟨Nat.le_refl _, by omega, hb⟩
      · obtain ⟨h1, h2, h3⟩ := ih h; simp only [List.length_cons]; exact ⟨by omega, by omega, h3⟩

theorem Mem.pairwise_cellsAt (a : Nat) (bs : Bytes) : (Mem.cellsAt a bs).Pairwise (fun a b => a.1 < b.1) := by
  induction bs generalizing a with
  | nil => exact List.Pairwise.nil
  | cons b bs ih =>
    unfold Mem.cellsAt
    split
    · exact ih _
    · exact List.pairwise_cons.mpr ⟨fun c hc => (Mem.mem_cellsAt hc).1, ih _⟩

/-- A write keeps the canonical form. -/
theorem Mem.wf_write {m : Mem} (h : m.wf = true) (a : Nat) (bs : Bytes) : (m.write a bs).wf = true := by
  rw [Mem.wf_iff] at h ⊢
  obtain ⟨hp, hz⟩ := h
  unfold Mem.write
  have lo : ∀ c ∈ m.filter (fun c => decide (c.1 < a)), c.1 < a := fun c hc => by simpa using (List.mem_filter.mp hc).2
  have hi : ∀ c ∈ m.filter (fun c => decide (a + bs.length ≤ c.1)), a + bs.length ≤ c.1 := fun c hc => by
    simpa using (List.mem_filter.mp hc).2
  constructor
  · rw [List.pairwise_append, List.pairwise_append]
    refine ⟨⟨hp.sublist List.filter_sublist, Mem.pairwise_cellsAt a bs, ?_⟩, hp.sublist List.filter_sublist, ?_⟩
    · intro c hc e he
      have := lo c hc; have := (Mem.mem_cellsAt he).1; omega
    · intro c hc e he
      have h2 := hi e he
      rcases List.mem_append.mp hc with hc | hc
      · have := lo c hc; omega
      · have := (Mem.mem_cellsAt hc).2.1; omega
  · intro c hc
    simp only [List.mem_append] at hc
    rcases hc with (hc | hc) | hc
    · exact hz c ((List.mem_filter.mp hc).1)
    · exact (Mem.mem_cellsAt hc).2.2
    · exact hz c ((List.mem_filter.mp hc).1)

theorem Mem.read_append (m n : Mem) (k : Nat) (h : ∀ c ∈ m, c.1 ≠ k) : Mem.read (m ++ n) k = Mem.read n k := by
  induction m with
  | nil => rfl
  | cons c m ih =>
    obtain ⟨i, v⟩ := c
    have hi : i ≠ k := h (i, v) (by simp)
    simp only [List.cons_append, Mem.read, hi, if_false]
    exact ih (fun c hc => h c (List.mem_cons_of_mem _ hc))

theorem Mem.read_append_right (m n : Mem) (k : Nat) (h : ∀ c ∈ n, c.1 ≠ k) : Mem.read (m ++ n) k = Mem.read m k := by
  induction m with
  | nil => have := Mem.read_append n [] k h; simp only [List.append_nil, List.nil_append] at this ⊢; simpa [Mem.read] using this
  | cons c m ih =>
    obtain ⟨i, v⟩ := c
    simp only [List.cons_append, Mem.read]
    split
    · rfl
    · exact ih

theorem Mem.read_filter (m : Mem) (p : Host.Cell → Bool) (k : Nat) (h : ∀ c ∈ m, c.1 = k → p c = true) :
    Mem.read (m.filter p) k = Mem.read m k := by
  induction m with
  | nil => rfl
  | cons c m ih =>
    obtain ⟨i, v⟩ := c
    have ih := ih (fun c hc => h c (List.mem_cons_of_mem _ hc))
    by_cases hi : i = k
    · rw [List.filter_cons_of_pos (h (i, v) (by simp) hi)]
      simp [Mem.read, hi]
    · by_cases hp : p (i, v) = true
      · rw [List.filter_cons_of_pos hp]; simp [Mem.read, hi, ih]
      · rw [List.filter_cons_of_neg hp]; simp [Mem.read, hi, ih]

theorem Mem.read_cellsAt (bs : Bytes) (a k : Nat) :
    Mem.read (Mem.cellsAt a bs) k = if a ≤ k ∧ k < a + bs.length then bs.getD (k - a) 0 else 0 := by
  induction bs generalizing a with
  | nil => simp [Mem.cellsAt, Mem.read]
  | cons b bs ih =>
    unfold Mem.cellsAt
    by_cases hk : k = a
    · subst hk
      have h0 : Mem.read (Mem.cellsAt (k + 1) bs) k = 0 := by rw [ih, if_neg (by omega)]
      split
      · rename_i hb; subst hb; simp [h0]
      · simp [Mem.read]
    · have hs : (a ≤ k ∧ k < a + (b :: bs).length) ↔ (a + 1 ≤ k ∧ k < a + 1 + bs.length) := by
        simp only [List.length_cons]; omega
      have hg : a + 1 ≤ k → (b :: bs).getD (k - a) 0 = bs.getD (k - (a + 1)) 0 := by
        intro h
        rw [show k - a = (k - (a + 1)) + 1 by omega]; rfl
      have ht : Mem.read (Mem.cellsAt (a + 1) bs) k = if a ≤ k ∧ k < a + (b :: bs).length then (b :: bs).getD (k - a) 0 else 0 := by
        rw [ih]
        by_cases hc : a + 1 ≤ k ∧ k < a + 1 + bs.length
        · rw [if_pos hc, if_pos (hs.mpr hc), hg hc.1]
        · rw [if_neg hc, if_neg (fun h => hc (hs.mp h))]
      split
      · exact ht
      · simp only [Mem.read, Ne.symm hk, if_false]; exact ht

/-- A read after a write: the byte written, or what was there before. -/
theorem Mem.read_write (m : Mem) (a : Nat) (bs : Bytes) (k : Nat) :
    (m.write a bs).read k = if a ≤ k ∧ k < a + bs.length then bs.getD (k - a) 0 else m.read k := by
  unfold Mem.write
  have hlo : ∀ c ∈ m.filter (fun c => decide (c.1 < a)), c.1 < a := fun c hc => by simpa using (List.mem_filter.mp hc).2
  have hhi : ∀ c ∈ m.filter (fun c => decide (a + bs.length ≤ c.1)), a + bs.length ≤ c.1 := fun c hc => by
    simpa using (List.mem_filter.mp hc).2
  by_cases hk : a ≤ k ∧ k < a + bs.length
  · rw [List.append_assoc, Mem.read_append _ _ _ (fun c hc => by have := hlo c hc; omega),
      Mem.read_append_right _ _ _ (fun c hc => by have := hhi c hc; omega), Mem.read_cellsAt, if_pos hk]
    simp [hk]
  · rw [if_neg hk]
    by_cases h2 : k < a
    · rw [List.append_assoc, Mem.read_append_right, Mem.read_filter]
      · intro c _ hc; simp [hc, h2]
      · intro c hc
        rcases List.mem_append.mp hc with hc | hc
        · have := (Mem.mem_cellsAt hc).1; omega
        · have := hhi c hc; omega
    · have h3 : a + bs.length ≤ k := by omega
      rw [Mem.read_append, Mem.read_filter]
      · intro c _ hc; simp [hc, h3]
      · intro c hc
        rcases List.mem_append.mp hc with hc | hc
        · have := hlo c hc; omega
        · have := (Mem.mem_cellsAt hc).2.1; omega

/-- A write leaves every address outside its span alone. -/
theorem Mem.read_write_out (m : Mem) {a : Nat} {bs : Bytes} {k : Nat} (h : ¬ (a ≤ k ∧ k < a + bs.length)) :
    (m.write a bs).read k = m.read k := by rw [Mem.read_write, if_neg h]

end Sys2Proof.Machine
end

