-- ==== Sys2Proof/Laws/Keeps.lean ====
section
/-! SUPPORT. What every operation keeps: the canonical form of every memory, the legal values that the hearths hold over resets, and
the fuses. `s0.Keeps t` says that `t` keeps them if `s0` has them; each operation has one lemma `…_keeps` that takes it through. -/
namespace Sys2Proof.Machine

/-- The memory is in canonical form if every memory of `s0` is. -/
def MemUnit.Ok (s0 : State) (m : MemUnit) : Prop := s0.MemOk → m.cells.wf = true
def CellsOk (s0 : State) (c : Mem) : Prop := s0.MemOk → c.wf = true
def Die.Ok (s0 : State) (x : Die) : Prop := MemUnit.Ok s0 x.mem
def DiesOk (s0 : State) (t : Tab Die) : Prop := ∀ d, Die.Ok s0 (t.getD d {})
/-- What the hearths hold is legal if that of `s0` is, and the fuses are those of `s0`. -/
def Panel.Ok (s0 : State) (p : Panel) : Prop := (s0.panel.HeldOk → p.HeldOk) ∧ p.fuses = s0.panel.fuses
/-- The same of the fields of a panel. -/
def HeldFields (s0 : State) (powerLimit clSet clMax bootSlot serial compatClass minSvn : Nat) (fwKeyHash : Bytes) (mrams : Tab Mram) : Prop :=
  (s0.panel.HeldOk → HeldLegal clMax powerLimit clSet bootSlot ∧
      ∀ e ∈ mrams, HeldLegal clMax e.2.powerLimit e.2.clSet e.2.bootSlot) ∧
    (serial, compatClass, clMax, minSvn, fwKeyHash) = s0.panel.fuses
def State.Keeps (s0 t : State) : Prop := DiesOk s0 t.dies ∧ Panel.Ok s0 t.panel
def OutKeeps (s0 : State) (o : Host.Outcome State Fault Refusal) : Prop := ∀ t, o = .next t → s0.Keeps t

theorem keeps_refl (s0 : State) : s0.Keeps s0 := ⟨fun d h => h d, fun h => h, rfl⟩
theorem keeps_memOk {s0 t : State} (h : s0.Keeps t) (m : s0.MemOk) : t.MemOk := fun d => h.1 d m
theorem keeps_heldOk {s0 t : State} (h : s0.Keeps t) (m : s0.panel.HeldOk) : t.panel.HeldOk := h.2.1 m
theorem keeps_fuses {s0 t : State} (h : s0.Keeps t) : t.panel.fuses = s0.panel.fuses := h.2.2

theorem out_keeps {s0 t : State} (h : s0.Keeps t) : OutKeeps s0 (.next t) := by
  intro u e; cases e; exact h

/-- Only the older copies of the hearths differ, and they are legal. -/
theorem keeps_mrams {s0 s : State} (h : s0.Keeps s) {m : Tab Mram}
    (hm : s0.panel.HeldOk → ∀ e ∈ m, HeldLegal s.panel.clMax e.2.powerLimit e.2.clSet e.2.bootSlot) :
    s0.Keeps (s.modPanel (fun p => { p with mrams := m })) := by
  refine ⟨h.1, ?_, h.2.2⟩
  exact fun k => ⟨(h.2.1 k).1, hm k⟩

theorem keeps_nextOf {s0 : State} {o : Host.Outcome State Fault Refusal} {s : State} (h : OutKeeps s0 o) (k : s0.Keeps s) : s0.Keeps (nextOf o s) := by
  cases o with
  | next t => exact h t rfl
  | _ => exact k

/-! ### Parts -/

theorem keeps_mk {s0 : State} {D : Tab Die} {P : Panel} {a0 a1 a2 a3 a5 a6 a8} : s0.Keeps (State.mk a0 a1 a2 a3 D a5 a6 P a8) ↔ DiesOk s0 D ∧ Panel.Ok s0 P := Iff.rfl
theorem keeps_dies {s0 t : State} (h : s0.Keeps t) : DiesOk s0 t.dies := h.1
theorem keeps_panel {s0 t : State} (h : s0.Keeps t) : Panel.Ok s0 t.panel := h.2
theorem keeps_die {s0 t : State} (h : s0.Keeps t) (d : Nat) : Die.Ok s0 (t.die d) := h.1 d
theorem die_mk {s0 : State} {m : MemUnit} {a0 a1 a2 a3 a4 a5 a6 a8 a9 a10 a11 a12 a13 a14 a15 a16 a17 a18 a19 a20 a21 a22 a23 a24 a25 a26} : Die.Ok s0 (Die.mk a0 a1 a2 a3 a4 a5 a6 m a8 a9 a10 a11 a12 a13 a14 a15 a16 a17 a18 a19 a20 a21 a22 a23 a24 a25 a26) ↔ MemUnit.Ok s0 m := Iff.rfl
theorem die_default (s0 : State) : Die.Ok s0 {} := fun _ => rfl
theorem die_mem {s0 : State} {x : Die} (h : Die.Ok s0 x) : MemUnit.Ok s0 x.mem := h
theorem mem_mk {s0 : State} {c : Mem} {a1 a2 a3 a4 a5 a6 a7 a8 a9 a10 a11 a12 a13 a14 a15} : MemUnit.Ok s0 (MemUnit.mk c a1 a2 a3 a4 a5 a6 a7 a8 a9 a10 a11 a12 a13 a14 a15) ↔ CellsOk s0 c := Iff.rfl
theorem mem_cells {s0 : State} {m : MemUnit} (h : MemUnit.Ok s0 m) : CellsOk s0 m.cells := h
theorem cells_nil {s0 : State} : CellsOk s0 [] := fun _ => rfl
theorem cells_write {s0 : State} {c : Mem} (h : CellsOk s0 c) (a : Nat) (bs : Bytes) : CellsOk s0 (c.write a bs) :=
  fun k => Mem.wf_write (h k) a bs
theorem cells_filter {s0 : State} {c : Mem} (h : CellsOk s0 c) (p : Host.Cell → Bool) : CellsOk s0 (c.filter p) :=
  fun k => Mem.wf_filter (h k) p
theorem panel_mk {s0 : State} {powerLimit' clSet' clMax' bootSlot' serial' compatClass' minSvn' : Nat} {fwKeyHash' : Bytes} {mrams' : Tab Mram} {a0 a1 a2 a3 a4 a5 a6 a7 a8 a9 a10 a11 a13 a14 a16 a17 a18 a19 a20 a21 a22 a23 a24 a25 a26 a27 a28 a29 a30 a37 a38 a39 a40 a41 a42 a43 a44 a45 a47 a48 a49 a50 a51 a52 a53 a54 a55 a56 a57 a58 a59} :
    Panel.Ok s0 (Panel.mk a0 a1 a2 a3 a4 a5 a6 a7 a8 a9 a10 a11 serial' a13 a14 mrams' a16 a17 a18 a19 a20 a21 a22 a23 a24 a25 a26 a27 a28 a29 a30 fwKeyHash' minSvn' bootSlot' compatClass' clMax' clSet' a37 a38 a39 a40 a41 a42 a43 a44 a45 powerLimit' a47 a48 a49 a50 a51 a52 a53 a54 a55 a56 a57 a58 a59) ↔ HeldFields s0 powerLimit' clSet' clMax' bootSlot' serial' compatClass' minSvn' fwKeyHash' mrams' := Iff.rfl
theorem panel_held {s0 : State} {q : Panel} (h : Panel.Ok s0 q) : HeldFields s0 q.powerLimit q.clSet q.clMax q.bootSlot q.serial q.compatClass q.minSvn q.fwKeyHash q.mrams := h

/-! ### Tables of dies and folds -/

theorem dies_put {s0 : State} {D : Tab Die} {x : Die} (h : DiesOk s0 D) (k : Die.Ok s0 x) (d : Nat) : DiesOk s0 (D.put d x) := by
  intro e
  rw [Tab.getD_put]
  split
  · exact k
  · exact h e
theorem dies_mapVal {s0 : State} {D : Tab Die} {f : Nat → Die → Die} (h : DiesOk s0 D) (k : ∀ d x, Die.Ok s0 x → Die.Ok s0 (f d x)) :
    DiesOk s0 (D.mapVal f) := by
  intro e
  rcases Tab.getD_mapVal D f e {} with h1 | h1
  · rw [h1]; exact die_default s0
  · rw [h1]; exact k e _ (h e)
theorem keeps_foldl {α : Type} {s0 : State} {f : State → α → State} {l : List α} {s : State} (h : s0.Keeps s)
    (k : ∀ t a, s0.Keeps t → s0.Keeps (f t a)) : s0.Keeps (l.foldl f s) :=
  List.foldlRecOn l f h (fun t i a _ => k t a i)
theorem die_foldl {α : Type} {s0 : State} {f : Die → α → Die} {l : List α} {x : Die} (h : Die.Ok s0 x)
    (k : ∀ t a, Die.Ok s0 t → Die.Ok s0 (f t a)) : Die.Ok s0 (l.foldl f x) :=
  List.foldlRecOn l f h (fun t i a _ => k t a i)
theorem cells_foldl {α : Type} {s0 : State} {f : Mem → α → Mem} {l : List α} {x : Mem} (h : CellsOk s0 x)
    (k : ∀ t a, CellsOk s0 t → CellsOk s0 (f t a)) : CellsOk s0 (l.foldl f x) :=
  List.foldlRecOn l f h (fun t i a _ => k t a i)
theorem mem_foldl {α : Type} {s0 : State} {f : MemUnit → α → MemUnit} {l : List α} {x : MemUnit} (h : MemUnit.Ok s0 x)
    (k : ∀ t a, MemUnit.Ok s0 t → MemUnit.Ok s0 (f t a)) : MemUnit.Ok s0 (l.foldl f x) :=
  List.foldlRecOn l f h (fun t i a _ => k t a i)
theorem panel_foldl {α : Type} {s0 : State} {f : Panel → α → Panel} {l : List α} {x : Panel} (h : Panel.Ok s0 x)
    (k : ∀ t a, Panel.Ok s0 t → Panel.Ok s0 (f t a)) : Panel.Ok s0 (l.foldl f x) :=
  List.foldlRecOn l f h (fun t i a _ => k t a i)
theorem diesOk_default {s0 : State} : DiesOk s0 State.reset.dies := by
  intro d m
  have h : ∀ e ∈ State.reset.dies, e.2.mem.cells = [] := by decide
  revert h
  generalize State.reset.dies = t
  intro h
  show (t.getD d {}).mem.cells.wf = true
  unfold Tab.getD
  fun_induction Tab.find t d
  · rfl
  · show Mem.wf (Die.mem _).cells = true
    rw [h _ List.mem_cons_self]
    rfl
  · rename_i ih
    exact ih (fun e he => h e (List.mem_cons_of_mem _ he))
theorem keeps_foldl_fst {α β : Type} {s0 : State} {f : State × β → α → State × β} {l : List α} {p : State × β} (h : s0.Keeps p.1)
    (k : ∀ q a, s0.Keeps q.1 → s0.Keeps (f q a).1) : s0.Keeps (l.foldl f p).1 :=
  List.foldlRecOn (motive := fun q => s0.Keeps q.1) l f h (fun q i a _ => k q a i)
theorem die_foldl_fst {α β : Type} {s0 : State} {f : Die × β → α → Die × β} {l : List α} {p : Die × β} (h : Die.Ok s0 p.1)
    (k : ∀ q a, Die.Ok s0 q.1 → Die.Ok s0 (f q a).1) : Die.Ok s0 (l.foldl f p).1 :=
  List.foldlRecOn (motive := fun q => Die.Ok s0 q.1) l f h (fun q i a _ => k q a i)
theorem mem_foldl_fst {α β : Type} {s0 : State} {f : MemUnit × β → α → MemUnit × β} {l : List α} {p : MemUnit × β} (h : MemUnit.Ok s0 p.1)
    (k : ∀ q a, MemUnit.Ok s0 q.1 → MemUnit.Ok s0 (f q a).1) : MemUnit.Ok s0 (l.foldl f p).1 :=
  List.foldlRecOn (motive := fun q => MemUnit.Ok s0 q.1) l f h (fun q i a _ => k q a i)

theorem keeps_ite {s0 : State} {c : Prop} [Decidable c] {a b : State} (h : c → s0.Keeps a) (k : ¬ c → s0.Keeps b) : s0.Keeps (if c then a else b) :=
  iteInduction (motive := fun v => s0.Keeps v) h k
theorem keeps_ite_fst {α : Type} {s0 : State} {c : Prop} [Decidable c] {a b : State × α} (h : c → s0.Keeps a.1) (k : ¬ c → s0.Keeps b.1) :
    s0.Keeps (if c then a else b).1 :=
  iteInduction (motive := fun (v : State × α) => s0.Keeps v.1) h k
theorem keeps_ite_snd {α : Type} {s0 : State} {c : Prop} [Decidable c] {a b : α × State} (h : c → s0.Keeps a.2) (k : ¬ c → s0.Keeps b.2) :
    s0.Keeps (if c then a else b).2 :=
  iteInduction (motive := fun (v : α × State) => s0.Keeps v.2) h k
theorem die_ite {s0 : State} {c : Prop} [Decidable c] {a b : Die} (h : c → Die.Ok s0 a) (k : ¬ c → Die.Ok s0 b) : Die.Ok s0 (if c then a else b) :=
  iteInduction (motive := fun v => Die.Ok s0 v) h k
theorem die_ite_fst {α : Type} {s0 : State} {c : Prop} [Decidable c] {a b : Die × α} (h : c → Die.Ok s0 a.1) (k : ¬ c → Die.Ok s0 b.1) :
    Die.Ok s0 (if c then a else b).1 :=
  iteInduction (motive := fun (v : Die × α) => Die.Ok s0 v.1) h k
theorem die_ite_snd {α : Type} {s0 : State} {c : Prop} [Decidable c] {a b : α × Die} (h : c → Die.Ok s0 a.2) (k : ¬ c → Die.Ok s0 b.2) :
    Die.Ok s0 (if c then a else b).2 :=
  iteInduction (motive := fun (v : α × Die) => Die.Ok s0 v.2) h k
theorem panel_ite {s0 : State} {c : Prop} [Decidable c] {a b : Panel} (h : c → Panel.Ok s0 a) (k : ¬ c → Panel.Ok s0 b) : Panel.Ok s0 (if c then a else b) :=
  iteInduction (motive := fun v => Panel.Ok s0 v) h k
theorem panel_ite_fst {α : Type} {s0 : State} {c : Prop} [Decidable c] {a b : Panel × α} (h : c → Panel.Ok s0 a.1) (k : ¬ c → Panel.Ok s0 b.1) :
    Panel.Ok s0 (if c then a else b).1 :=
  iteInduction (motive := fun (v : Panel × α) => Panel.Ok s0 v.1) h k
theorem mem_ite {s0 : State} {c : Prop} [Decidable c] {a b : MemUnit} (h : c → MemUnit.Ok s0 a) (k : ¬ c → MemUnit.Ok s0 b) : MemUnit.Ok s0 (if c then a else b) :=
  iteInduction (motive := fun v => MemUnit.Ok s0 v) h k
theorem mem_ite_fst {α : Type} {s0 : State} {c : Prop} [Decidable c] {a b : MemUnit × α} (h : c → MemUnit.Ok s0 a.1) (k : ¬ c → MemUnit.Ok s0 b.1) :
    MemUnit.Ok s0 (if c then a else b).1 :=
  iteInduction (motive := fun (v : MemUnit × α) => MemUnit.Ok s0 v.1) h k
theorem mem_ite_snd {α : Type} {s0 : State} {c : Prop} [Decidable c] {a b : α × MemUnit} (h : c → MemUnit.Ok s0 a.2) (k : ¬ c → MemUnit.Ok s0 b.2) :
    MemUnit.Ok s0 (if c then a else b).2 :=
  iteInduction (motive := fun (v : α × MemUnit) => MemUnit.Ok s0 v.2) h k

/-- The first part of a pair that an equation takes apart. -/
theorem keeps_of_fst {α : Type} {s0 t : State} {p : State × α} {a : α} (e : p = (t, a)) (h : s0.Keeps p.1) : s0.Keeps t := by
  subst e; exact h
theorem keeps_of_snd {α : Type} {s0 t : State} {p : α × State} {a : α} (e : p = (a, t)) (h : s0.Keeps p.2) : s0.Keeps t := by
  subst e; exact h
theorem die_of_fst {α : Type} {s0 : State} {t : Die} {p : Die × α} {a : α} (e : p = (t, a)) (h : Die.Ok s0 p.1) : Die.Ok s0 t := by
  subst e; exact h
theorem die_of_snd {α : Type} {s0 : State} {t : Die} {p : α × Die} {a : α} (e : p = (a, t)) (h : Die.Ok s0 p.2) : Die.Ok s0 t := by
  subst e; exact h

/-- The die that a waiting packet is taken from. -/
theorem Die_takeRx_keeps {s0 : State} {x y : Die} {owner : Nat} {kinds : List Nat} {q : Packet} (h : Die.Ok s0 x)
    (e : x.takeRx owner kinds = some (q, y)) : Die.Ok s0 y := by
  obtain ⟨_, _, e⟩ := Option.bind_eq_some_iff.mp e
  split at e <;> cases e
  exact h

end Sys2Proof.Machine
end

