-- ==== Sys2Proof/Laws/KeepsOps1.lean ====
section
/-! SUPPORT. The named operations (part 1) keep what `Sys2Proof.Laws.Keeps` names: the cells of every kiln stay canonical, what the hearths hold stays legal, and
the fuses are as they were. One lemma per operation, by the lemmas of what it calls. -/

open Sys2Proof

namespace Sys2Proof.Machine

set_option linter.unusedVariables false
set_option linter.unusedSimpArgs false

theorem Die_respond_keeps {s0 : State} (x : Die) (q : Packet) (kind : Nat) (addr : Nat) (payload : List (BitVec 8)) (turn : Nat)
    (h0 : Die.Ok s0 x) :
    Die.Ok s0 (Die.respond x q kind addr payload turn) := by
  unfold Die.respond
  try dsimp only
  repeat' (first | (with_reducible first | assumption | apply die_mem) | simp only [keeps_mk, die_mk, mem_mk, panel_mk])

theorem Die_ackTo_keeps {s0 : State} (x : Die) (q : Packet) (status : Nat) (turn : Nat) (h0 : Die.Ok s0 x) :
    Die.Ok s0 (Die.ackTo x q status turn) := by
  unfold Die.ackTo
  try dsimp only
  repeat' (with_reducible first | assumption | apply Die_respond_keeps)

theorem Die_putWin_keeps {s0 : State} (x : Die) (key : Nat) (w : Win) (h0 : Die.Ok s0 x) :
    Die.Ok s0 (Die.putWin x key w) := by
  unfold Die.putWin
  try dsimp only
  repeat' (first | (with_reducible first | assumption | apply die_mem) | simp only [keeps_mk, die_mk, mem_mk, panel_mk])

theorem Die_ackWindow_keeps {s0 : State} (x : Die) (key : Nat) (seq : Nat) (echo : Bool) (h0 : Die.Ok s0 x) :
    Die.Ok s0 (Die.ackWindow x key seq echo) := by
  unfold Die.ackWindow
  try dsimp only
  repeat' (first
    | (with_reducible first | assumption | apply Die_putWin_keeps | apply die_mem)
    | simp only [keeps_mk, die_mk, mem_mk, panel_mk])

theorem Die_addReqs_keeps {s0 : State} (x : Die) (l : List Req) (h0 : Die.Ok s0 x) :
    Die.Ok s0 (Die.addReqs x l) := by
  unfold Die.addReqs
  try dsimp only
  repeat' (first
    | (with_reducible first | assumption | apply die_mem | apply die_foldl)
    | simp only [keeps_mk, die_mk, mem_mk, panel_mk]
    | with_reducible intro _)

theorem Die_bump_keeps {s0 : State} (x : Die) (c : Nat) (e : Nat) (n : Nat) (h0 : Die.Ok s0 x) :
    Die.Ok s0 (Die.bump x c e n) := by
  unfold Die.bump
  try dsimp only
  repeat' (first | (with_reducible first | assumption | apply die_mem) | simp only [keeps_mk, die_mk, mem_mk, panel_mk])

theorem Die_bumpBoth_keeps {s0 : State} (x : Die) (e : Nat) (n : Nat) (h0 : Die.Ok s0 x) :
    Die.Ok s0 (Die.bumpBoth x e n) := by
  unfold Die.bumpBoth
  try dsimp only
  repeat' (with_reducible first | assumption | apply Die_bump_keeps)

theorem Die_admit_keeps {s0 : State} (x : Die) (q : Nat) (n : Nat) (key : Nat × Nat) (k' : Nat) (h0 : Die.Ok s0 x) :
    Die.Ok s0 (Die.admission x q n key k').1 := by
  unfold Die.admission
  try dsimp only
  repeat' (first
    | (with_reducible first | assumption | apply Die_bumpBoth_keeps | apply die_ite | apply die_mem)
    | simp only [keeps_mk, die_mk, mem_mk, panel_mk]
    | with_reducible intro _)

theorem Die_modArr_keeps {s0 : State} (x : Die) (a : Nat) (f : Arr → Arr) (h0 : Die.Ok s0 x) :
    Die.Ok s0 (Die.modArr x a f) := by
  unfold Die.modArr
  try dsimp only
  repeat' (first | (with_reducible first | assumption | apply die_mem) | simp only [keeps_mk, die_mk, mem_mk, panel_mk])

theorem Die_modVec_keeps {s0 : State} (x : Die) (c : Nat) (f : Vec → Vec) (h0 : Die.Ok s0 x) :
    Die.Ok s0 (Die.modVec x c f) := by
  unfold Die.modVec
  try dsimp only
  repeat' (first | (with_reducible first | assumption | apply die_mem) | simp only [keeps_mk, die_mk, mem_mk, panel_mk])

theorem Die_setQueue_keeps {s0 : State} (x : Die) (q : Nat) (v : Queue) (h0 : Die.Ok s0 x) :
    Die.Ok s0 (Die.setQueue x q v) := by
  unfold Die.setQueue
  try dsimp only
  repeat' (first | (with_reducible first | assumption | apply die_mem) | simp only [keeps_mk, die_mk, mem_mk, panel_mk])

theorem Die_modPair_keeps {s0 : State} (x : Die) (p : Nat) (f : Pair → Pair) (h0 : Die.Ok s0 x) :
    Die.Ok s0 (Die.modPair x p f) := by
  unfold Die.modPair
  try dsimp only
  repeat' (first | (with_reducible first | assumption | apply die_mem) | simp only [keeps_mk, die_mk, mem_mk, panel_mk])

theorem Die_afterRead_keeps {s0 : State} (x : Die) (r : Nat) (k' : Nat) (h0 : Die.Ok s0 x) :
    Die.Ok s0 (Die.afterRead x r k') := by
  unfold Die.afterRead
  try dsimp only
  repeat' (first
    | (with_reducible first | assumption | apply Die_modArr_keeps | apply Die_modVec_keeps | apply Die_setQueue_keeps
                            | apply Die_modPair_keeps | apply die_ite | apply die_mem | apply mem_cells)
    | simp only [keeps_mk, die_mk, mem_mk, panel_mk]
    | with_reducible intro _
    | split)

theorem MemUnit_panScan_keeps {s0 : State} (m : MemUnit) (a : Nat) (n : Nat) (h0 : MemUnit.Ok s0 m) :
    MemUnit.Ok s0 (MemUnit.panScan m a n).1 := by
  unfold MemUnit.panScan
  try dsimp only
  repeat' (first
    | (with_reducible first | assumption | apply mem_ite_fst | apply mem_cells)
    | simp only [keeps_mk, die_mk, mem_mk, panel_mk]
    | with_reducible intro _)

theorem MemUnit_forget_keeps {s0 : State} (m : MemUnit) (u : Consumer) (a : Nat) (n : Nat) (h0 : MemUnit.Ok s0 m) :
    MemUnit.Ok s0 (MemUnit.forget m u a n) := by
  unfold MemUnit.forget
  try dsimp only
  repeat' (first | (with_reducible first | assumption | apply mem_cells) | simp only [keeps_mk, die_mk, mem_mk, panel_mk])

theorem Die_forget_keeps {s0 : State} (x : Die) (u : Consumer) (a : Nat) (n : Nat) (h0 : Die.Ok s0 x) :
    Die.Ok s0 (Die.forget x u a n) := by
  unfold Die.forget
  try dsimp only
  repeat' (first
    | (with_reducible first | assumption | apply MemUnit_forget_keeps | apply die_mem)
    | simp only [keeps_mk, die_mk, mem_mk, panel_mk])

theorem Die_fabRead_keeps {s0 : State} (x : Die) (a : Nat) (n : Nat) (h0 : Die.Ok s0 x) :
    Die.Ok s0 (Die.fabRead x a n).1 := by
  unfold Die.fabRead
  try dsimp only
  repeat' (first
    | (with_reducible first | assumption | apply MemUnit_panScan_keeps | apply Die_forget_keeps | apply die_ite_fst | apply die_mem)
    | simp only [keeps_mk, die_mk, mem_mk, panel_mk]
    | with_reducible intro _)

theorem Die_landed_keeps {s0 : State} (x : Die) (a : Nat) (n : Nat) (h0 : Die.Ok s0 x) :
    Die.Ok s0 (Die.landed x a n) := by
  unfold Die.landed
  try dsimp only
  repeat' (first | (with_reducible first | assumption | apply die_mem) | simp only [keeps_mk, die_mk, mem_mk, panel_mk])

theorem MemUnit_panWrite_keeps {s0 : State} (m : MemUnit) (a : Nat) (bs : List (BitVec 8)) (h0 : MemUnit.Ok s0 m) :
    MemUnit.Ok s0 (MemUnit.panWrite m a bs) := by
  unfold MemUnit.panWrite
  try dsimp only
  repeat' (first
    | (with_reducible first | assumption | apply mem_ite | apply mem_cells | apply cells_write)
    | simp only [keeps_mk, die_mk, mem_mk, panel_mk]
    | with_reducible intro _)

theorem Die_panPut_keeps {s0 : State} (x : Die) (a : Nat) (bs : List (BitVec 8)) (h0 : Die.Ok s0 x) :
    Die.Ok s0 (Die.panPut x a bs) := by
  unfold Die.panPut
  try dsimp only
  repeat' (first
    | (with_reducible first | assumption | apply Die_landed_keeps | apply MemUnit_panWrite_keeps | apply die_mem)
    | simp only [keeps_mk, die_mk, mem_mk, panel_mk])

theorem Die_panStore_keeps {s0 : State} (x : Die) (a : Nat) (bs : List (BitVec 8)) (h0 : Die.Ok s0 x) :
    Die.Ok s0 (Die.panStore x a bs) := by
  unfold Die.panStore
  try dsimp only
  repeat' (first | (with_reducible first | assumption | apply Die_panPut_keeps | apply die_ite | apply die_foldl) | with_reducible intro _)

theorem MemUnit_kilnApply_keeps {s0 : State} (m : MemUnit) (block : Nat) (ps : List (Nat × Bytes)) (h0 : MemUnit.Ok s0 m) :
    MemUnit.Ok s0 (MemUnit.kilnApply m block ps).1 := by
  unfold MemUnit.kilnApply
  try dsimp only
  repeat' (first
    | (with_reducible first | assumption | apply mem_ite_fst | apply mem_cells | apply cells_write | apply cells_foldl)
    | simp only [keeps_mk, die_mk, mem_mk, panel_mk]
    | with_reducible intro _
    | split)

theorem Die_applyAtomic_keeps {s0 : State} (x : Die) (q : Packet) (h0 : Die.Ok s0 x) :
    Die.Ok s0 (Die.applyAtomic x q).1 := by
  unfold Die.applyAtomic
  try dsimp only
  repeat' (first
    | (with_reducible first | assumption | apply Die_fabRead_keeps | apply Die_panStore_keeps | apply MemUnit_kilnApply_keeps
                            | apply Die_forget_keeps | apply Die_landed_keeps | apply die_ite_fst | apply die_mem)
    | simp only [keeps_mk, die_mk, mem_mk, panel_mk]
    | with_reducible intro _
    | split)

theorem Die_writePart_keeps {s0 : State} (x : Die) (queue : Nat) (key : Nat × Nat) (len : Nat) (part : Nat) (bs : List (BitVec 8))
    (last : Bool) (h0 : Die.Ok s0 x) :
    Die.Ok s0 (Die.writePart x queue key len part bs last) := by
  unfold Die.writePart
  try dsimp only
  repeat' (with_reducible first | assumption | apply Die_setQueue_keeps)

theorem Die_setTgt_keeps {s0 : State} (x : Die) (k' : Nat) (t : TgtSession) (h0 : Die.Ok s0 x) :
    Die.Ok s0 (Die.setTgt x k' t) := by
  unfold Die.setTgt
  try dsimp only
  repeat' (first | (with_reducible first | assumption | apply die_mem) | simp only [keeps_mk, die_mk, mem_mk, panel_mk])

theorem Die_markApplied_keeps {s0 : State} (x : Die) (q : Packet) (status : Nat) (store : Bool) (h0 : Die.Ok s0 x) :
    Die.Ok s0 (Die.markApplied x q status store) := by
  unfold Die.markApplied
  try dsimp only
  repeat' (with_reducible first | assumption | apply Die_setTgt_keeps)

theorem Die_applyPart_keeps {s0 : State} (x : Die) (q : Packet) (m : OpenMsg) (part : Nat) (turn : Nat) (h0 : Die.Ok s0 x) :
    Die.Ok s0 (Die.applyPart x q m part turn) := by
  unfold Die.applyPart
  try dsimp only
  repeat' (first
    | (with_reducible first | assumption | apply Die_writePart_keeps | apply Die_ackTo_keeps | apply Die_markApplied_keeps
                            | apply Die_setTgt_keeps | apply die_ite)
    | with_reducible intro _)

theorem MemUnit_kilnPush_keeps {s0 : State} (m : MemUnit) (q : KilnReq) (h0 : MemUnit.Ok s0 m) :
    MemUnit.Ok s0 (MemUnit.kilnPush m q) := by
  unfold MemUnit.kilnPush
  try dsimp only
  repeat' (first
    | (with_reducible first | assumption | apply mem_ite | apply mem_cells)
    | simp only [keeps_mk, die_mk, mem_mk, panel_mk]
    | with_reducible intro _)

theorem Die_applyStore_keeps {s0 : State} (x : Die) (q : Packet) (turn : Nat) (h0 : Die.Ok s0 x) :
    Die.Ok s0 (Die.applyStore x q turn) := by
  unfold Die.applyStore
  try dsimp only
  repeat' (first
    | (with_reducible first | assumption | apply Die_ackTo_keeps | apply Die_markApplied_keeps | apply Die_panStore_keeps
                            | apply MemUnit_kilnPush_keeps | apply die_ite | apply die_mem | apply mem_foldl)
    | simp only [keeps_mk, die_mk, mem_mk, panel_mk]
    | with_reducible intro _
    | split)

theorem Die_blockBytes_keeps {s0 : State} (x : Die) (q : Packet) (h0 : Die.Ok s0 x) :
    Die.Ok s0 (Die.blockBytes x q).1 := by
  unfold Die.blockBytes
  try dsimp only
  repeat' (first
    | (with_reducible first | assumption | apply Die_fabRead_keeps | apply die_ite_fst)
    | simp only [keeps_mk, die_mk, mem_mk, panel_mk]
    | with_reducible intro _
    | split)

theorem Die_enqueue_keeps {s0 : State} (x : Die) (a : Arrival) (port : Nat) (q : Packet) (h0 : Die.Ok s0 x) :
    Die.Ok s0 (Die.enqueue x a port q) := by
  unfold Die.enqueue
  try dsimp only
  repeat' (first
    | (with_reducible first | assumption | apply Die_bumpBoth_keeps | apply die_ite | apply die_mem)
    | simp only [keeps_mk, die_mk, mem_mk, panel_mk]
    | with_reducible intro _)

theorem Die_bounceTo_keeps {s0 : State} (x : Die) (q : Packet) (group : Nat) (gport : Nat) (h0 : Die.Ok s0 x) :
    Die.Ok s0 (Die.bounceTo x q group gport) := by
  unfold Die.bounceTo
  try dsimp only
  repeat' (first | (with_reducible first | assumption | apply Die_enqueue_keeps | apply die_ite) | with_reducible intro _)

theorem Die_busyTo_keeps {s0 : State} (x : Die) (q : Packet) (reason : Nat) (turn : Nat) (h0 : Die.Ok s0 x) :
    Die.Ok s0 (Die.busyTo x q reason turn) := by
  unfold Die.busyTo
  try dsimp only
  repeat' (first
    | (with_reducible first | assumption | apply Die_respond_keeps | apply die_mem)
    | simp only [keeps_mk, die_mk, mem_mk, panel_mk])

theorem Die_cackTo_keeps {s0 : State} (x : Die) (q : Packet) (turn : Nat) (h0 : Die.Ok s0 x) :
    Die.Ok s0 (Die.cackTo x q turn) := by
  unfold Die.cackTo
  try dsimp only
  repeat' (first | (with_reducible first | assumption | apply die_mem) | simp only [keeps_mk, die_mk, mem_mk, panel_mk])

theorem Die_chunkPackets_keeps {s0 : State} (x : Die) (b : Nat) (h' : HoldChunk) (turn : Nat) (h0 : Die.Ok s0 x) :
    Die.Ok s0 (Die.chunkPackets x b h' turn) := by
  unfold Die.chunkPackets
  try dsimp only
  repeat' (first | (with_reducible first | assumption | apply die_mem) | simp only [keeps_mk, die_mk, mem_mk, panel_mk])

theorem Die_modChan_keeps {s0 : State} (x : Die) (ch : Nat) (f : Chan → Chan) (h0 : Die.Ok s0 x) :
    Die.Ok s0 (Die.modChan x ch f) := by
  unfold Die.modChan
  try dsimp only
  repeat' (first | (with_reducible first | assumption | apply die_mem) | simp only [keeps_mk, die_mk, mem_mk, panel_mk])

theorem Die_dropFetched_keeps {s0 : State} (x : Die) (q : Nat) (h0 : Die.Ok s0 x) :
    Die.Ok s0 (Die.dropFetched x q) := by
  unfold Die.dropFetched
  try dsimp only
  repeat' (first | (with_reducible first | assumption | apply Die_modChan_keeps | apply die_ite) | with_reducible intro _)

theorem Die_flushQueue_keeps {s0 : State} (x : Die) (q : Nat) (h0 : Die.Ok s0 x) :
    Die.Ok s0 (Die.flushQueue x q) := by
  unfold Die.flushQueue
  try dsimp only
  repeat' (first
    | (with_reducible first | assumption | apply Die_dropFetched_keeps | apply Die_setQueue_keeps | apply die_mem)
    | simp only [keeps_mk, die_mk, mem_mk, panel_mk])

theorem Die_closeQueue_keeps {s0 : State} (x : Die) (q : Nat) (h0 : Die.Ok s0 x) :
    Die.Ok s0 (Die.closeQueue x q) := by
  unfold Die.closeQueue
  try dsimp only
  repeat' (with_reducible first | assumption | apply Die_flushQueue_keeps | apply Die_setQueue_keeps)

theorem Die_completed_keeps {s0 : State} (x : Die) (r : Req) (q : Packet) (h0 : Die.Ok s0 x) :
    Die.Ok s0 (Die.completed x r q) := by
  unfold Die.completed
  try dsimp only
  repeat' (first
    | (with_reducible first | assumption | apply Die_ackWindow_keeps | apply die_ite | apply die_mem)
    | simp only [keeps_mk, die_mk, mem_mk, panel_mk]
    | with_reducible intro _)

theorem Die_countDrop_keeps {s0 : State} (x : Die) (why : Nat) (h0 : Die.Ok s0 x) :
    Die.Ok s0 (Die.countDrop x why) := by
  unfold Die.countDrop
  try dsimp only
  repeat' (first | (with_reducible first | assumption | apply die_mem) | simp only [keeps_mk, die_mk, mem_mk, panel_mk] | split)

theorem Die_countPort_keeps {s0 : State} (x : Die) (p : Nat) (f : PortCnt → PortCnt) (h0 : Die.Ok s0 x) :
    Die.Ok s0 (Die.countPort x p f) := by
  unfold Die.countPort
  try dsimp only
  repeat' (first | (with_reducible first | assumption | apply die_mem) | simp only [keeps_mk, die_mk, mem_mk, panel_mk])

theorem Die_countRefused_keeps {s0 : State} (x : Die) (c : Nat) (w : BitVec 64) (h0 : Die.Ok s0 x) :
    Die.Ok s0 (Die.countRefused x c w) := by
  unfold Die.countRefused
  try dsimp only
  repeat' (with_reducible first | assumption | apply Die_admit_keeps)

theorem Die_modGang_keeps {s0 : State} (x : Die) (c : Nat) (f : Gang → Gang) (h0 : Die.Ok s0 x) :
    Die.Ok s0 (Die.modGang x c f) := by
  unfold Die.modGang
  try dsimp only
  repeat' (first | (with_reducible first | assumption | apply die_mem) | simp only [keeps_mk, die_mk, mem_mk, panel_mk])

theorem Die_countWait_keeps {s0 : State} (x : Die) (c : Nat) (a : Nat) (h0 : Die.Ok s0 x) :
    Die.Ok s0 (Die.countWait x c a) := by
  unfold Die.countWait
  try dsimp only
  repeat' (first | (with_reducible first | assumption | apply Die_modGang_keeps | apply die_ite) | with_reducible intro _ | split)

theorem Die_setInst_keeps {s0 : State} (x : Die) (b : Nat) (v : Inst) (h0 : Die.Ok s0 x) :
    Die.Ok s0 (Die.setInst x b v) := by
  unfold Die.setInst
  try dsimp only
  repeat' (first | (with_reducible first | assumption | apply die_mem) | simp only [keeps_mk, die_mk, mem_mk, panel_mk])

theorem Die_ctlRaw_keeps {s0 : State} (x : Die) (b : Nat) (peer : Nat) (kind : Nat) (phase : Nat) (id : ChunkId) (attempt : Nat)
    (payload : List (BitVec 8)) (turn : Nat) (h0 : Die.Ok s0 x) :
    Die.Ok s0 (Die.ctlRaw x b peer kind phase id attempt payload turn) := by
  unfold Die.ctlRaw
  try dsimp only
  repeat' (first
    | (with_reducible first | assumption | apply Die_setInst_keeps | apply die_ite | apply die_mem)
    | simp only [keeps_mk, die_mk, mem_mk, panel_mk]
    | with_reducible intro _)

theorem Die_sweepGroups_keeps {s0 : State} (x : Die) (c : Nat) (h0 : Die.Ok s0 x) :
    Die.Ok s0 (Die.sweepGroups x c) := by
  unfold Die.sweepGroups
  try dsimp only
  repeat' (with_reducible first | assumption | apply Die_modGang_keeps)

theorem Die_discardArrays_keeps {s0 : State} (x : Die) (turn : Nat) (h0 : Die.Ok s0 x) :
    Die.Ok s0 (Die.discardArrays x turn) := by
  unfold Die.discardArrays
  try dsimp only
  repeat' (first
    | (with_reducible first | assumption | apply Die_modArr_keeps | apply Die_sweepGroups_keeps | apply Die_modGang_keeps | apply die_mem
                            | apply die_foldl)
    | simp only [keeps_mk, die_mk, mem_mk, panel_mk]
    | with_reducible intro _)

theorem Die_discardLadle_keeps {s0 : State} (x : Die) (turn : Nat) (h0 : Die.Ok s0 x) :
    Die.Ok s0 (Die.discardLadle x turn) := by
  unfold Die.discardLadle
  try dsimp only
  repeat' (first
    | (with_reducible first | assumption | apply Die_modChan_keeps | apply Die_setQueue_keeps | apply die_ite | apply die_mem
                            | apply mem_cells | apply die_foldl)
    | simp only [keeps_mk, die_mk, mem_mk, panel_mk]
    | with_reducible intro _)

theorem Die_discardVec_keeps {s0 : State} (x : Die) (turn : Nat) (h0 : Die.Ok s0 x) :
    Die.Ok s0 (Die.discardVec x turn) := by
  unfold Die.discardVec
  try dsimp only
  repeat' (first
    | (with_reducible first | assumption | apply Die_modVec_keeps | apply die_mem | apply die_foldl)
    | simp only [keeps_mk, die_mk, mem_mk, panel_mk]
    | with_reducible intro _)

theorem Die_discardQueued_keeps {s0 : State} (x : Die) (turn : Nat) (h0 : Die.Ok s0 x) :
    Die.Ok s0 (Die.discardQueued x turn) := by
  unfold Die.discardQueued
  try dsimp only
  repeat' (with_reducible first | assumption | apply Die_discardLadle_keeps | apply Die_discardVec_keeps | apply Die_discardArrays_keeps)

theorem Die_domainOff_keeps {s0 : State} (x : Die) (n : Nat) (h0 : Die.Ok s0 x) :
    Die.Ok s0 (Die.domainOff x n) := by
  unfold Die.domainOff
  try dsimp only
  repeat' (first
    | (with_reducible first | assumption | apply die_ite | apply die_mem | apply mem_cells | apply cells_filter)
    | simp only [keeps_mk, die_mk, mem_mk, panel_mk]
    | with_reducible intro _)

theorem Die_drainFlags_keeps {s0 : State} (key : Nat) (turn : Nat) (y2 : Nat) (y3 : Die) (h0 : Die.Ok s0 y3) :
    Die.Ok s0 (Die.drainFlags key turn y2 y3) := by
  induction y2 generalizing y3 with
  | zero =>
    unfold Die.drainFlags
    try dsimp only
    repeat' (with_reducible assumption)
  | succ k ih =>
    unfold Die.drainFlags
    try dsimp only
    repeat' (first | (with_reducible first | assumption | apply ih | apply Die_applyStore_keeps | apply Die_setTgt_keeps) | split)

theorem Die_dropReq_keeps {s0 : State} (x : Die) (id : Nat) (h0 : Die.Ok s0 x) :
    Die.Ok s0 (Die.dropReq x id) := by
  unfold Die.dropReq
  try dsimp only
  repeat' (first | (with_reducible first | assumption | apply die_mem) | simp only [keeps_mk, die_mk, mem_mk, panel_mk])

theorem Die_dropUnsent_keeps {s0 : State} (x : Die) (ch : Nat) (key : Nat) (h0 : Die.Ok s0 x) :
    Die.Ok s0 (Die.dropUnsent x ch key) := by
  unfold Die.dropUnsent
  try dsimp only
  repeat' (first
    | (with_reducible first | assumption | apply Die_modChan_keeps | apply die_mem)
    | simp only [keeps_mk, die_mk, mem_mk, panel_mk])

theorem Die_dupResponse_keeps {s0 : State} (x : Die) (h0 : Die.Ok s0 x) :
    Die.Ok s0 (Die.dupResponse x) := by
  unfold Die.dupResponse
  try dsimp only
  repeat' (first | (with_reducible first | assumption | apply die_mem) | simp only [keeps_mk, die_mk, mem_mk, panel_mk])

theorem Die_finishLoad_keeps {s0 : State} (x : Die) (k' : ArrCmd) (t : Tile) (tr : Bool) (h0 : Die.Ok s0 x) :
    Die.Ok s0 (Die.finishLoad x k' t tr) := by
  unfold Die.finishLoad
  try dsimp only
  repeat' (first | (with_reducible first | assumption | apply Die_modArr_keeps | apply die_foldl) | with_reducible intro _)

theorem Die_freeSlot_keeps {s0 : State} (x : Die) (a : Arrival) (h0 : Die.Ok s0 x) :
    Die.Ok s0 (Die.freeSlot x a) := by
  unfold Die.freeSlot
  try dsimp only
  repeat' (first | (with_reducible first | assumption | apply Die_modPair_keeps) | split)

theorem Die_freshKey_keeps {s0 : State} (x : Die) (h0 : Die.Ok s0 x) :
    Die.Ok s0 (Die.freshKey x).2 := by
  unfold Die.freshKey
  try dsimp only
  repeat' (first | (with_reducible first | assumption | apply die_mem) | simp only [keeps_mk, die_mk, mem_mk, panel_mk])

theorem Die_haltSends_keeps {s0 : State} (x : Die) (c : Nat) (h0 : Die.Ok s0 x) :
    Die.Ok s0 (Die.haltSends x c) := by
  unfold Die.haltSends
  try dsimp only
  repeat' (first | (with_reducible first | assumption | apply die_mem) | simp only [keeps_mk, die_mk, mem_mk, panel_mk])

theorem Die_image_keeps {s0 : State} (x : Die) (h0 : Die.Ok s0 x) :
    Die.Ok s0 (Die.image x) := by
  unfold Die.image
  try dsimp only
  repeat' (first | with_reducible apply cells_nil | simp only [keeps_mk, die_mk, mem_mk, panel_mk])

theorem Die_launchArb_keeps {s0 : State} (x : Die) (ks : List Bind) (n : Nat) (h0 : Die.Ok s0 x) :
    Die.Ok s0 (Die.launchArb x ks n) := by
  unfold Die.launchArb
  try dsimp only
  repeat' (first | (with_reducible first | assumption | apply die_mem) | simp only [keeps_mk, die_mk, mem_mk, panel_mk] | split)

theorem Die_launchObserve_keeps {s0 : State} (x : Die) (m : Menu) (n : Nat) (h0 : Die.Ok s0 x) :
    Die.Ok s0 (Die.launchObserve x m n) := by
  unfold Die.launchObserve
  try dsimp only
  repeat' (first | (with_reducible first | assumption | apply die_mem) | simp only [keeps_mk, die_mk, mem_mk, panel_mk])

theorem Die_launchSieve_keeps {s0 : State} (x : Die) (m : Menu) (n : Nat) (h0 : Die.Ok s0 x) :
    Die.Ok s0 (Die.launchSieve x m n) := by
  unfold Die.launchSieve
  try dsimp only
  repeat' (first | (with_reducible first | assumption | apply die_mem) | simp only [keeps_mk, die_mk, mem_mk, panel_mk])

theorem Die_launchDescs_keeps {s0 : State} (x : Die) (m : Menu) (n : Nat) (h0 : Die.Ok s0 x) :
    Die.Ok s0 (Die.launchDescs x m n) := by
  unfold Die.launchDescs
  try dsimp only
  repeat' (first | (with_reducible first | assumption | apply die_mem) | simp only [keeps_mk, die_mk, mem_mk, panel_mk] | split)

theorem Die_setAside_keeps {s0 : State} (x : Die) (b : Nat) (h0 : Die.Ok s0 x) :
    Die.Ok s0 (Die.setAside x b) := by
  unfold Die.setAside
  try dsimp only
  repeat' (first
    | (with_reducible first | assumption | apply die_ite | apply die_mem | apply mem_cells)
    | simp only [keeps_mk, die_mk, mem_mk, panel_mk]
    | with_reducible intro _)

theorem Die_whiskLaunched_keeps {s0 : State} (x : Die) (h0 : Die.Ok s0 x) :
    Die.Ok s0 (Die.whiskLaunched x) := by
  unfold Die.whiskLaunched
  try dsimp only
  repeat' (first
    | (with_reducible first | assumption | apply Die_setAside_keeps | apply die_mem | apply die_foldl)
    | simp only [keeps_mk, die_mk, mem_mk, panel_mk])

theorem Die_launchArrays_keeps {s0 : State} (x : Die) (h0 : Die.Ok s0 x) :
    Die.Ok s0 (Die.launchArrays x) := by
  unfold Die.launchArrays
  try dsimp only
  repeat' (first | (with_reducible first | assumption | apply die_mem) | simp only [keeps_mk, die_mk, mem_mk, panel_mk])

theorem Die_launchUnits_keeps {s0 : State} (x : Die) (m : Menu) (h0 : Die.Ok s0 x) :
    Die.Ok s0 (Die.launchUnits x m) := by
  unfold Die.launchUnits
  try dsimp only
  repeat' (first
    | (with_reducible first | assumption | apply Die_whiskLaunched_keeps | apply Die_launchArrays_keeps | apply die_mem)
    | simp only [keeps_mk, die_mk, mem_mk, panel_mk])

theorem Die_launchQueues_keeps {s0 : State} (x : Die) (m : Menu) (n : Nat) (h0 : Die.Ok s0 x) :
    Die.Ok s0 (Die.launchQueues x m n) := by
  unfold Die.launchQueues
  try dsimp only
  repeat' (first
    | (with_reducible first | assumption | apply Die_setQueue_keeps | apply die_mem | apply die_foldl)
    | simp only [keeps_mk, die_mk, mem_mk, panel_mk]
    | with_reducible intro _)

theorem Die_launch_keeps {s0 : State} (x : Die) (m : Menu) (ks : List Bind) (n : Nat) (h0 : Die.Ok s0 x) :
    Die.Ok s0 (Die.launch x m ks n) := by
  unfold Die.launch
  try dsimp only
  repeat' (with_reducible first | assumption | apply Die_launchArb_keeps | apply Die_launchObserve_keeps | apply Die_launchSieve_keeps
                                | apply Die_launchDescs_keeps | apply Die_launchUnits_keeps | apply Die_launchQueues_keeps)

theorem Die_leaveMenu_keeps {s0 : State} (x : Die) (m : Menu) (n : Nat) (weights : Bool) (aborted : Bool) (h0 : Die.Ok s0 x) :
    Die.Ok s0 (Die.leaveMenu x m n weights aborted) := by
  unfold Die.leaveMenu
  try dsimp only
  repeat' (first | (with_reducible first | assumption | apply die_mem) | simp only [keeps_mk, die_mk, mem_mk, panel_mk])

theorem Die_loadBytes_keeps {s0 : State} (x : Die) (q : Packet) (h0 : Die.Ok s0 x) :
    Die.Ok s0 (Die.loadBytes x q).1 := by
  unfold Die.loadBytes
  try dsimp only
  repeat' (first | (with_reducible first | assumption | apply Die_fabRead_keeps) | split)

theorem Die_modHalf_keeps {s0 : State} (x : Die) (h' : Nat) (f : Half → Half) (h0 : Die.Ok s0 x) :
    Die.Ok s0 (Die.modHalf x h' f) := by
  unfold Die.modHalf
  try dsimp only
  repeat' (first
    | (with_reducible first | assumption | apply die_ite | apply die_mem)
    | simp only [keeps_mk, die_mk, mem_mk, panel_mk]
    | with_reducible intro _)

theorem Die_modReq_keeps {s0 : State} (x : Die) (id : Nat) (f : Req → Req) (h0 : Die.Ok s0 x) :
    Die.Ok s0 (Die.modReq x id f) := by
  unfold Die.modReq
  try dsimp only
  repeat' (first | (with_reducible first | assumption | apply die_mem) | simp only [keeps_mk, die_mk, mem_mk, panel_mk])

theorem Die_modSeq_keeps {s0 : State} (x : Die) (c : Nat) (f : Seq → Seq) (h0 : Die.Ok s0 x) :
    Die.Ok s0 (Die.modSeq x c f) := by
  unfold Die.modSeq
  try dsimp only
  repeat' (first | (with_reducible first | assumption | apply die_mem) | simp only [keeps_mk, die_mk, mem_mk, panel_mk])

theorem Die_numberReq_keeps {s0 : State} (x : Die) (r : Req) (h0 : Die.Ok s0 x) :
    Die.Ok s0 (Die.numberReq x r).1 := by
  unfold Die.numberReq
  try dsimp only
  repeat' (first
    | (with_reducible first | assumption | apply Die_putWin_keeps | apply die_ite_fst | apply die_mem)
    | simp only [keeps_mk, die_mk, mem_mk, panel_mk]
    | with_reducible intro _)

theorem Die_off_keeps {s0 : State} (x : Die) (h0 : Die.Ok s0 x) :
    Die.Ok s0 (Die.off x) := by
  unfold Die.off
  try dsimp only
  repeat' (first
    | (with_reducible first | assumption | apply Die_domainOff_keeps | apply die_mem | apply mem_cells | apply die_foldl)
    | simp only [keeps_mk, die_mk, mem_mk, panel_mk])

theorem Die_takeDesc_keeps {s0 : State} (x : Die) (ch : Nat) (h0 : Die.Ok s0 x) :
    Die.Ok s0 (Die.takeDesc x ch) := by
  unfold Die.takeDesc
  try dsimp only
  repeat' (first | (with_reducible first | assumption | apply Die_setQueue_keeps | apply Die_modChan_keeps) | split)

theorem Die_popDesc_keeps {s0 : State} (x : Die) (ch : Nat) (turn : Nat) (started : Bool) (h0 : Die.Ok s0 x) :
    Die.Ok s0 (Die.popDesc x ch turn started) := by
  unfold Die.popDesc
  try dsimp only
  repeat' (first
    | (with_reducible first | assumption | apply Die_takeDesc_keeps | apply Die_modChan_keeps | apply die_mem)
    | simp only [keeps_mk, die_mk, mem_mk, panel_mk])

theorem Die_pushFlip_keeps {s0 : State} (x : Die) (cmd : ArrCmd) (h0 : Die.Ok s0 x) :
    Die.Ok s0 (Die.pushFlip x cmd) := by
  unfold Die.pushFlip
  try dsimp only
  repeat' (first | (with_reducible first | assumption | apply Die_modArr_keeps | apply die_foldl) | with_reducible intro _)

theorem Die_pushLoad_keeps {s0 : State} (x : Die) (cmd : ArrCmd) (fmt : Nat) (h0 : Die.Ok s0 x) :
    Die.Ok s0 (Die.pushLoad x cmd fmt) := by
  unfold Die.pushLoad
  try dsimp only
  repeat' (first | (with_reducible first | assumption | apply Die_modArr_keeps | apply die_foldl) | with_reducible intro _)

theorem Die_pushMatmul_keeps {s0 : State} (x : Die) (cmd : ArrCmd) (h0 : Die.Ok s0 x) :
    Die.Ok s0 (Die.pushMatmul x cmd) := by
  unfold Die.pushMatmul
  try dsimp only
  repeat' (first | (with_reducible first | assumption | apply Die_modArr_keeps | apply die_foldl) | with_reducible intro _)

theorem Die_putRanks_keeps {s0 : State} (x : Die) (t : RankTable) (h0 : Die.Ok s0 x) :
    Die.Ok s0 (Die.putRanks x t) := by
  unfold Die.putRanks
  try dsimp only
  repeat' (first | (with_reducible first | assumption | apply die_mem) | simp only [keeps_mk, die_mk, mem_mk, panel_mk])

theorem Die_readDone_keeps {s0 : State} (x : Die) (u : Consumer) (core : Option Nat) (spans : List (Nat × Nat)) (h0 : Die.Ok s0 x) :
    Die.Ok s0 (Die.readDone x u core spans) := by
  unfold Die.readDone
  try dsimp only
  repeat' (first
    | (with_reducible first | assumption | apply MemUnit_forget_keeps | apply Die_bump_keeps | apply die_mem | apply mem_foldl_fst)
    | simp only [keeps_mk, die_mk, mem_mk, panel_mk]
    | with_reducible intro _
    | split)

theorem Die_remoteFault_keeps {s0 : State} (x : Die) (addr : Nat) (code : Nat) (h0 : Die.Ok s0 x) :
    Die.Ok s0 (Die.remoteFault x addr code) := by
  unfold Die.remoteFault
  try dsimp only
  repeat' (first | (with_reducible first | assumption | apply die_mem) | simp only [keeps_mk, die_mk, mem_mk, panel_mk])

theorem Die_reset_keeps {s0 : State} (x : Die) (h0 : Die.Ok s0 x) :
    Die.Ok s0 (Die.reset x) := by
  unfold Die.reset
  try dsimp only
  repeat' (first
    | (with_reducible first | assumption | apply Die_off_keeps | apply die_mem)
    | simp only [keeps_mk, die_mk, mem_mk, panel_mk])

theorem Die_serveData_keeps {s0 : State} (x : Die) (q : Packet) (bs : List (BitVec 8)) (turn : Nat) (h0 : Die.Ok s0 x) :
    Die.Ok s0 (Die.serveData x q bs turn) := by
  unfold Die.serveData
  try dsimp only
  repeat' (first | (with_reducible first | assumption | apply Die_respond_keeps | apply die_foldl) | with_reducible intro _)

theorem Die_setRa_keeps {s0 : State} (x : Die) (c : Nat) (w : BitVec 64) (v : Nat) (h0 : Die.Ok s0 x) :
    Die.Ok s0 (Die.setRa x c w v) := by
  unfold Die.setRa
  try dsimp only
  repeat' (with_reducible first | assumption | apply Die_modSeq_keeps)

theorem Die_setRoute_keeps {s0 : State} (x : Die) (i : Nat) (r : Option Route) (h0 : Die.Ok s0 x) :
    Die.Ok s0 (Die.setRoute x i r) := by
  unfold Die.setRoute
  try dsimp only
  repeat' (first | (with_reducible first | assumption | apply die_mem) | simp only [keeps_mk, die_mk, mem_mk, panel_mk])

theorem Die_setTile_keeps {s0 : State} (x : Die) (c : Nat) (i : Nat) (v : Tile) (h0 : Die.Ok s0 x) :
    Die.Ok s0 (Die.setTile x c i v) := by
  unfold Die.setTile
  try dsimp only
  repeat' (first | (with_reducible first | assumption | apply die_mem) | simp only [keeps_mk, die_mk, mem_mk, panel_mk])

theorem Die_sieveWrite_keeps {s0 : State} (x : Die) (h0 : Die.Ok s0 x) :
    Die.Ok s0 (Die.sieveWrite x) := by
  unfold Die.sieveWrite
  try dsimp only
  repeat' (first
    | (with_reducible first | assumption | apply MemUnit_kilnPush_keeps | apply die_ite | apply die_mem)
    | simp only [keeps_mk, die_mk, mem_mk, panel_mk]
    | with_reducible intro _)

theorem Die_stall_keeps {s0 : State} (x : Die) (a : Nat) (feed : Nat) (drain : Nat) (h0 : Die.Ok s0 x) :
    Die.Ok s0 (Die.stall x a feed drain) := by
  unfold Die.stall
  try dsimp only
  repeat' (with_reducible first | assumption | apply Die_modArr_keeps)

theorem Die_startLoad_keeps {s0 : State} (x : Die) (k' : ArrCmd) (h0 : Die.Ok s0 x) :
    Die.Ok s0 (Die.startLoad x k') := by
  unfold Die.startLoad
  try dsimp only
  repeat' (first | (with_reducible first | assumption | apply Die_modArr_keeps | apply die_foldl) | with_reducible intro _)

theorem Die_stopCores_keeps {s0 : State} (x : Die) (turn : Nat) (h0 : Die.Ok s0 x) :
    Die.Ok s0 (Die.stopCores x turn) := by
  unfold Die.stopCores
  try dsimp only
  repeat' (first
    | (with_reducible first | assumption | apply Die_modSeq_keeps | apply Die_haltSends_keeps | apply Die_discardQueued_keeps
                            | apply die_foldl)
    | with_reducible intro _)

theorem Die_storeLanded_keeps {s0 : State} (x : Die) (session : Nat) (seq : Nat) (status : Nat) (turn : Nat) (h0 : Die.Ok s0 x) :
    Die.Ok s0 (Die.storeLanded x session seq status turn) := by
  unfold Die.storeLanded
  try dsimp only
  repeat' (first
    | (with_reducible first | assumption | apply Die_drainFlags_keeps | apply Die_ackTo_keeps | apply Die_markApplied_keeps
                            | apply die_ite | apply die_mem)
    | simp only [keeps_mk, die_mk, mem_mk, panel_mk]
    | with_reducible intro _
    | split)

theorem Die_take_keeps {s0 : State} (x : Die) (q : Packet) (turn : Nat) (h0 : Die.Ok s0 x) :
    Die.Ok s0 (Die.take x q turn).1 := by
  unfold Die.take
  try dsimp only
  repeat' (first
    | (with_reducible first | assumption | apply Die_ackTo_keeps | apply Die_busyTo_keeps | apply Die_setTgt_keeps | apply die_ite_fst
                            | apply die_mem)
    | simp only [keeps_mk, die_mk, mem_mk, panel_mk]
    | with_reducible intro _
    | split)

theorem Die_takeBody_keeps {s0 : State} (x : Die) (d : Nat) (p : Nat) (carries : Bool) (bs : List (BitVec 8)) (h0 : Die.Ok s0 x) :
    Die.Ok s0 (Die.takeBody x d p carries bs) := by
  unfold Die.takeBody
  try dsimp only
  repeat' (first
    | (with_reducible first | assumption | apply Die_modPair_keeps | apply Die_countPort_keeps | apply Die_freeSlot_keeps
                            | apply Die_enqueue_keeps | apply die_ite | apply die_mem)
    | simp only [keeps_mk, die_mk, mem_mk, panel_mk]
    | with_reducible intro _)

theorem Die_tearDown_keeps {s0 : State} (x0 : Die) (turn : Nat) (h0 : Die.Ok s0 x0) :
    Die.Ok s0 (Die.tearDown x0 turn) := by
  unfold Die.tearDown
  try dsimp only
  repeat' (first
    | (with_reducible first | assumption | apply Die_discardQueued_keeps | apply die_mem)
    | simp only [keeps_mk, die_mk, mem_mk, panel_mk])

theorem Die_train_keeps {s0 : State} (x : Die) (h0 : Die.Ok s0 x) :
    Die.Ok s0 (Die.train x) := by
  unfold Die.train
  try dsimp only
  repeat' (first | (with_reducible first | assumption | apply die_mem | apply mem_cells) | simp only [keeps_mk, die_mk, mem_mk, panel_mk])

theorem Die_unhold_keeps {s0 : State} (x : Die) (i : Nat) (a : Arrival) (h0 : Die.Ok s0 x) :
    Die.Ok s0 (Die.unhold x i a) := by
  unfold Die.unhold
  try dsimp only
  repeat' (first
    | (with_reducible first | assumption | apply Die_freeSlot_keeps | apply die_mem)
    | simp only [keeps_mk, die_mk, mem_mk, panel_mk])

theorem Die_writeId_keeps {s0 : State} (x : Die) (r : Nat) (v : Nat) (h0 : Die.Ok s0 x) :
    Die.Ok s0 (Die.writeId x r v) := by
  unfold Die.writeId
  try dsimp only
  repeat' (first | (with_reducible first | assumption | apply die_mem) | simp only [keeps_mk, die_mk, mem_mk, panel_mk] | split)

theorem Die_writePieces_keeps {s0 : State} (x : Die) (o : KilnOwner) (ps : List (Nat × Bytes)) (h0 : Die.Ok s0 x) :
    Die.Ok s0 (Die.writePieces x o ps).1 := by
  unfold Die.writePieces
  try dsimp only
  repeat' (first
    | (with_reducible first | assumption | apply Die_panStore_keeps | apply MemUnit_kilnPush_keeps | apply die_mem | apply die_foldl
                            | apply mem_foldl)
    | simp only [keeps_mk, die_mk, mem_mk, panel_mk]
    | with_reducible intro _)

end Sys2Proof.Machine
end

