-- ==== Sys2Proof/Laws/KeepsOps2.lean ====
section
/-! SUPPORT. The named operations (part 2) keep what `Sys2Proof.Laws.Keeps` names: the cells of every kiln stay canonical, what the hearths hold stays legal, and
the fuses are as they were. One lemma per operation, by the lemmas of what it calls. -/

open Sys2Proof

namespace Sys2Proof.Machine

set_option linter.unusedVariables false
set_option linter.unusedSimpArgs false

theorem Die_writePool_keeps {s0 : State} (x : Die) (r : Nat) (v : Nat) (h0 : Die.Ok s0 x) :
    Die.Ok s0 (Die.writePool x r v) := by
  unfold Die.writePool
  try dsimp only
  repeat' (first
    | (with_reducible first | assumption | apply Die_setQueue_keeps | apply Die_flushQueue_keeps | apply die_ite)
    | with_reducible intro _)

theorem Die_writeRegion_keeps {s0 : State} (x : Die) (o : Nat) (v : Nat) (h0 : Die.Ok s0 x) :
    Die.Ok s0 (Die.writeRegion x o v) := by
  unfold Die.writeRegion
  try dsimp only
  repeat' (first
    | (with_reducible first | assumption | apply die_ite | apply die_mem | apply mem_cells)
    | simp only [keeps_mk, die_mk, mem_mk, panel_mk]
    | with_reducible intro _)

theorem Die_writeReg_keeps {s0 : State} (x : Die) (r : Nat) (v : Nat) (h0 : Die.Ok s0 x) :
    Die.Ok s0 (Die.writeReg x r v) := by
  unfold Die.writeReg
  try dsimp only
  repeat' (first
    | (with_reducible first | assumption | apply Die_writeId_keeps | apply Die_writeRegion_keeps | apply Die_writePool_keeps
                            | apply Die_modHalf_keeps | apply die_ite | apply die_mem)
    | simp only [keeps_mk, die_mk, mem_mk, panel_mk]
    | with_reducible intro _
    | split)

theorem Die_writeRows_keeps {s0 : State} (x : Die) (t : Tile) (rows : List RowOut) (h0 : Die.Ok s0 x) :
    Die.Ok s0 (Die.writeRows x t rows) := by
  unfold Die.writeRows
  try dsimp only
  repeat' (first
    | (with_reducible first | assumption | apply Die_panStore_keeps | apply die_ite | apply die_foldl)
    | with_reducible intro _)

theorem Die_writeRuns_keeps {s0 : State} (x : Die) (o : KilnOwner) (runs : List (List (Nat × Bytes))) (h0 : Die.Ok s0 x) :
    Die.Ok s0 (Die.writeRuns x o runs).1 := by
  unfold Die.writeRuns
  try dsimp only
  repeat' (first
    | (with_reducible first | assumption | apply Die_writePieces_keeps | apply die_foldl_fst)
    | simp only [keeps_mk, die_mk, mem_mk, panel_mk]
    | with_reducible intro _)

theorem MemUnit_setFail_keeps {s0 : State} (m : MemUnit) (u : Consumer) (a : Nat) (n : Nat) (h0 : MemUnit.Ok s0 m) :
    MemUnit.Ok s0 (MemUnit.setFail m u a n) := by
  unfold MemUnit.setFail
  try dsimp only
  repeat' (first | (with_reducible first | assumption | apply mem_cells) | simp only [keeps_mk, die_mk, mem_mk, panel_mk])

theorem MemUnit_setKiln_keeps {s0 : State} (m : MemUnit) (larder : Bool) (l : List KilnReq) (h0 : MemUnit.Ok s0 m) :
    MemUnit.Ok s0 (MemUnit.setKiln m larder l) := by
  unfold MemUnit.setKiln
  try dsimp only
  repeat' (first
    | (with_reducible first | assumption | apply mem_ite | apply mem_cells)
    | simp only [keeps_mk, die_mk, mem_mk, panel_mk]
    | with_reducible intro _)

theorem MemUnit_upsetWord_keeps {s0 : State} (m : MemUnit) (w : Nat) (flips : Nat) (k' : Nat) (h0 : MemUnit.Ok s0 m) :
    MemUnit.Ok s0 (MemUnit.upsetWord m w flips k') := by
  unfold MemUnit.upsetWord
  try dsimp only
  repeat' (first
    | (with_reducible first | assumption | apply mem_ite | apply mem_cells | apply cells_write)
    | simp only [keeps_mk, die_mk, mem_mk, panel_mk]
    | with_reducible intro _)

theorem Panel_addLog_keeps {s0 : State} (p : Panel) (n : Notice) (h0 : Panel.Ok s0 p) :
    Panel.Ok s0 (Panel.addLog p n) := by
  unfold Panel.addLog
  try dsimp only
  repeat' (first | (with_reducible first | assumption | apply panel_held) | simp only [keeps_mk, die_mk, mem_mk, panel_mk])

theorem Panel_clearGw_keeps {s0 : State} (p : Panel) (h0 : Panel.Ok s0 p) :
    Panel.Ok s0 (Panel.clearGw p) := by
  unfold Panel.clearGw
  try dsimp only
  repeat' (first | (with_reducible first | assumption | apply panel_held) | simp only [keeps_mk, die_mk, mem_mk, panel_mk])

theorem Panel_freeCells_keeps {s0 : State} (p : Panel) (q : Nat) (i : Nat) (n : Nat) (h0 : Panel.Ok s0 p) :
    Panel.Ok s0 (Panel.freeCells p q i n) := by
  unfold Panel.freeCells
  try dsimp only
  repeat' (first | (with_reducible first | assumption | apply panel_held) | simp only [keeps_mk, die_mk, mem_mk, panel_mk])

theorem Panel_modHatch_keeps {s0 : State} (p : Panel) (h' : Nat) (f : Hatch → Hatch) (h0 : Panel.Ok s0 p) :
    Panel.Ok s0 (Panel.modHatch p h' f) := by
  unfold Panel.modHatch
  try dsimp only
  repeat' (first | (with_reducible first | assumption | apply panel_held) | simp only [keeps_mk, die_mk, mem_mk, panel_mk])

theorem Panel_gather_keeps {s0 : State} (p : Panel) (h' : Nat) (k' : Nat) (h0 : Panel.Ok s0 p) :
    Panel.Ok s0 (Panel.gather p h' k').1 := by
  unfold Panel.gather
  try dsimp only
  repeat' (first
    | (with_reducible first | assumption | apply Panel_modHatch_keeps | apply panel_ite_fst)
    | simp only [keeps_mk, die_mk, mem_mk, panel_mk]
    | with_reducible intro _)

theorem Panel_linkCells_keeps {s0 : State} (p : Panel) (q : Nat) (k' : Nat) (n : Nat) (h0 : Panel.Ok s0 p) :
    Panel.Ok s0 (Panel.linkCells p q k' n) := by
  unfold Panel.linkCells
  try dsimp only
  repeat' (first | (with_reducible first | assumption | apply panel_held) | simp only [keeps_mk, die_mk, mem_mk, panel_mk])

theorem Panel_queueNotice_keeps {s0 : State} (p : Panel) (h' : Nat) (n : Notice) (h0 : Panel.Ok s0 p) :
    Panel.Ok s0 (Panel.queueNotice p h' n) := by
  unfold Panel.queueNotice
  try dsimp only
  repeat' (first
    | (with_reducible first | assumption | apply Panel_modHatch_keeps | apply Panel_linkCells_keeps | apply panel_ite)
    | with_reducible intro _)

theorem Panel_retire_keeps {s0 : State} (p : Panel) (h' : Nat) (acked : Nat) (h0 : Panel.Ok s0 p) :
    Panel.Ok s0 (Panel.retire p h' acked) := by
  unfold Panel.retire
  try dsimp only
  repeat' (first
    | (with_reducible first | assumption | apply Panel_modHatch_keeps | apply panel_held)
    | simp only [keeps_mk, die_mk, mem_mk, panel_mk])

theorem State_setDie_keeps {s0 : State} (s : State) (d : Nat) (x : Die) (h0 : s0.Keeps s) (h1 : Die.Ok s0 x) :
    s0.Keeps (State.setDie s d x) := by
  unfold State.setDie
  try dsimp only
  repeat' (first
    | (with_reducible first | assumption | apply keeps_dies | apply keeps_panel | apply dies_put)
    | simp only [keeps_mk, die_mk, mem_mk, panel_mk]
    | with_reducible apply And.intro)

theorem State_modDie_keeps {s0 : State} (s : State) (d : Nat) (f : Die → Die) (h0 : s0.Keeps s) (h1 : ∀ z0, Die.Ok s0 z0 → (Die.Ok s0
    (f z0))) :
    s0.Keeps (State.modDie s d f) := by
  unfold State.modDie
  try dsimp only
  repeat' (with_reducible first | assumption | apply State_setDie_keeps | apply keeps_die | apply h1)

theorem State_modInst_keeps {s0 : State} (s : State) (d : Nat) (b : Nat) (f : Inst → Inst) (h0 : s0.Keeps s) :
    s0.Keeps (State.modInst s d b f) := by
  unfold State.modInst
  try dsimp only
  repeat' (first | (with_reducible first | assumption | apply State_modDie_keeps | apply Die_setInst_keeps) | with_reducible intro _)

theorem State_modMenu_keeps {s0 : State} (s : State) (id : Nat) (f : Menu → Menu) (h0 : s0.Keeps s) :
    s0.Keeps (State.modMenu s id f) := by
  unfold State.modMenu
  try dsimp only
  repeat' (first
    | (with_reducible first | assumption | apply keeps_dies | apply keeps_panel)
    | simp only [keeps_mk, die_mk, mem_mk, panel_mk]
    | with_reducible apply And.intro)

theorem State_fresh_keeps {s0 : State} (s : State) (h0 : s0.Keeps s) :
    s0.Keeps (State.fresh s).2 := by
  unfold State.fresh
  try dsimp only
  repeat' (first
    | (with_reducible first | assumption | apply keeps_dies | apply keeps_panel)
    | simp only [keeps_mk, die_mk, mem_mk, panel_mk]
    | with_reducible apply And.intro)

theorem State_raiseAt_keeps {s0 : State} (s : State) (d : Nat) (core : Nat) (code : Nat) (off : Nat) (thread : Nat) (word : Nat)
    (h0 : s0.Keeps s) :
    s0.Keeps (State.raiseAt s d core code off thread word) := by
  unfold State.raiseAt
  try dsimp only
  repeat' (first
    | (with_reducible first | assumption | apply State_modDie_keeps | apply Die_modSeq_keeps | apply Die_haltSends_keeps
                            | apply State_modMenu_keeps | apply State_fresh_keeps | apply keeps_ite)
    | with_reducible intro _
    | split)

theorem State_raise_keeps {s0 : State} (s : State) (d : Nat) (o : Origin) (code : Nat) (h0 : s0.Keeps s) :
    s0.Keeps (State.raise s d o code) := by
  unfold State.raise
  try dsimp only
  repeat' (with_reducible first | assumption | apply State_raiseAt_keeps)

theorem State_abortTell_keeps {s0 : State} (s : State) (d : Nat) (b : Nat) (code : Nat) (except : Option Nat) (h0 : s0.Keeps s) :
    s0.Keeps (State.abortTell s d b code except) := by
  unfold State.abortTell
  try dsimp only
  repeat' (first
    | (with_reducible first | assumption | apply State_modInst_keeps | apply State_raise_keeps | apply State_modDie_keeps
                            | apply Die_ctlRaw_keeps | apply keeps_ite | apply keeps_foldl)
    | with_reducible intro _)

theorem State_releaseLeave_keeps {s0 : State} (s : State) (d : Nat) (unit : Nat) (key : Nat) (h0 : s0.Keeps s) :
    s0.Keeps (State.releaseLeave s d unit key) := by
  unfold State.releaseLeave
  try dsimp only
  repeat' (first
    | (with_reducible first | assumption | apply State_modDie_keeps | apply die_mem)
    | simp only [keeps_mk, die_mk, mem_mk, panel_mk])

theorem State_leaveContext_keeps {s0 : State} (s : State) (d : Nat) (b : Nat) (h0 : s0.Keeps s) :
    s0.Keeps (State.leaveContext s d b) := by
  unfold State.leaveContext
  try dsimp only
  repeat' (first
    | (with_reducible first | assumption | apply State_modInst_keeps | apply State_releaseLeave_keeps | apply keeps_ite)
    | with_reducible intro _
    | split)

theorem State_abortCause_keeps {s0 : State} (s : State) (d : Nat) (b : Nat) (code : Nat) (from_ : Option Nat) (h0 : s0.Keeps s) :
    s0.Keeps (State.abortCause s d b code from_) := by
  unfold State.abortCause
  try dsimp only
  repeat' (first
    | (with_reducible first | assumption | apply State_abortTell_keeps | apply State_modInst_keeps | apply State_modDie_keeps
                            | apply State_leaveContext_keeps | apply keeps_ite | apply die_mem)
    | simp only [keeps_mk, die_mk, mem_mk, panel_mk]
    | with_reducible intro _)

theorem State_whiskStopped_keeps {s0 : State} (s : State) (d : Nat) (h0 : s0.Keeps s) :
    s0.Keeps (State.whiskStopped s d) := by
  unfold State.whiskStopped
  try dsimp only
  repeat' (first
    | (with_reducible first | assumption | apply State_abortCause_keeps | apply State_modDie_keeps | apply die_mem | apply keeps_foldl)
    | simp only [keeps_mk, die_mk, mem_mk, panel_mk]
    | with_reducible intro _)

theorem State_endAtDie_keeps {s0 : State} (s : State) (m : Menu) (n : Nat) (d : Nat) (code : Nat) (h0 : s0.Keeps s) :
    s0.Keeps (State.endAtDie s m n d code) := by
  unfold State.endAtDie
  try dsimp only
  repeat' (first
    | (with_reducible first | assumption | apply State_whiskStopped_keeps | apply State_modDie_keeps | apply Die_stopCores_keeps
                            | apply Die_closeQueue_keeps | apply Die_sieveWrite_keeps | apply Die_leaveMenu_keeps | apply keeps_ite
                            | apply keeps_foldl)
    | with_reducible intro _)

theorem State_reply_keeps {s0 : State} (s : State) (h' : Nat) (seq : Nat) (opcode : Nat) (stage : Stage) (code : Nat) (single : Bool)
    (payload : List (BitVec 8)) (h0 : s0.Keeps s) :
    s0.Keeps (State.reply s h' seq opcode stage code single payload) := by
  unfold State.reply
  try dsimp only
  repeat' (first
    | (with_reducible first | assumption | apply keeps_dies | apply keeps_panel)
    | simp only [keeps_mk, die_mk, mem_mk, panel_mk]
    | with_reducible apply And.intro)

theorem State_modPanel_keeps {s0 : State} (s : State) (f : Panel → Panel) (h0 : s0.Keeps s) (h1 : ∀ z0, Panel.Ok s0 z0 → (Panel.Ok s0
    (f z0))) :
    s0.Keeps (State.modPanel s f) := by
  unfold State.modPanel
  try dsimp only
  repeat' (first
    | (with_reducible first | assumption | apply keeps_dies | apply keeps_panel | apply h1)
    | simp only [keeps_mk, die_mk, mem_mk, panel_mk]
    | with_reducible apply And.intro)

theorem State_modEntry_keeps {s0 : State} (s : State) (h' : Nat) (seq : Nat) (f : Entry → Entry) (h0 : s0.Keeps s) :
    s0.Keeps (State.modEntry s h' seq f) := by
  unfold State.modEntry
  try dsimp only
  repeat' (first
    | (with_reducible first | assumption | apply State_modPanel_keeps | apply panel_held)
    | simp only [keeps_mk, die_mk, mem_mk, panel_mk])

theorem State_finishEntry_keeps {s0 : State} (s : State) (h' : Nat) (seq : Nat) (code : Nat) (answer : List (BitVec 8)) (h0 : s0.Keeps s) :
    s0.Keeps (State.finishEntry s h' seq code answer) := by
  unfold State.finishEntry
  try dsimp only
  repeat' (first
    | (with_reducible first | assumption | apply State_reply_keeps | apply State_modPanel_keeps | apply State_modEntry_keeps
                            | apply Panel_modHatch_keeps)
    | with_reducible intro _
    | split)

theorem State_logEvent_keeps {s0 : State} (s : State) (kind : Nat) (a2 : Nat) (a3 : Nat) (subject : Nat) (h0 : s0.Keeps s) :
    s0.Keeps (State.logEvent s kind a2 a3 subject) := by
  unfold State.logEvent
  try dsimp only
  repeat' (first
    | (with_reducible first | assumption | apply Panel_addLog_keeps | apply keeps_dies | apply keeps_panel)
    | simp only [keeps_mk, die_mk, mem_mk, panel_mk]
    | with_reducible apply And.intro)

theorem State_endMenu_keeps {s0 : State} (s : State) (id : Nat) (code : Nat) (e : CourseErr) (h0 : s0.Keeps s) :
    s0.Keeps (State.endMenu s id code e) := by
  unfold State.endMenu
  try dsimp only
  repeat' (first
    | (with_reducible first | assumption | apply State_modMenu_keeps | apply State_endAtDie_keeps | apply State_finishEntry_keeps
                            | apply State_logEvent_keeps | apply State_modPanel_keeps | apply Panel_addLog_keeps | apply keeps_ite
                            | apply keeps_foldl)
    | with_reducible intro _
    | split)

theorem State_abortMenus_keeps {s0 : State} (s : State) (p : Menu → Bool) (e : CourseErr) (h0 : s0.Keeps s) :
    s0.Keeps (State.abortMenus s p e) := by
  unfold State.abortMenus
  try dsimp only
  repeat' (first | (with_reducible first | assumption | apply State_endMenu_keeps | apply keeps_foldl) | with_reducible intro _)

theorem State_sendBulkAck_keeps {s0 : State} (s : State) (b : Bulk) (h0 : s0.Keeps s) :
    s0.Keeps (State.sendBulkAck s b) := by
  unfold State.sendBulkAck
  try dsimp only
  repeat' (first
    | (with_reducible first | assumption | apply keeps_dies | apply keeps_panel)
    | simp only [keeps_mk, die_mk, mem_mk, panel_mk]
    | with_reducible apply And.intro)

theorem State_modBulk_keeps {s0 : State} (s : State) (h' : Nat) (seq : Nat) (f : Bulk → Bulk) (h0 : s0.Keeps s) :
    s0.Keeps (State.modBulk s h' seq f) := by
  unfold State.modBulk
  try dsimp only
  repeat' (first
    | (with_reducible first | assumption | apply State_modPanel_keeps | apply panel_held)
    | simp only [keeps_mk, die_mk, mem_mk, panel_mk])

theorem State_ackDue_keeps {s0 : State} (s : State) (h' : Nat) (seq : Nat) (h0 : s0.Keeps s) :
    s0.Keeps (State.ackDue s h' seq) := by
  unfold State.ackDue
  try dsimp only
  repeat' (first
    | (with_reducible first | assumption | apply State_sendBulkAck_keeps | apply State_modBulk_keeps | apply keeps_ite)
    | with_reducible intro _
    | split)

theorem State_activateOf_keeps {s0 : State} (s : State) (pl : Bytes) (h0 : s0.Keeps s) : s0.Keeps (s.activateOf pl).2 := by
  unfold State.activateOf
  dsimp only
  generalize hcl : (if byteAt pl 1 = 0 then s.panel.clMax else byteAt pl 1) = cl
  split
  · exact h0
  · rename_i hp
    split
    · exact h0
    · split
      · exact h0
      · rename_i hc
        refine ⟨h0.1, fun m => ?_, h0.2.2⟩
        obtain ⟨⟨a, b, c, d, _⟩, f⟩ := h0.2.1 m
        simp only [Bool.or_eq_true, decide_eq_true_eq, not_or, Nat.not_lt] at hp
        have hl : 1 ≤ cl := by
          subst hcl
          split
          · exact Nat.le_trans c d
          · omega
        exact ⟨⟨a, b, hl, Nat.not_lt.mp hc, hp.1.2⟩, f⟩

theorem State_takeSource_keeps {s0 : State} (s : State) (d : Nat) (b : Nat) (c : Nat) (h0 : s0.Keeps s) :
    s0.Keeps (State.takeSource s d b c) := by
  unfold State.takeSource
  try dsimp only
  repeat' (first
    | (with_reducible first | assumption | apply State_modDie_keeps | apply Die_forget_keeps | apply State_modInst_keeps
                            | apply State_abortCause_keeps | apply keeps_ite)
    | with_reducible intro _
    | split)

theorem State_badRank_keeps {s0 : State} (s : State) (d : Nat) (b : Nat) (h0 : s0.Keeps s) :
    s0.Keeps (State.badRank s d b) := by
  unfold State.badRank
  try dsimp only
  repeat' (with_reducible first | assumption | apply State_abortCause_keeps | apply State_raise_keeps)

theorem State_ctlSend_keeps {s0 : State} (s : State) (d : Nat) (b : Nat) (peer : Nat) (kind : Nat) (phase : Nat) (id : ChunkId)
    (attempt : Nat) (payload : List (BitVec 8)) (h0 : s0.Keeps s) :
    s0.Keeps (State.ctlSend s d b peer kind phase id attempt payload) := by
  unfold State.ctlSend
  try dsimp only
  repeat' (first
    | (with_reducible first | assumption | apply State_badRank_keeps | apply State_modDie_keeps | apply Die_ctlRaw_keeps | apply keeps_ite)
    | with_reducible intro _)

theorem State_sendCredit_keeps {s0 : State} (s : State) (d : Nat) (b : Nat) (n : Nat) (id : ChunkId) (h0 : s0.Keeps s) :
    s0.Keeps (State.sendCredit s d b n id) := by
  unfold State.sendCredit
  try dsimp only
  repeat' (with_reducible first | assumption | apply State_ctlSend_keeps | apply State_modInst_keeps)

theorem State_grantCredit_keeps {s0 : State} (s : State) (d : Nat) (b : Nat) (h0 : s0.Keeps s) :
    s0.Keeps (State.grantCredit s d b) := by
  unfold State.grantCredit
  try dsimp only
  repeat' (first | (with_reducible first | assumption | apply State_sendCredit_keeps | apply keeps_foldl) | with_reducible intro _)

theorem State_consumed_keeps {s0 : State} (s : State) (d : Nat) (b : Nat) (id : ChunkId) (h0 : s0.Keeps s) :
    s0.Keeps (State.consumed s d b id) := by
  unfold State.consumed
  try dsimp only
  repeat' (with_reducible first | assumption | apply State_modInst_keeps | apply State_grantCredit_keeps | apply State_sendCredit_keeps)

theorem State_addSums_keeps {s0 : State} (d : Nat) (b : Nat) (c : Nat) (y3 : Nat) (y4 : State) (h0 : s0.Keeps y4) :
    s0.Keeps (State.addSums d b c y3 y4) := by
  induction y3 generalizing y4 with
  | zero =>
    unfold State.addSums
    try dsimp only
    repeat' (with_reducible assumption)
  | succ k ih =>
    unfold State.addSums
    try dsimp only
    repeat' (first
      | (with_reducible first | assumption | apply ih | apply State_takeSource_keeps | apply State_modInst_keeps
                              | apply State_consumed_keeps | apply keeps_ite)
      | with_reducible intro _
      | split)

theorem State_doneCheck_keeps {s0 : State} (s : State) (id : Nat) (h0 : s0.Keeps s) :
    s0.Keeps (State.doneCheck s id) := by
  unfold State.doneCheck
  try dsimp only
  repeat' (first | (with_reducible first | assumption | apply State_endMenu_keeps | apply keeps_ite) | with_reducible intro _ | split)

theorem State_adoptMenus_keeps {s0 : State} (s : State) (h0 : s0.Keeps s) :
    s0.Keeps (State.adoptMenus s) := by
  unfold State.adoptMenus
  try dsimp only
  repeat' (first
    | (with_reducible first | assumption | apply State_endMenu_keeps | apply State_doneCheck_keeps | apply keeps_foldl)
    | with_reducible intro _
    | split)

theorem State_modBay_keeps {s0 : State} (s : State) (b : Nat) (f : Bay → Bay) (h0 : s0.Keeps s) :
    s0.Keeps (State.modBay s b f) := by
  unfold State.modBay
  try dsimp only
  repeat' (first
    | (with_reducible first | assumption | apply keeps_dies | apply keeps_panel | apply panel_held)
    | simp only [keeps_mk, die_mk, mem_mk, panel_mk]
    | with_reducible apply And.intro)

theorem State_modPort_keeps {s0 : State} (s : State) (n : Nat) (f : Port → Port) (h0 : s0.Keeps s) :
    s0.Keeps (State.modPort s n f) := by
  unfold State.modPort
  try dsimp only
  repeat' (first
    | (with_reducible first | assumption | apply keeps_dies | apply keeps_panel | apply panel_held)
    | simp only [keeps_mk, die_mk, mem_mk, panel_mk]
    | with_reducible apply And.intro)

theorem State_modPair_keeps {s0 : State} (s : State) (d : Nat) (p : Nat) (f : Pair → Pair) (h0 : s0.Keeps s) :
    s0.Keeps (State.modPair s d p f) := by
  unfold State.modPair
  try dsimp only
  repeat' (first | (with_reducible first | assumption | apply State_modDie_keeps | apply Die_modPair_keeps) | with_reducible intro _)

theorem State_sendIdle_keeps {s0 : State} (s : State) (d : Nat) (p : Nat) (f : IdleFrame → IdleFrame) (h0 : s0.Keeps s) :
    s0.Keeps (State.sendIdle s d p f) := by
  unfold State.sendIdle
  try dsimp only
  repeat' (first
    | (with_reducible first | assumption | apply State_modPair_keeps | apply keeps_dies | apply keeps_panel)
    | simp only [keeps_mk, die_mk, mem_mk, panel_mk]
    | with_reducible apply And.intro)

theorem State_setLanes_keeps {s0 : State} (s : State) (d : Nat) (p : Nat) (m : Nat) (h0 : s0.Keeps s) :
    s0.Keeps (State.setLanes s d p m) := by
  unfold State.setLanes
  try dsimp only
  repeat' (first
    | (with_reducible first | assumption | apply State_sendIdle_keeps | apply State_modPair_keeps | apply keeps_ite)
    | with_reducible intro _)

theorem State_gatherNotices_keeps {s0 : State} (s : State) (h' : Nat) (k' : Nat) (h0 : s0.Keeps s) :
    s0.Keeps (State.gatherNotices s h' k') := by
  unfold State.gatherNotices
  try dsimp only
  repeat' (first
    | (with_reducible first | assumption | apply Panel_gather_keeps | apply keeps_dies | apply keeps_panel)
    | simp only [keeps_mk, die_mk, mem_mk, panel_mk]
    | with_reducible apply And.intro)

theorem State_noticeTo_keeps {s0 : State} (s : State) (about : Option Nat) (code : Nat) (subject : Nat) (a1 : Nat) (a2 : Nat) (a3 : Nat)
    (h0 : s0.Keeps s) :
    s0.Keeps (State.noticeTo s about code subject a1 a2 a3) := by
  unfold State.noticeTo
  try dsimp only
  repeat' (first
    | (with_reducible first | assumption | apply Panel_queueNotice_keeps | apply Panel_addLog_keeps | apply State_gatherNotices_keeps
                            | apply panel_ite | apply keeps_dies | apply keeps_panel)
    | simp only [keeps_mk, die_mk, mem_mk, panel_mk]
    | with_reducible apply And.intro
    | with_reducible intro _)

theorem State_notice_keeps {s0 : State} (s : State) (code : Nat) (subject : Nat) (a1 : Nat) (a2 : Nat) (a3 : Nat) (h0 : s0.Keeps s) :
    s0.Keeps (State.notice s code subject a1 a2 a3) := by
  unfold State.notice
  try dsimp only
  repeat' (with_reducible first | assumption | apply State_noticeTo_keeps)

theorem State_feedFrom_keeps {s0 : State} (s : State) (port : Nat) (b : Nat) (old : Nat) (h0 : s0.Keeps s) :
    s0.Keeps (State.feedFrom s port b old) := by
  unfold State.feedFrom
  try dsimp only
  repeat' (first
    | (with_reducible first | assumption | apply State_modBay_keeps | apply State_modPort_keeps | apply State_setLanes_keeps
                            | apply State_notice_keeps | apply keeps_ite | apply keeps_foldl)
    | with_reducible intro _
    | split)

theorem State_askPause_keeps {s0 : State} (s : State) (port : Nat) (turn : Nat) (h0 : s0.Keeps s) :
    s0.Keeps (State.askPause s port turn) := by
  unfold State.askPause
  try dsimp only
  repeat' (first
    | (with_reducible first | assumption | apply State_sendIdle_keeps | apply State_modPair_keeps | apply keeps_ite | apply keeps_foldl)
    | with_reducible intro _)

theorem State_beginSwitch_keeps {s0 : State} (s : State) (port : Nat) (b : Nat) (keepOld : Bool) (service : Bool) (h0 : s0.Keeps s) :
    s0.Keeps (State.beginSwitch s port b keepOld service) := by
  unfold State.beginSwitch
  try dsimp only
  repeat' (first
    | (with_reducible first | assumption | apply State_feedFrom_keeps | apply State_askPause_keeps | apply State_modPort_keeps
                            | apply keeps_ite)
    | with_reducible intro _)

theorem State_moveBack_keeps {s0 : State} (s : State) (port : Nat) (h0 : s0.Keeps s) :
    s0.Keeps (State.moveBack s port) := by
  unfold State.moveBack
  try dsimp only
  repeat' (first
    | (with_reducible first | assumption | apply State_feedFrom_keeps | apply State_beginSwitch_keeps | apply keeps_ite)
    | with_reducible intro _
    | split)

theorem State_press_keeps {s0 : State} (s : State) (bay : Nat) (h0 : s0.Keeps s) :
    s0.Keeps (State.press s bay) := by
  unfold State.press
  try dsimp only
  repeat' (first
    | (with_reducible first | assumption | apply State_modBay_keeps | apply State_notice_keeps | apply State_beginSwitch_keeps
                            | apply keeps_ite)
    | with_reducible intro _
    | split)

theorem State_afterSwitch_keeps {s0 : State} (s : State) (port : Nat) (h0 : s0.Keeps s) :
    s0.Keeps (State.afterSwitch s port) := by
  unfold State.afterSwitch
  try dsimp only
  repeat' (first
    | (with_reducible first | assumption | apply State_moveBack_keeps | apply State_press_keeps | apply State_modBay_keeps
                            | apply keeps_ite | apply keeps_foldl)
    | with_reducible intro _)

theorem State_runOff_keeps {s0 : State} (s : State) (d : Nat) (c : Nat) (t : Nat) (h0 : s0.Keeps s) :
    s0.Keeps (State.runOff s d c t) := by
  unfold State.runOff
  try dsimp only
  repeat' (first | (with_reducible first | assumption | apply State_raiseAt_keeps | apply keeps_ite) | with_reducible intro _)

theorem State_traceSeq_keeps {s0 : State} (s : State) (d : Nat) (c : Nat) (t : Nat) (w : BitVec 64) (word : Nat) (h0 : s0.Keeps s) :
    s0.Keeps (State.traceSeq s d c t w word) := by
  unfold State.traceSeq
  try dsimp only
  repeat' (first
    | (with_reducible first | assumption | apply State_fresh_keeps | apply State_modDie_keeps | apply Die_modHalf_keeps | apply keeps_ite)
    | with_reducible intro _)

theorem State_takeWord_keeps {s0 : State} (s : State) (d : Nat) (c : Nat) (t : Nat) (w : BitVec 64) (h0 : s0.Keeps s) :
    s0.Keeps (State.takeWord s d c t w) := by
  unfold State.takeWord
  try dsimp only
  repeat' (first
    | (with_reducible first | assumption | apply State_traceSeq_keeps | apply State_modDie_keeps | apply Die_bump_keeps
                            | apply Die_modSeq_keeps)
    | with_reducible intro _)

theorem State_afterWord_keeps {s0 : State} (s : State) (d : Nat) (c : Nat) (t : Nat) (w : BitVec 64) (act : State → Origin → State)
    (h0 : s0.Keeps s) (h1 : ∀ z0 z1, s0.Keeps z0 → (s0.Keeps (act z0 z1))) :
    s0.Keeps (State.afterWord s d c t w act) := by
  unfold State.afterWord
  try dsimp only
  repeat' (with_reducible first | assumption | apply State_runOff_keeps | apply State_takeWord_keeps | apply h1)

theorem State_panStore_keeps {s0 : State} (s : State) (d : Nat) (a : Nat) (bs : List (BitVec 8)) (h0 : s0.Keeps s) :
    s0.Keeps (State.panStore s d a bs) := by
  unfold State.panStore
  try dsimp only
  repeat' (first | (with_reducible first | assumption | apply State_modDie_keeps | apply Die_panStore_keeps) | with_reducible intro _)

theorem State_submitOpt_keeps {s0 : State} (s : State) (d : Nat) (b : Nat) (h0 : s0.Keeps s) :
    s0.Keeps (State.submitOpt s d b) := by
  unfold State.submitOpt
  try dsimp only
  repeat' (first
    | (with_reducible first | assumption | apply State_panStore_keeps | apply State_modDie_keeps | apply State_modInst_keeps
                            | apply Die_modVec_keeps | apply keeps_ite | apply keeps_foldl)
    | with_reducible intro _
    | split)

theorem State_releaseKids_keeps {s0 : State} (s : State) (d : Nat) (b : Nat) (point : Nat) (h0 : s0.Keeps s) :
    s0.Keeps (State.releaseKids s d b point) := by
  unfold State.releaseKids
  try dsimp only
  repeat' (first | (with_reducible first | assumption | apply State_ctlSend_keeps | apply keeps_foldl) | with_reducible intro _)

theorem State_enterGather_keeps {s0 : State} (s : State) (d : Nat) (b : Nat) (timed : Bool) (h0 : s0.Keeps s) :
    s0.Keeps (State.enterGather s d b timed) := by
  unfold State.enterGather
  try dsimp only
  repeat' (with_reducible first | assumption | apply State_grantCredit_keeps | apply State_modInst_keeps)

theorem State_releaseA_keeps {s0 : State} (s : State) (d : Nat) (b : Nat) (h0 : s0.Keeps s) :
    s0.Keeps (State.releaseA s d b) := by
  unfold State.releaseA
  try dsimp only
  repeat' (with_reducible first | assumption | apply State_submitOpt_keeps | apply State_releaseKids_keeps | apply State_enterGather_keeps)

theorem State_modThread_keeps {s0 : State} (s : State) (d : Nat) (c : Nat) (t : Nat) (f : Thread → Thread) (h0 : s0.Keeps s) :
    s0.Keeps (State.modThread s d c t f) := by
  unfold State.modThread
  try dsimp only
  repeat' (first | (with_reducible first | assumption | apply State_modDie_keeps | apply Die_modSeq_keeps) | with_reducible intro _)

theorem State_countTag_keeps {s0 : State} (s : State) (d : Nat) (o : Origin) (h0 : s0.Keeps s) :
    s0.Keeps (State.countTag s d o) := by
  unfold State.countTag
  try dsimp only
  repeat' (first | (with_reducible first | assumption | apply State_modThread_keeps | apply keeps_ite) | with_reducible intro _)

theorem State_wakeJoins_keeps {s0 : State} (s : State) (d : Nat) (b : Nat) (h0 : s0.Keeps s) :
    s0.Keeps (State.wakeJoins s d b) := by
  unfold State.wakeJoins
  try dsimp only
  repeat' (first
    | (with_reducible first | assumption | apply State_modDie_keeps | apply State_countTag_keeps | apply die_mem | apply keeps_foldl)
    | simp only [keeps_mk, die_mk, mem_mk, panel_mk]
    | with_reducible intro _)

theorem State_complete_keeps {s0 : State} (s : State) (d : Nat) (b : Nat) (h0 : s0.Keeps s) :
    s0.Keeps (State.complete s d b) := by
  unfold State.complete
  try dsimp only
  repeat' (first
    | (with_reducible first | assumption | apply State_leaveContext_keeps | apply State_modInst_keeps | apply State_modDie_keeps
                            | apply State_noticeTo_keeps | apply State_wakeJoins_keeps | apply keeps_ite | apply die_mem)
    | simp only [keeps_mk, die_mk, mem_mk, panel_mk]
    | with_reducible intro _)

theorem State_agree_keeps {s0 : State} (s : State) (d : Nat) (b : Nat) (point : Nat) (h0 : s0.Keeps s) :
    s0.Keeps (State.agree s d b point) := by
  unfold State.agree
  try dsimp only
  repeat' (first
    | (with_reducible first | assumption | apply State_modInst_keeps | apply State_ctlSend_keeps | apply State_releaseA_keeps
                            | apply State_complete_keeps | apply State_releaseKids_keeps | apply keeps_ite)
    | with_reducible intro _
    | split)

theorem State_applyMode_keeps {s0 : State} (s : State) (d : Nat) (c : Nat) (h0 : s0.Keeps s) :
    s0.Keeps (State.applyMode s d c) := by
  unfold State.applyMode
  try dsimp only
  repeat' (first
    | (with_reducible first | assumption | apply State_runOff_keeps | apply State_countTag_keeps | apply State_modThread_keeps
                            | apply State_modDie_keeps | apply Die_modGang_keeps)
    | with_reducible intro _
    | split)

theorem State_reject_keeps {s0 : State} (s : State) (g : GwHeader) (code : Nat) (h0 : s0.Keeps s) :
    s0.Keeps (State.reject s g code) := by
  unfold State.reject
  try dsimp only
  repeat' (first
    | (with_reducible first | assumption | apply State_reply_keeps | apply State_modPanel_keeps | apply panel_held)
    | simp only [keeps_mk, die_mk, mem_mk, panel_mk])

theorem State_arrive_keeps {s0 : State} (s : State) (dg : List (BitVec 8)) (types : Nat → Bool) (f : State → GwHeader → Bytes → State)
    (h0 : s0.Keeps s) (h1 : ∀ z0 z1 z2, s0.Keeps z0 → (s0.Keeps (f z0 z1 z2))) :
    s0.Keeps (State.arrive s dg types f) := by
  unfold State.arrive
  try dsimp only
  repeat' (first
    | (with_reducible first | assumption | apply State_modPanel_keeps | apply State_reject_keeps | apply keeps_ite | apply panel_held
                            | apply h1)
    | simp only [keeps_mk, die_mk, mem_mk, panel_mk]
    | with_reducible intro _)

theorem State_reqDone_keeps {s0 : State} (s : State) (d : Nat) (r : Req) (h0 : s0.Keeps s) :
    s0.Keeps (State.reqDone s d r) := by
  unfold State.reqDone
  try dsimp only
  repeat' (first
    | (with_reducible first | assumption | apply State_modDie_keeps | apply Die_dropReq_keeps | apply Die_modChan_keeps
                            | apply State_countTag_keeps | apply State_runOff_keeps | apply State_modThread_keeps | apply keeps_ite)
    | with_reducible intro _
    | split)

theorem State_ladleFault_keeps {s0 : State} (s : State) (d : Nat) (o : Origin) (addr : Nat) (code : Nat) (h0 : s0.Keeps s) :
    s0.Keeps (State.ladleFault s d o addr code) := by
  unfold State.ladleFault
  try dsimp only
  repeat' (first
    | (with_reducible first | assumption | apply State_modDie_keeps | apply State_raise_keeps | apply die_mem)
    | simp only [keeps_mk, die_mk, mem_mk, panel_mk])

theorem State_stopDesc_keeps {s0 : State} (s : State) (d : Nat) (ch : Nat) (key : Nat) (o : Origin) (addr : Nat) (code : Nat)
    (h0 : s0.Keeps s) :
    s0.Keeps (State.stopDesc s d ch key o addr code) := by
  unfold State.stopDesc
  try dsimp only
  repeat' (first
    | (with_reducible first | assumption | apply State_modDie_keeps | apply Die_dropUnsent_keeps | apply State_ladleFault_keeps
                            | apply State_raise_keeps | apply keeps_ite)
    | with_reducible intro _)

theorem State_deliver_keeps {s0 : State} (s : State) (d : Nat) (ch : Nat) (key : Nat) (o : Origin) (runs : List (List (Nat × Bytes)))
    (bad : Option (Nat × Nat)) (h0 : s0.Keeps s) :
    s0.Keeps (State.deliver s d ch key o runs bad) := by
  unfold State.deliver
  try dsimp only
  repeat' (first
    | (with_reducible first | assumption | apply Die_writeRuns_keeps | apply Die_modChan_keeps | apply Die_bumpBoth_keeps
                            | apply State_setDie_keeps | apply State_stopDesc_keeps | apply keeps_die)
    | split)

theorem State_handPieces_keeps {s0 : State} (s : State) (d : Nat) (ch : Nat) (key : Nat) (o : Origin) (td : Side) (runs : List (List
    (Nat × Bytes))) (bad : Option (Nat × Nat)) (h0 : s0.Keeps s) :
    s0.Keeps (State.handPieces s d ch key o td runs bad) := by
  unfold State.handPieces
  try dsimp only
  repeat' (first
    | (with_reducible first | assumption | apply State_deliver_keeps | apply Die_modChan_keeps | apply Die_bumpBoth_keeps
                            | apply Die_addReqs_keeps | apply State_setDie_keeps | apply State_stopDesc_keeps | apply keeps_ite
                            | apply keeps_die)
    | with_reducible intro _
    | split)

theorem State_writeRemoteCopy_keeps {s0 : State} (s : State) (d : Nat) (ch : Nat) (a : LdlActive) (h0 : s0.Keeps s) :
    s0.Keeps (State.writeRemoteCopy s d ch a) := by
  unfold State.writeRemoteCopy
  try dsimp only
  repeat' (first
    | (with_reducible first | assumption | apply State_handPieces_keeps | apply State_modDie_keeps | apply Die_modChan_keeps)
    | with_reducible intro _)

theorem State_blockCame_keeps {s0 : State} (s : State) (d : Nat) (r : Req) (bs : List (BitVec 8)) (h0 : s0.Keeps s) :
    s0.Keeps (State.blockCame s d r bs) := by
  unfold State.blockCame
  try dsimp only
  repeat' (first
    | (with_reducible first | assumption | apply State_reqDone_keeps | apply State_modDie_keeps | apply Die_bump_keeps
                            | apply State_writeRemoteCopy_keeps | apply Die_modChan_keeps | apply Die_addReqs_keeps
                            | apply State_stopDesc_keeps | apply keeps_ite | apply die_ite | apply die_mem)
    | simp only [keeps_mk, die_mk, mem_mk, panel_mk]
    | with_reducible intro _
    | split)

theorem State_modHearth_keeps {s0 : State} (s : State) (k' : Nat) (f : Hearth → Hearth) (h0 : s0.Keeps s) :
    s0.Keeps (State.modHearth s k' f) := by
  unfold State.modHearth
  try dsimp only
  repeat' (first
    | (with_reducible first | assumption | apply State_modPanel_keeps | apply panel_held)
    | simp only [keeps_mk, die_mk, mem_mk, panel_mk])

/-- What the serving hearth holds is legal, so a copy of it is. -/
theorem mramOf_legal {s0 s : State} (h0 : s0.Keeps s) (k : s0.panel.HeldOk) :
    HeldLegal s.panel.clMax s.mramOf.powerLimit s.mramOf.clSet s.mramOf.bootSlot := (h0.2.1 k).1

theorem State_mramStops_keeps {s0 : State} (s : State) (k' : Nat) (h0 : s0.Keeps s) : s0.Keeps (s.mramStops k') := by
  unfold State.mramStops
  split
  · exact h0
  · refine keeps_mrams h0 fun k e he => ?_
    rcases Tab.mem_put _ _ _ he with h | h
    · rw [h]; exact mramOf_legal h0 k
    · exact (h0.2.1 k).2 e h

theorem State_fromMram_keeps {s0 : State} (s : State) (m : Mram) (h0 : s0.Keeps s)
    (hm : s0.panel.HeldOk → HeldLegal s.panel.clMax m.powerLimit m.clSet m.bootSlot) : s0.Keeps (s.fromMram m) := by
  refine ⟨h0.1, panel_foldl (f := fun p h => p.linkCells (16 + h) 0 (p.hatch h).notices.length) ?_
    fun t a ht => Panel_linkCells_keeps _ _ _ _ ht⟩
  exact ⟨fun k => ⟨hm k, (h0.2.1 k).2⟩, h0.2.2⟩

theorem State_journalCopy_keeps {s0 : State} (s : State) (both : Bool) (h0 : s0.Keeps s) : s0.Keeps (s.journalCopy both) := by
  have hn : s0.Keeps (s.modPanel (fun p => { p with mrams := [] })) :=
    keeps_mrams h0 fun _ e he => nomatch he
  unfold State.journalCopy
  dsimp only
  split
  · exact h0
  · split
    · split
      · exact State_mramStops_keeps _ _ hn
      · exact hn
    · split
      · rename_i m hf
        obtain ⟨x, hx, rfl⟩ := Tab.mem_of_find _ _ hf
        have hm := State_fromMram_keeps s x.2 h0 (fun k => (h0.2.1 k).2 x hx)
        refine keeps_mrams hm fun k e he => ?_
        rw [List.mem_singleton.mp he]
        have e : (s.fromMram x.2).panel.clMax = s.panel.clMax := by
          have a := hm.2.2
          have b := h0.2.2
          simp only [Panel.fuses, Prod.mk.injEq] at a b
          rw [a.2.2.1, b.2.2.1]
        rw [e]
        exact mramOf_legal h0 k
      · exact State_mramStops_keeps _ _ h0

theorem State_bootRoles_keeps {s0 : State} (s : State) (ok0 : Bool) (ok1 : Bool) (h0 : s0.Keeps s) :
    s0.Keeps (State.bootRoles s ok0 ok1) := by
  unfold State.bootRoles
  try dsimp only
  repeat' (first
    | (with_reducible first | assumption | apply State_modHearth_keeps | apply State_notice_keeps | apply State_modPanel_keeps
                            | apply State_journalCopy_keeps | apply keeps_ite | apply panel_held)
    | simp only [keeps_mk, die_mk, mem_mk, panel_mk]
    | with_reducible intro _
    | split)

theorem State_hearthRead_keeps {s0 : State} (s : State) (d : Nat) (a : Nat) (n : Nat) (h0 : s0.Keeps s) :
    s0.Keeps (State.hearthRead s d a n).1 := by
  unfold State.hearthRead
  try dsimp only
  repeat' (first
    | (with_reducible first | assumption | apply MemUnit_panScan_keeps | apply State_setDie_keeps | apply State_modDie_keeps
                            | apply MemUnit_forget_keeps | apply keeps_ite_fst | apply keeps_die | apply die_mem)
    | simp only [keeps_mk, die_mk, mem_mk, panel_mk]
    | with_reducible intro _
    | split)

theorem State_sendPage_keeps {s0 : State} (s : State) (b : Bulk) (k' : Nat) (h0 : s0.Keeps s) :
    s0.Keeps (State.sendPage s b k').1 := by
  unfold State.sendPage
  try dsimp only
  repeat' (first
    | (with_reducible first | assumption | apply State_hearthRead_keeps | apply keeps_dies | apply keeps_panel)
    | simp only [keeps_mk, die_mk, mem_mk, panel_mk]
    | with_reducible apply And.intro
    | split
    | with_reducible refine keeps_of_fst (by with_reducible assumption) ?_)

theorem State_sendPages_keeps {s0 : State} (h' : Nat) (seq : Nat) (y2 : Nat) (y3 : State) (h0 : s0.Keeps y3) :
    s0.Keeps (State.sendPages h' seq y2 y3).1 := by
  induction y2 generalizing y3 with
  | zero =>
    unfold State.sendPages
    try dsimp only
    repeat' (with_reducible assumption)
  | succ k ih =>
    unfold State.sendPages
    try dsimp only
    repeat' (first
      | (with_reducible first | assumption | apply ih | apply State_sendPage_keeps | apply State_modBulk_keeps | apply keeps_ite_fst)
      | simp only [keeps_mk, die_mk, mem_mk, panel_mk]
      | with_reducible intro _
      | split
      | with_reducible refine keeps_of_fst (by with_reducible assumption) ?_)

theorem State_stampHatch_keeps {s0 : State} (s : State) (h' : Nat) (seq : Nat) (h0 : s0.Keeps s) :
    s0.Keeps (State.stampHatch s h' seq) := by
  unfold State.stampHatch
  try dsimp only
  repeat' (first | (with_reducible first | assumption | apply State_modPanel_keeps | apply Panel_modHatch_keeps) | with_reducible intro _)

theorem State_dropBulk_keeps {s0 : State} (s : State) (h' : Nat) (seq : Nat) (code : Nat) (h0 : s0.Keeps s) :
    s0.Keeps (State.dropBulk s h' seq code) := by
  unfold State.dropBulk
  try dsimp only
  repeat' (first
    | (with_reducible first | assumption | apply State_stampHatch_keeps | apply State_finishEntry_keeps | apply State_modPanel_keeps
                            | apply keeps_ite | apply panel_held)
    | simp only [keeps_mk, die_mk, mem_mk, panel_mk]
    | with_reducible intro _)

theorem State_startBulks_keeps {s0 : State} (y0 : Nat) (y1 : State) (h0 : s0.Keeps y1) :
    s0.Keeps (State.startBulks y0 y1) := by
  induction y0 generalizing y1 with
  | zero =>
    unfold State.startBulks
    try dsimp only
    repeat' (with_reducible assumption)
  | succ k ih =>
    unfold State.startBulks
    try dsimp only
    repeat' (first
      | (with_reducible first | assumption | apply ih | apply State_sendBulkAck_keeps | apply State_modBulk_keeps
                              | apply State_sendPages_keeps | apply State_dropBulk_keeps | apply keeps_ite)
      | with_reducible intro _
      | split
      | with_reducible refine keeps_of_fst (by with_reducible assumption) ?_)

theorem State_bulksGo_keeps {s0 : State} (s : State) (h0 : s0.Keeps s) :
    s0.Keeps (State.bulksGo s) := by
  unfold State.bulksGo
  try dsimp only
  repeat' (with_reducible first | assumption | apply State_startBulks_keeps)

theorem State_endBulk_keeps {s0 : State} (s : State) (h' : Nat) (seq : Nat) (code : Nat) (h0 : s0.Keeps s) :
    s0.Keeps (State.endBulk s h' seq code) := by
  unfold State.endBulk
  try dsimp only
  repeat' (with_reducible first | assumption | apply State_bulksGo_keeps | apply State_dropBulk_keeps)

theorem State_resend_keeps {s0 : State} (b : Bulk) (y1 : List Nat) (y2 : State) (h0 : s0.Keeps y2) :
    s0.Keeps (State.resend b y1 y2).1 := by
  induction y1 generalizing y2 with
  | nil =>
    unfold State.resend
    try dsimp only
    repeat' (with_reducible assumption)
  | cons a l ih =>
    unfold State.resend
    try dsimp only
    repeat' (first
      | (with_reducible first | assumption | apply ih | apply State_sendPage_keeps)
      | split
      | with_reducible refine keeps_of_fst (by with_reducible assumption) ?_)

theorem State_bulkAcked_keeps {s0 : State} (s : State) (b : Bulk) (first : Nat) (pl : List (BitVec 8)) (h0 : s0.Keeps s) :
    s0.Keeps (State.bulkAcked s b first pl) := by
  unfold State.bulkAcked
  try dsimp only
  repeat' (first
    | (with_reducible first | assumption | apply State_modBulk_keeps | apply State_endBulk_keeps | apply State_resend_keeps
                            | apply State_sendPages_keeps | apply keeps_ite)
    | with_reducible intro _
    | split
    | with_reducible refine keeps_of_fst (by with_reducible assumption) ?_)

theorem State_bulkStart_keeps {s0 : State} (s : State) (h' : Nat) (op : Nat) (kind : BulkKind) (h0 : s0.Keeps s) :
    s0.Keeps (State.bulkStart s h' op kind) := by
  unfold State.bulkStart
  try dsimp only
  repeat' (first
    | (with_reducible first | assumption | apply State_bulksGo_keeps | apply State_finishEntry_keeps | apply State_modPanel_keeps
                            | apply keeps_ite | apply panel_held)
    | simp only [keeps_mk, die_mk, mem_mk, panel_mk]
    | with_reducible intro _
    | split)

theorem State_checked_keeps {s0 : State} (s : State) (d : Nat) (o : Origin) (l : List (Bool × Nat)) (k' : State) (h0 : s0.Keeps s)
    (h1 : s0.Keeps (k')) :
    s0.Keeps (State.checked s d o l k') := by
  unfold State.checked
  try dsimp only
  repeat' (first | (with_reducible first | assumption | apply State_raise_keeps) | split)

end Sys2Proof.Machine
end

