-- ==== Sys2Proof/Laws/KeepsOps3.lean ====
section
/-! SUPPORT. The named operations (part 3) keep what `Sys2Proof.Laws.Keeps` names: the cells of every kiln stay canonical, what the hearths hold stays legal, and
the fuses are as they were. One lemma per operation, by the lemmas of what it calls. -/

open Sys2Proof

namespace Sys2Proof.Machine

set_option linter.unusedVariables false
set_option linter.unusedSimpArgs false

theorem State_chunkFailed_keeps {s0 : State} (s : State) (d : Nat) (b : Nat) (r : RxChunk) (h0 : s0.Keeps s) :
    s0.Keeps (State.chunkFailed s d b r) := by
  unfold State.chunkFailed
  try dsimp only
  repeat' (first
    | (with_reducible first | assumption | apply State_abortCause_keeps | apply State_modInst_keeps | apply State_ctlSend_keeps
                            | apply State_modDie_keeps | apply keeps_ite | apply die_mem)
    | simp only [keeps_mk, die_mk, mem_mk, panel_mk]
    | with_reducible intro _)

theorem State_whiskWrite_keeps {s0 : State} (s : State) (d : Nat) (b : Nat) (c : Nat) (bs : List (BitVec 8)) (h0 : s0.Keeps s) :
    s0.Keeps (State.whiskWrite s d b c bs) := by
  unfold State.whiskWrite
  try dsimp only
  repeat' (first
    | (with_reducible first | assumption | apply State_modInst_keeps | apply State_panStore_keeps | apply State_modDie_keeps
                            | apply MemUnit_kilnPush_keeps | apply keeps_ite | apply die_mem | apply mem_foldl)
    | simp only [keeps_mk, die_mk, mem_mk, panel_mk]
    | with_reducible intro _)

theorem State_finishSum_keeps {s0 : State} (s : State) (d : Nat) (b : Nat) (c : Nat) (h0 : s0.Keeps s) :
    s0.Keeps (State.finishSum s d b c) := by
  unfold State.finishSum
  try dsimp only
  repeat' (first
    | (with_reducible first | assumption | apply State_modInst_keeps | apply State_whiskWrite_keeps | apply keeps_ite)
    | with_reducible intro _)

theorem State_progress_keeps {s0 : State} (d : Nat) (b : Nat) (y2 : Nat) (y3 : State) (h0 : s0.Keeps y3) :
    s0.Keeps (State.progress d b y2 y3) := by
  induction y2 generalizing y3 with
  | zero =>
    unfold State.progress
    try dsimp only
    repeat' (with_reducible assumption)
  | succ k ih =>
    unfold State.progress
    try dsimp only
    repeat' (first
      | (with_reducible first | assumption | apply ih | apply State_agree_keeps | apply State_enterGather_keeps | apply keeps_ite)
      | with_reducible intro _)

theorem State_chunkMoved_keeps {s0 : State} (s : State) (d : Nat) (b : Nat) (c : Nat) (h0 : s0.Keeps s) :
    s0.Keeps (State.chunkMoved s d b c) := by
  unfold State.chunkMoved
  try dsimp only
  repeat' (with_reducible first | assumption | apply State_finishSum_keeps | apply State_addSums_keeps | apply State_progress_keeps
                                | apply State_wakeJoins_keeps | apply State_submitOpt_keeps)

theorem State_chunkVerified_keeps {s0 : State} (s : State) (d : Nat) (b : Nat) (r : RxChunk) (h0 : s0.Keeps s) :
    s0.Keeps (State.chunkVerified s d b r) := by
  unfold State.chunkVerified
  try dsimp only
  repeat' (first
    | (with_reducible first | assumption | apply State_ctlSend_keeps | apply State_modInst_keeps | apply State_chunkMoved_keeps
                            | apply State_whiskWrite_keeps | apply State_progress_keeps | apply State_wakeJoins_keeps
                            | apply State_consumed_keeps | apply keeps_ite)
    | with_reducible intro _)

theorem State_interruptMenu_keeps {s0 : State} (s : State) (id : Nat) (h0 : s0.Keeps s) :
    s0.Keeps (State.interruptMenu s id) := by
  unfold State.interruptMenu
  try dsimp only
  repeat' (first
    | (with_reducible first | assumption | apply State_endAtDie_keeps | apply State_modMenu_keeps | apply State_modEntry_keeps
                            | apply State_modPanel_keeps | apply Panel_addLog_keeps | apply keeps_ite | apply keeps_foldl)
    | with_reducible intro _
    | split)

theorem State_interruptMenus_keeps {s0 : State} (s : State) (h0 : s0.Keeps s) :
    s0.Keeps (State.interruptMenus s) := by
  unfold State.interruptMenus
  try dsimp only
  repeat' (with_reducible first | assumption | apply State_interruptMenu_keeps | apply keeps_foldl)

theorem State_cold_keeps {s0 : State} (s : State) (h0 : s0.Keeps s) : s0.Keeps s.cold := by
  have h1 := State_interruptMenus_keeps s h0
  unfold State.cold
  dsimp only
  simp only [keeps_mk, panel_mk]
  refine ⟨?_, fun k => ⟨(h1.2.1 k).1, fun e he => ?_⟩, h1.2.2⟩
  · exact dies_mapVal diesOk_default fun d x h => h
  · obtain ⟨x, hx, rfl⟩ := Tab.mem_mapVal _ _ he
    exact (h1.2.1 k).2 x hx

theorem State_done_keeps {s0 : State} (s : State) (code : Nat) (h0 : s0.Keeps s) :
    s0.Keeps (State.done s code).1 := by
  unfold State.done
  try dsimp only
  repeat' (with_reducible assumption)

theorem State_collPlanDelete_keeps {s0 : State} (s : State) (pl : List (BitVec 8)) (h0 : s0.Keeps s) :
    s0.Keeps (State.collPlanDelete s pl).1 := by
  unfold State.collPlanDelete
  try dsimp only
  repeat' (first
    | (with_reducible first | assumption | apply State_done_keeps | apply State_modPanel_keeps | apply keeps_ite_fst | apply panel_held)
    | simp only [keeps_mk, die_mk, mem_mk, panel_mk]
    | with_reducible intro _)

theorem State_collPlanPut_keeps {s0 : State} (s : State) (pl : List (BitVec 8)) (h0 : s0.Keeps s) :
    s0.Keeps (State.collPlanPut s pl).1 := by
  unfold State.collPlanPut
  try dsimp only
  repeat' (first
    | (with_reducible first | assumption | apply State_done_keeps | apply State_modPanel_keeps | apply keeps_ite_fst | apply panel_held)
    | simp only [keeps_mk, die_mk, mem_mk, panel_mk]
    | with_reducible intro _)

theorem badLayout_keeps {s0 : State} (s : State) (h0 : s0.Keeps s) :
    s0.Keeps (@badLayout s).1 := by
  unfold badLayout
  try dsimp only
  repeat' (with_reducible assumption)

theorem State_statusRegs_keeps {s0 : State} (y0 : List Nat) (y1 : State) (h0 : s0.Keeps y1) :
    s0.Keeps (State.statusRegs y0 y1).2.2 := by
  induction y0 generalizing y1 with
  | nil =>
    unfold State.statusRegs
    try dsimp only
    repeat' (with_reducible assumption)
  | cons a l ih =>
    unfold State.statusRegs
    try dsimp only
    repeat' (first
      | (with_reducible first | assumption | apply ih | apply State_modPanel_keeps | apply Panel_clearGw_keeps | apply keeps_ite)
      | with_reducible intro _)

theorem State_readStatus_keeps {s0 : State} (s : State) (pl : List (BitVec 8)) (h0 : s0.Keeps s) :
    s0.Keeps (State.readStatus s pl).1 := by
  unfold State.readStatus
  try dsimp only
  repeat' (first
    | (with_reducible first | assumption | apply badLayout_keeps | apply State_statusRegs_keeps | apply keeps_ite_fst)
    | simp only [keeps_mk, die_mk, mem_mk, panel_mk]
    | with_reducible intro _)

theorem State_readSiteMap_keeps {s0 : State} (s : State) (pl : List (BitVec 8)) (h0 : s0.Keeps s) :
    s0.Keeps (State.readSiteMap s pl).1 := by
  unfold State.readSiteMap
  try dsimp only
  repeat' (first
    | (with_reducible first | assumption | apply badLayout_keeps | apply keeps_ite_fst)
    | simp only [keeps_mk, die_mk, mem_mk, panel_mk]
    | with_reducible intro _)

theorem State_readFabric_keeps {s0 : State} (s : State) (pl : List (BitVec 8)) (h0 : s0.Keeps s) :
    s0.Keeps (State.readFabric s pl).1 := by
  unfold State.readFabric
  try dsimp only
  repeat' (first
    | (with_reducible first | assumption | apply badLayout_keeps | apply keeps_ite_fst)
    | simp only [keeps_mk, die_mk, mem_mk, panel_mk]
    | with_reducible intro _)

theorem State_readHatch_keeps {s0 : State} (s : State) (pl : List (BitVec 8)) (h0 : s0.Keeps s) :
    s0.Keeps (State.readHatch s pl).1 := by
  unfold State.readHatch
  try dsimp only
  repeat' (first
    | (with_reducible first | assumption | apply badLayout_keeps | apply keeps_ite_fst)
    | simp only [keeps_mk, die_mk, mem_mk, panel_mk]
    | with_reducible intro _)

theorem State_readAttest_keeps {s0 : State} (s : State) (pl : List (BitVec 8)) (h0 : s0.Keeps s) :
    s0.Keeps (State.readAttest s pl).1 := by
  unfold State.readAttest
  try dsimp only
  repeat' (first
    | (with_reducible first | assumption | apply badLayout_keeps | apply keeps_ite_fst)
    | simp only [keeps_mk, die_mk, mem_mk, panel_mk]
    | with_reducible intro _)

theorem State_settle_keeps {s0 : State} (s : State) (d : Nat) (h0 : s0.Keeps s) :
    s0.Keeps (State.settle s d) := by
  unfold State.settle
  try dsimp only
  repeat' (first
    | (with_reducible first | assumption | apply State_modDie_keeps | apply State_fresh_keeps | apply keeps_ite | apply die_mem
                            | apply keeps_foldl)
    | simp only [keeps_mk, die_mk, mem_mk, panel_mk]
    | with_reducible intro _)

theorem State_readReg_keeps {s0 : State} (s : State) (d : Nat) (r : Nat) (h0 : s0.Keeps s) :
    s0.Keeps (State.readReg s d r).2 := by
  unfold State.readReg
  try dsimp only
  repeat' (first
    | (with_reducible first | assumption | apply State_settle_keeps | apply State_fresh_keeps | apply State_modDie_keeps
                            | apply Die_afterRead_keeps | apply keeps_ite)
    | with_reducible intro _)

theorem State_readRegs_keeps {s0 : State} (d : Nat) (y1 : Nat) (y2 : Nat) (y3 : State) (h0 : s0.Keeps y3) :
    s0.Keeps (State.readRegs d y1 y2 y3).2 := by
  induction y1 generalizing y2 y3 with
  | zero =>
    unfold State.readRegs
    try dsimp only
    repeat' (with_reducible assumption)
  | succ k ih =>
    unfold State.readRegs
    try dsimp only
    repeat' (with_reducible first | assumption | apply ih | apply State_readReg_keeps)

theorem State_readDie_keeps {s0 : State} (s : State) (pl : List (BitVec 8)) (h0 : s0.Keeps s) :
    s0.Keeps (State.readDie s pl).1 := by
  unfold State.readDie
  try dsimp only
  repeat' (first
    | (with_reducible first | assumption | apply badLayout_keeps | apply State_readRegs_keeps | apply keeps_ite_fst)
    | simp only [keeps_mk, die_mk, mem_mk, panel_mk]
    | with_reducible intro _
    | split)

theorem State_readBy_keeps {s0 : State} (s : State) (op : Nat) (pl : List (BitVec 8)) (h0 : s0.Keeps s) :
    s0.Keeps (State.readBy s op pl).1 := by
  unfold State.readBy
  try dsimp only
  repeat' (first
    | (with_reducible first | assumption | apply State_readStatus_keeps | apply State_readSiteMap_keeps | apply State_readFabric_keeps
                            | apply State_readHatch_keeps | apply State_readAttest_keeps | apply State_readDie_keeps)
    | split)

theorem State_doRead_keeps {s0 : State} (s : State) (h' : Nat) (op : Nat) (pl : List (BitVec 8)) (h0 : s0.Keeps s) :
    s0.Keeps (State.doRead s h' op pl) := by
  unfold State.doRead
  try dsimp only
  repeat' (first
    | (with_reducible first | assumption | apply State_readBy_keeps | apply State_reply_keeps | apply keeps_ite)
    | with_reducible intro _)

theorem State_setRecord_keeps {s0 : State} (s : State) (h' : Nat) (f : LifeRec → LifeRec) (h0 : s0.Keeps s) :
    s0.Keeps (State.setRecord s h' f) := by
  unfold State.setRecord
  try dsimp only
  repeat' (first | (with_reducible first | assumption | apply State_modPanel_keeps | apply Panel_modHatch_keeps) | with_reducible intro _)

theorem State_finishRecord_keeps {s0 : State} (s : State) (h' : Nat) (seq : Nat) (op : Nat) (r : Recorded) (h0 : s0.Keeps s)
    (h1 : ∀ t, s0.Keeps t → s0.Keeps (Recorded.act r t)) :
    s0.Keeps (State.finishRecord s h' seq op r) := by
  unfold State.finishRecord
  try dsimp only
  repeat' (first
    | (with_reducible first | assumption | apply State_setRecord_keeps | apply State_reply_keeps | apply State_modPanel_keeps
                            | apply Panel_modHatch_keeps | apply keeps_ite | apply h1)
    | with_reducible intro _)

theorem State_runRecord_keeps {s0 : State} (s : State) (h' : Nat) (op : Nat) (pl : List (BitVec 8)) (r : State → Recorded)
    (h0 : s0.Keeps s) (h1 : ∀ z0, s0.Keeps z0 → (∀ t, s0.Keeps t → s0.Keeps (Recorded.act (r z0) t))) :
    s0.Keeps (State.runRecord s h' op pl r) := by
  unfold State.runRecord
  try dsimp only
  repeat' (first
    | (with_reducible first | assumption | apply State_modPanel_keeps | apply Panel_modHatch_keeps | apply State_finishRecord_keeps
                            | apply h1)
    | with_reducible intro _)

theorem State_inOrder_keeps {s0 : State} (s : State) (g : GwHeader) (pl : List (BitVec 8)) (r : State → Recorded) (h0 : s0.Keeps s)
    (h1 : ∀ z0, s0.Keeps z0 → (∀ t, s0.Keeps t → s0.Keeps (Recorded.act (r z0) t))) :
    s0.Keeps (State.inOrder s g pl r) := by
  unfold State.inOrder
  try dsimp only
  repeat' (first
    | (with_reducible first | assumption | apply State_runRecord_keeps | apply State_reply_keeps | apply State_reject_keeps
                            | apply keeps_ite)
    | with_reducible intro _
    | split)

theorem State_facePair_keeps {s0 : State} (s : State) (port : Nat) (q : Nat × Nat) (h0 : s0.Keeps s) :
    s0.Keeps (State.facePair s port q) := by
  unfold State.facePair
  try dsimp only
  repeat' (first
    | (with_reducible first | assumption | apply State_modPair_keeps | apply State_notice_keeps | apply keeps_ite)
    | with_reducible intro _)

theorem State_facePort_keeps {s0 : State} (s : State) (port : Nat) (h0 : s0.Keeps s) :
    s0.Keeps (State.facePort s port) := by
  unfold State.facePort
  try dsimp only
  repeat' (first
    | (with_reducible first | assumption | apply State_modPort_keeps | apply State_modPair_keeps | apply State_notice_keeps
                            | apply State_facePair_keeps | apply keeps_ite | apply keeps_foldl)
    | with_reducible intro _
    | split)

theorem State_derive_keeps {s0 : State} (s : State) (h0 : s0.Keeps s) :
    s0.Keeps (State.derive s) := by
  unfold State.derive
  try dsimp only
  repeat' (first
    | (with_reducible first | assumption | apply State_modPort_keeps | apply State_notice_keeps | apply keeps_ite | apply keeps_dies
                            | apply keeps_panel | apply panel_held | apply keeps_foldl)
    | simp only [keeps_mk, die_mk, mem_mk, panel_mk]
    | with_reducible apply And.intro
    | with_reducible intro _
    | split)

theorem State_neighbourNotice_keeps {s0 : State} (s : State) (port : Nat) (h0 : s0.Keeps s) :
    s0.Keeps (State.neighbourNotice s port) := by
  unfold State.neighbourNotice
  try dsimp only
  repeat' (first
    | (with_reducible first | assumption | apply State_notice_keeps | apply State_modPort_keeps | apply keeps_ite)
    | with_reducible intro _)

theorem State_onActive_keeps {s0 : State} (s : State) (f : Die → Die) (h0 : s0.Keeps s) (h1 : ∀ z0, Die.Ok s0 z0 → (Die.Ok s0 (f z0))) :
    s0.Keeps (State.onActive s f) := by
  unfold State.onActive
  try dsimp only
  repeat' (first | (with_reducible first | assumption | apply State_modDie_keeps | apply keeps_foldl) | with_reducible intro _)

theorem State_topology_keeps {s0 : State} (s : State) (h0 : s0.Keeps s) :
    s0.Keeps (State.topology s) := by
  unfold State.topology
  try dsimp only
  repeat' (first
    | (with_reducible first | assumption | apply State_onActive_keeps | apply keeps_dies | apply keeps_panel | apply die_mem
                            | apply panel_held)
    | simp only [keeps_mk, die_mk, mem_mk, panel_mk]
    | with_reducible apply And.intro)

theorem State_settlePorts_keeps {s0 : State} (s0' : State) (s : State) (hello : Bool) (h0 : s0.Keeps (s0')) (h1 : s0.Keeps s) :
    s0.Keeps (State.settlePorts s0' s hello) := by
  unfold State.settlePorts
  try dsimp only
  repeat' (first
    | (with_reducible first | assumption | apply State_facePort_keeps | apply State_derive_keeps | apply State_modPort_keeps
                            | apply State_neighbourNotice_keeps | apply State_topology_keeps | apply keeps_ite | apply keeps_foldl)
    | with_reducible intro _)

theorem State_presenceChanged_keeps {s0 : State} (s0' : State) (s : State) (h0 : s0.Keeps (s0')) (h1 : s0.Keeps s) :
    s0.Keeps (State.presenceChanged s0' s) := by
  unfold State.presenceChanged
  try dsimp only
  repeat' (with_reducible first | assumption | apply State_settlePorts_keeps)

theorem State_endSwitch_keeps {s0 : State} (s : State) (port : Nat) (h0 : s0.Keeps s) :
    s0.Keeps (State.endSwitch s port) := by
  unfold State.endSwitch
  try dsimp only
  repeat' (first
    | (with_reducible first | assumption | apply State_modPair_keeps | apply State_modPort_keeps | apply keeps_foldl)
    | with_reducible intro _)

theorem State_portDown_keeps {s0 : State} (s : State) (port : Nat) (state : Nat) (held : Bool) (h0 : s0.Keeps s) :
    s0.Keeps (State.portDown s port state held) := by
  unfold State.portDown
  try dsimp only
  repeat' (first
    | (with_reducible first | assumption | apply State_modPort_keeps | apply State_modPair_keeps | apply State_presenceChanged_keeps
                            | apply State_afterSwitch_keeps | apply State_endSwitch_keeps | apply keeps_foldl)
    | with_reducible intro _)

theorem State_lasersOff_keeps {s0 : State} (s : State) (h0 : s0.Keeps s) :
    s0.Keeps (State.lasersOff s) := by
  unfold State.lasersOff
  try dsimp only
  repeat' (first
    | (with_reducible first | assumption | apply State_modPanel_keeps | apply State_modBay_keeps | apply State_portDown_keeps
                            | apply State_modPort_keeps | apply panel_held | apply keeps_foldl)
    | simp only [keeps_mk, die_mk, mem_mk, panel_mk]
    | with_reducible intro _)

theorem State_katAdvance_keeps {s0 : State} (s : State) (h0 : s0.Keeps s) :
    s0.Keeps (State.katAdvance s) := by
  unfold State.katAdvance
  try dsimp only
  repeat' (first
    | (with_reducible first | assumption | apply State_modPanel_keeps | apply State_finishEntry_keeps | apply keeps_ite | apply panel_held)
    | simp only [keeps_mk, die_mk, mem_mk, panel_mk]
    | with_reducible intro _
    | split)

theorem State_katLost_keeps {s0 : State} (s : State) (d : Nat) (h0 : s0.Keeps s) :
    s0.Keeps (State.katLost s d) := by
  unfold State.katLost
  try dsimp only
  repeat' (first
    | (with_reducible first | assumption | apply State_katAdvance_keeps | apply State_modPanel_keeps | apply panel_held)
    | simp only [keeps_mk, die_mk, mem_mk, panel_mk])

theorem State_meshRoutes_keeps {s0 : State} (s : State) (h0 : s0.Keeps s) :
    s0.Keeps (State.meshRoutes s) := by
  unfold State.meshRoutes
  try dsimp only
  repeat' (first
    | (with_reducible first | assumption | apply State_notice_keeps | apply keeps_dies | apply keeps_panel | apply panel_held
                            | apply keeps_foldl)
    | simp only [keeps_mk, die_mk, mem_mk, panel_mk]
    | with_reducible apply And.intro
    | with_reducible intro _)

theorem State_keepImage_keeps {s0 : State} (s : State) (d : Nat) (h0 : s0.Keeps s) :
    s0.Keeps (State.keepImage s d) := by
  unfold State.keepImage
  try dsimp only
  repeat' (first
    | (with_reducible first | assumption | apply keeps_ite | apply keeps_dies | apply keeps_panel)
    | simp only [keeps_mk, die_mk, mem_mk, panel_mk]
    | with_reducible apply And.intro
    | with_reducible intro _)

theorem State_powerOff_keeps {s0 : State} (s : State) (d : Nat) (h0 : s0.Keeps s) :
    s0.Keeps (State.powerOff s d) := by
  unfold State.powerOff
  try dsimp only
  repeat' (with_reducible first | assumption | apply State_meshRoutes_keeps | apply State_presenceChanged_keeps
                                | apply State_modDie_keeps | apply State_keepImage_keeps | apply Die_off_keeps)

theorem State_diePowerDown_keeps {s0 : State} (s : State) (d : Nat) (h0 : s0.Keeps s) :
    s0.Keeps (State.diePowerDown s d) := by
  unfold State.diePowerDown
  try dsimp only
  repeat' (first
    | (with_reducible first | assumption | apply State_abortMenus_keeps | apply State_katLost_keeps | apply State_modPanel_keeps
                            | apply State_powerOff_keeps | apply keeps_ite | apply panel_held)
    | simp only [keeps_mk, die_mk, mem_mk, panel_mk]
    | with_reducible intro _)

theorem State_panelWarm_keeps {s0 : State} (s : State) (h0 : s0.Keeps s) :
    s0.Keeps (State.panelWarm s) := by
  unfold State.panelWarm
  try dsimp only
  repeat' (first
    | (with_reducible first | assumption | apply State_logEvent_keeps | apply State_keepImage_keeps | apply State_interruptMenus_keeps
                            | apply Die_reset_keeps | apply State_modPanel_keeps | apply keeps_dies | apply keeps_panel
                            | apply panel_held | apply dies_mapVal | apply keeps_foldl)
    | simp only [keeps_mk, die_mk, mem_mk, panel_mk]
    | with_reducible apply And.intro
    | with_reducible intro _)

theorem State_panelDown_keeps {s0 : State} (s : State) (h0 : s0.Keeps s) :
    s0.Keeps (State.panelDown s) := by
  unfold State.panelDown
  try dsimp only
  repeat' (first
    | (with_reducible first | assumption | apply State_abortMenus_keeps | apply State_katLost_keeps | apply State_powerOff_keeps
                            | apply State_modPanel_keeps | apply State_portDown_keeps | apply panel_held | apply keeps_foldl)
    | simp only [keeps_mk, die_mk, mem_mk, panel_mk]
    | with_reducible intro _)

theorem State_lifeline_keeps {s0 : State} (op : Nat) (pl : List (BitVec 8)) (s : State) (h0 : s0.Keeps s) :
    ∀ t, s0.Keeps t → s0.Keeps (Recorded.act (State.lifeline op pl s) t) := by
  unfold State.lifeline
  try dsimp only
  repeat' (first
    | (with_reducible first | assumption | apply State_lasersOff_keeps | apply State_portDown_keeps | apply State_diePowerDown_keeps
                            | apply State_panelWarm_keeps | apply State_panelDown_keeps)
    | simp only [keeps_mk, die_mk, mem_mk, panel_mk]
    | with_reducible intro _
    | split
    | exact (by assumption : s0.Keeps _))

theorem State_firmwarePut_keeps {s0 : State} (s : State) (pl : List (BitVec 8)) (h0 : s0.Keeps s) :
    s0.Keeps (State.firmwarePut s pl).1 := by
  unfold State.firmwarePut
  try dsimp only
  repeat' (first
    | (with_reducible first | assumption | apply State_done_keeps | apply State_modHearth_keeps | apply keeps_ite_fst | apply keeps_foldl)
    | with_reducible intro _)

theorem State_recovery_keeps {s0 : State} (op : Nat) (pl : List (BitVec 8)) (s : State) (h0 : s0.Keeps s) :
    ∀ t, s0.Keeps t → s0.Keeps (Recorded.act (State.recovery op pl s) t) := by
  unfold State.recovery
  try dsimp only
  repeat' (first
    | (with_reducible first | assumption | apply State_firmwarePut_keeps | apply State_activateOf_keeps | apply State_panelWarm_keeps)
    | simp only [keeps_mk, die_mk, mem_mk, panel_mk]
    | with_reducible intro _
    | split
    | exact (by assumption : s0.Keeps _))

theorem State_replyFor_keeps {s0 : State} (s : State) (e : Entry) (h0 : s0.Keeps s) :
    s0.Keeps (State.replyFor s e) := by
  unfold State.replyFor
  try dsimp only
  repeat' (first | (with_reducible first | assumption | apply State_reply_keeps) | split)

theorem State_noteLaunch_keeps {s0 : State} (s : State) (g : GwHeader) (pl : List (BitVec 8)) (h0 : s0.Keeps s) :
    s0.Keeps (State.noteLaunch s g pl) := by
  unfold State.noteLaunch
  try dsimp only
  repeat' (first | (with_reducible first | assumption | apply State_modMenu_keeps | apply keeps_ite) | with_reducible intro _)

theorem State_journalPut_keeps {s0 : State} (s : State) (g : GwHeader) (pl : List (BitVec 8)) (h0 : s0.Keeps s) :
    s0.Keeps (State.journalPut s g pl) := by
  unfold State.journalPut
  try dsimp only
  repeat' (first
    | (with_reducible first | assumption | apply State_fresh_keeps | apply State_modPanel_keeps | apply Panel_modHatch_keeps
                            | apply panel_held)
    | simp only [keeps_mk, die_mk, mem_mk, panel_mk]
    | with_reducible intro _)

theorem State_tearJob_keeps {s0 : State} (s : State) (h0 : s0.Keeps s) :
    s0.Keeps (State.tearJob s) := by
  unfold State.tearJob
  try dsimp only
  repeat' (first
    | (with_reducible first | assumption | apply State_abortMenus_keeps | apply State_modPanel_keeps | apply State_onActive_keeps
                            | apply Die_tearDown_keeps | apply panel_held)
    | simp only [keeps_mk, die_mk, mem_mk, panel_mk]
    | with_reducible intro _)

theorem State_teardown_keeps {s0 : State} (s : State) (pl : List (BitVec 8)) (h0 : s0.Keeps s) :
    s0.Keeps (State.teardown s pl).1 := by
  unfold State.teardown
  try dsimp only
  repeat' (first
    | (with_reducible first | assumption | apply State_done_keeps | apply State_tearJob_keeps | apply keeps_ite_fst)
    | with_reducible intro _)

theorem State_endJob_keeps {s0 : State} (s : State) (h0 : s0.Keeps s) :
    s0.Keeps (State.endJob s) := by
  unfold State.endJob
  try dsimp only
  repeat' (first
    | (with_reducible first | assumption | apply State_tearJob_keeps | apply State_onActive_keeps | apply Die_tearDown_keeps
                            | apply State_modPanel_keeps | apply Panel_modHatch_keeps | apply keeps_ite | apply keeps_dies
                            | apply keeps_panel | apply die_mem | apply mem_cells | apply panel_held | apply panel_foldl)
    | simp only [keeps_mk, die_mk, mem_mk, panel_mk]
    | with_reducible apply And.intro
    | with_reducible intro _)

theorem State_jobClose_keeps {s0 : State} (s : State) (pl : List (BitVec 8)) (h0 : s0.Keeps s) :
    s0.Keeps (State.jobClose s pl).1 := by
  unfold State.jobClose
  try dsimp only
  repeat' (first
    | (with_reducible first | assumption | apply State_done_keeps | apply State_endJob_keeps | apply keeps_ite_fst)
    | with_reducible intro _)

theorem State_fence_keeps {s0 : State} (s : State) (h0 : s0.Keeps s) :
    s0.Keeps (State.fence s) := by
  unfold State.fence
  try dsimp only
  repeat' (first
    | (with_reducible first | assumption | apply State_onActive_keeps | apply State_modPanel_keeps | apply State_notice_keeps
                            | apply State_abortMenus_keeps | apply keeps_ite | apply die_mem | apply panel_held)
    | simp only [keeps_mk, die_mk, mem_mk, panel_mk]
    | with_reducible intro _)

theorem State_evict_keeps {s0 : State} (s : State) (pl : List (BitVec 8)) (h0 : s0.Keeps s) :
    s0.Keeps (State.evict s pl).1 := by
  unfold State.evict
  try dsimp only
  repeat' (first
    | (with_reducible first | assumption | apply State_done_keeps | apply State_fence_keeps | apply keeps_ite_fst)
    | with_reducible intro _)

theorem State_singleEffect_keeps {s0 : State} {s : State} {op : Nat} {pl : Bytes} {r : Effect} (h : s0.Keeps s)
    (e : s.singleEffect op pl = some r) : s0.Keeps r.1 := by
  unfold State.singleEffect at e
  split at e
  · cases e; exact State_teardown_keeps _ _ h
  · split at e
    · cases e; exact State_jobClose_keeps _ _ h
    · split at e
      · cases e; exact State_evict_keeps _ _ h
      · cases e

theorem singleEffect_of_ite {c : Prop} [Decidable c] {s : State} {op : Nat} {pl : Bytes} {r : Effect}
    (e : (if c then s.singleEffect op pl else none) = some r) : s.singleEffect op pl = some r := by
  split at e
  · exact e
  · cases e

theorem State_sequence_keeps {s0 : State} (y0 : Nat) (y1 : State) (y2 : List (BitVec 8)) (h0 : s0.Keeps y1) :
    s0.Keeps (State.sequence y0 y1 y2) := by
  induction y0 generalizing y1 y2 with
  | zero =>
    unfold State.sequence
    try dsimp only
    repeat' (with_reducible assumption)
  | succ k ih =>
    unfold State.sequence
    try dsimp only
    repeat' (first
      | (with_reducible first | assumption | apply ih | apply State_reply_keeps | apply State_reject_keeps | apply State_replyFor_keeps
                              | apply State_modPanel_keeps | apply Panel_modHatch_keeps | apply Panel_linkCells_keeps
                              | apply State_noteLaunch_keeps | apply State_journalPut_keeps | apply Panel_freeCells_keeps
                              | apply keeps_ite | apply panel_held)
      | simp only [keeps_mk, die_mk, mem_mk, panel_mk]
      | with_reducible intro _
      | split
      | (with_reducible refine State_singleEffect_keeps ?_ (singleEffect_of_ite (by with_reducible assumption))))

theorem State_command_keeps {s0 : State} (s : State) (g : GwHeader) (pl : List (BitVec 8)) (dg : List (BitVec 8)) (h0 : s0.Keeps s) :
    s0.Keeps (State.command s g pl dg) := by
  unfold State.command
  try dsimp only
  repeat' (first
    | (with_reducible first | assumption | apply State_modPanel_keeps | apply Panel_retire_keeps | apply State_reject_keeps
                            | apply State_doRead_keeps | apply State_inOrder_keeps | apply State_lifeline_keeps
                            | apply State_recovery_keeps | apply State_sequence_keeps | apply keeps_ite)
    | with_reducible intro _
    | split)

theorem State_commitTable_keeps {s0 : State} (s : State) (pl : List (BitVec 8)) (pages : List (Nat × Bytes)) (h0 : s0.Keeps s) :
    s0.Keeps (State.commitTable s pl pages).1 := by
  unfold State.commitTable
  try dsimp only
  repeat' (first
    | (with_reducible first | assumption | apply State_done_keeps | apply State_modPanel_keeps | apply keeps_ite_fst | apply panel_held)
    | simp only [keeps_mk, die_mk, mem_mk, panel_mk]
    | with_reducible intro _)

theorem State_coolant_keeps {s0 : State} (s : State) (inlet : Int) (outlet : Int) (flow : Nat) (h0 : s0.Keeps s) :
    s0.Keeps (State.coolant s inlet outlet flow) := by
  unfold State.coolant
  try dsimp only
  repeat' (first
    | (with_reducible first | assumption | apply State_modPanel_keeps | apply State_onActive_keeps | apply State_notice_keeps
                            | apply keeps_ite | apply die_mem | apply panel_held)
    | simp only [keeps_mk, die_mk, mem_mk, panel_mk]
    | with_reducible intro _)

theorem State_panLoad_keeps {s0 : State} (s : State) (d : Nat) (o : Origin) (a : Nat) (n : Nat) (h0 : s0.Keeps s) :
    s0.Keeps (State.panLoad s d o a n).1 := by
  unfold State.panLoad
  try dsimp only
  repeat' (first
    | (with_reducible first | assumption | apply MemUnit_panScan_keeps | apply State_setDie_keeps | apply State_raise_keeps
                            | apply keeps_ite | apply keeps_die | apply die_mem)
    | simp only [keeps_mk, die_mk, mem_mk, panel_mk]
    | with_reducible intro _)

theorem State_panScans_keeps {s0 : State} (s : State) (d : Nat) (o : Origin) (spans : List (Nat × Nat)) (h0 : s0.Keeps s) :
    s0.Keeps (State.panScans s d o spans) := by
  unfold State.panScans
  try dsimp only
  repeat' (first | (with_reducible first | assumption | apply State_panLoad_keeps | apply keeps_foldl) | with_reducible intro _)

theorem State_copyLocal_keeps {s0 : State} (s : State) (d : Nat) (ch : Nat) (key : Nat) (o : Origin) (b : List (BitVec 8)) (sd : Side)
    (td : Side) (h0 : s0.Keeps s) :
    s0.Keeps (State.copyLocal s d ch key o b sd td) := by
  unfold State.copyLocal
  try dsimp only
  repeat' (first
    | (with_reducible first | assumption | apply State_setDie_keeps | apply Die_modChan_keeps | apply Die_bumpBoth_keeps
                            | apply Die_addReqs_keeps | apply State_panScans_keeps | apply State_fresh_keeps | apply State_modDie_keeps
                            | apply Die_readDone_keeps | apply State_deliver_keeps | apply keeps_ite | apply keeps_die)
    | with_reducible intro _)

theorem State_dropLater_keeps {s0 : State} (s : State) (d : Nat) (larder : Bool) (o : KilnOwner) (h0 : s0.Keeps s) :
    s0.Keeps (s.dropLater d larder o) := by
  unfold State.dropLater
  dsimp only
  have hf : ∀ (l : List KilnReq) (a : List KilnReq × State × Nat), s0.Keeps a.2.1 → s0.Keeps (l.foldl (fun (a : List KilnReq × State × Nat) e =>
      if e.owner = o then
        if Config.freeHanded a.2.1.fresh.1 then (a.1 ++ [e], a.2.1.fresh.2, a.2.2) else (a.1, a.2.1.fresh.2, a.2.2 + 1)
      else (a.1 ++ [e], a.2.1, a.2.2)) a).2.1 := by
    intro l
    induction l with
    | nil => exact fun a h => h
    | cons e l ih =>
      intro a h
      refine ih _ ?_
      dsimp only
      split
      · split
        · exact State_fresh_keeps _ h
        · exact State_fresh_keeps _ h
      · exact h
  split
  · exact h0
  · refine State_modDie_keeps _ _ _ (hf _ _ h0) (fun x hx => ?_)
    split
    · exact Die_modChan_keeps _ _ _ (MemUnit_setKiln_keeps _ _ _ hx)
    · exact MemUnit_setKiln_keeps _ _ _ hx

theorem State_whiskLanded_keeps {s0 : State} (s : State) (d : Nat) (b : Nat) (c : Nat) (code : Nat) (h0 : s0.Keeps s) :
    s0.Keeps (State.whiskLanded s d b c code) := by
  unfold State.whiskLanded
  try dsimp only
  repeat' (first
    | (with_reducible first | assumption | apply State_modInst_keeps | apply State_progress_keeps | apply State_wakeJoins_keeps
                            | apply State_abortCause_keeps | apply keeps_ite)
    | with_reducible intro _)

theorem State_kilnEnded_keeps {s0 : State} (s : State) (d : Nat) (larder : Bool) (q : KilnReq) (res : KilnResult) (h0 : s0.Keeps s) :
    s0.Keeps (State.kilnEnded s d larder q res) := by
  unfold State.kilnEnded
  try dsimp only
  repeat' (first
    | (with_reducible first | assumption | apply State_modDie_keeps | apply Die_modChan_keeps | apply State_stopDesc_keeps
                            | apply State_dropLater_keeps | apply State_whiskLanded_keeps | apply Die_storeLanded_keeps | apply keeps_ite)
    | with_reducible intro _
    | split)

theorem State_kilnStep_keeps {s0 : State} (s : State) (d : Nat) (larder : Bool) (h0 : s0.Keeps s) :
    s0.Keeps (State.kilnStep s d larder) := by
  unfold State.kilnStep
  try dsimp only
  repeat' (first
    | (with_reducible first | assumption | apply MemUnit_setKiln_keeps | apply MemUnit_kilnApply_keeps | apply MemUnit_forget_keeps
                            | apply Die_landed_keeps | apply State_kilnEnded_keeps | apply State_setDie_keeps | apply die_ite
                            | apply mem_ite_fst | apply keeps_die | apply die_mem | apply die_foldl)
    | simp only [keeps_mk, die_mk, mem_mk, panel_mk]
    | with_reducible intro _
    | split)

theorem State_kilnClear_keeps {s0 : State} (d : Nat) (block : Nat) (larder : Bool) (y3 : Nat) (y4 : State) (h0 : s0.Keeps y4) :
    s0.Keeps (State.kilnClear d block larder y3 y4) := by
  induction y3 generalizing y4 with
  | zero =>
    unfold State.kilnClear
    try dsimp only
    repeat' (with_reducible assumption)
  | succ k ih =>
    unfold State.kilnClear
    try dsimp only
    repeat' (first | (with_reducible first | assumption | apply ih | apply State_kilnStep_keeps | apply keeps_ite) | with_reducible intro _)

theorem State_hearthBlock_keeps {s0 : State} (s : State) (d : Nat) (e : Nat × List (Nat × Bytes)) (h0 : s0.Keeps s) :
    s0.Keeps (State.hearthBlock s d e) := by
  unfold State.hearthBlock
  try dsimp only
  repeat' (first
    | (with_reducible first | assumption | apply State_modDie_keeps | apply State_kilnClear_keeps | apply MemUnit_kilnApply_keeps
                            | apply MemUnit_forget_keeps | apply Die_landed_keeps | apply die_ite | apply die_mem | apply die_foldl)
    | simp only [keeps_mk, die_mk, mem_mk, panel_mk]
    | with_reducible intro _)

theorem State_hearthWrite_keeps {s0 : State} (s : State) (d : Nat) (a : Nat) (bs : List (BitVec 8)) (h0 : s0.Keeps s) :
    s0.Keeps (State.hearthWrite s d a bs) := by
  unfold State.hearthWrite
  try dsimp only
  repeat' (first
    | (with_reducible first | assumption | apply State_modDie_keeps | apply Die_panPut_keeps | apply State_hearthBlock_keeps
                            | apply keeps_ite | apply keeps_foldl)
    | with_reducible intro _)

theorem State_copyMenu_keeps {s0 : State} (s : State) (m : Menu) (h0 : s0.Keeps s) :
    s0.Keeps (State.copyMenu s m) := by
  unfold State.copyMenu
  try dsimp only
  repeat' (first
    | (with_reducible first | assumption | apply State_hearthWrite_keeps | apply keeps_ite | apply keeps_foldl)
    | with_reducible intro _
    | split)

theorem State_copyRemote_keeps {s0 : State} (s : State) (d : Nat) (ch : Nat) (key : Nat) (o : Origin) (b : List (BitVec 8)) (sd : Side)
    (h0 : s0.Keeps s) :
    s0.Keeps (State.copyRemote s d ch key o b sd) := by
  unfold State.copyRemote
  try dsimp only
  repeat' (with_reducible first | assumption | apply State_setDie_keeps | apply Die_modChan_keeps | apply Die_addReqs_keeps
                                | apply keeps_die)

theorem State_courseFinished_keeps {s0 : State} (s : State) (d : Nat) (c : Nat) (h0 : s0.Keeps s) :
    s0.Keeps (State.courseFinished s d c) := by
  unfold State.courseFinished
  try dsimp only
  repeat' (first
    | (with_reducible first | assumption | apply State_modDie_keeps | apply Die_modSeq_keeps | apply State_doneCheck_keeps
                            | apply State_modMenu_keeps)
    | with_reducible intro _
    | split)

theorem State_sendDown_keeps {s0 : State} (s : State) (d : Nat) (b : Nat) (h0 : s0.Keeps s) :
    s0.Keeps (State.sendDown s d b) := by
  unfold State.sendDown
  try dsimp only
  repeat' (first | (with_reducible first | assumption | apply State_ctlSend_keeps | apply keeps_foldl) | with_reducible intro _)

theorem State_makeReady_keeps {s0 : State} (s : State) (d : Nat) (b : Nat) (h0 : s0.Keeps s) :
    s0.Keeps (State.makeReady s d b) := by
  unfold State.makeReady
  try dsimp only
  repeat' (first
    | (with_reducible first | assumption | apply State_modInst_keeps | apply State_modDie_keeps | apply Die_modSeq_keeps
                            | apply State_sendDown_keeps)
    | with_reducible intro _)

theorem State_preludeMove_keeps {s0 : State} (s : State) (d : Nat) (b : Nat) (h0 : s0.Keeps s) :
    s0.Keeps (State.preludeMove s d b) := by
  unfold State.preludeMove
  try dsimp only
  repeat' (first
    | (with_reducible first | assumption | apply State_modInst_keeps | apply State_ctlSend_keeps | apply State_makeReady_keeps
                            | apply keeps_ite | apply keeps_foldl)
    | with_reducible intro _
    | split)

theorem State_onPreludeUp_keeps {s0 : State} (s : State) (d : Nat) (b : Nat) (peer : Nat) (q : Packet) (h0 : s0.Keeps s) :
    s0.Keeps (State.onPreludeUp s d b peer q) := by
  unfold State.onPreludeUp
  try dsimp only
  repeat' (first
    | (with_reducible first | assumption | apply State_abortCause_keeps | apply State_preludeMove_keeps | apply State_modInst_keeps
                            | apply keeps_ite)
    | with_reducible intro _)

theorem State_onPreludeDown_keeps {s0 : State} (s : State) (d : Nat) (b : Nat) (q : Packet) (h0 : s0.Keeps s) :
    s0.Keeps (State.onPreludeDown s d b q) := by
  unfold State.onPreludeDown
  try dsimp only
  repeat' (first
    | (with_reducible first | assumption | apply State_modInst_keeps | apply State_makeReady_keeps | apply keeps_ite)
    | with_reducible intro _)

theorem State_onCredit_keeps {s0 : State} (s : State) (d : Nat) (b : Nat) (peer : Nat) (q : Packet) (h0 : s0.Keeps s) :
    s0.Keeps (State.onCredit s d b peer q) := by
  unfold State.onCredit
  try dsimp only
  repeat' (with_reducible first | assumption | apply State_modInst_keeps)

theorem State_onChunkAck_keeps {s0 : State} (s : State) (d : Nat) (b : Nat) (peer : Nat) (q : Packet) (h0 : s0.Keeps s) :
    s0.Keeps (State.onChunkAck s d b peer q) := by
  unfold State.onChunkAck
  try dsimp only
  repeat' (with_reducible first | assumption | apply State_progress_keeps | apply State_modInst_keeps)

theorem State_onResend_keeps {s0 : State} (s : State) (d : Nat) (b : Nat) (peer : Nat) (q : Packet) (h0 : s0.Keeps s) :
    s0.Keeps (State.onResend s d b peer q) := by
  unfold State.onResend
  try dsimp only
  repeat' (first
    | (with_reducible first | assumption | apply State_badRank_keeps | apply State_modDie_keeps | apply State_modInst_keeps
                            | apply Die_chunkPackets_keeps | apply keeps_ite)
    | with_reducible intro _
    | split)

theorem State_onAgreeUp_keeps {s0 : State} (s : State) (d : Nat) (b : Nat) (peer : Nat) (q : Packet) (h0 : s0.Keeps s) :
    s0.Keeps (State.onAgreeUp s d b peer q) := by
  unfold State.onAgreeUp
  try dsimp only
  repeat' (with_reducible first | assumption | apply State_progress_keeps | apply State_modInst_keeps)

theorem State_onRelease_keeps {s0 : State} (s : State) (d : Nat) (b : Nat) (q : Packet) (h0 : s0.Keeps s) :
    s0.Keeps (State.onRelease s d b q) := by
  unfold State.onRelease
  try dsimp only
  repeat' (first
    | (with_reducible first | assumption | apply State_progress_keeps | apply State_releaseA_keeps | apply State_complete_keeps
                            | apply State_releaseKids_keeps | apply keeps_ite)
    | with_reducible intro _)

theorem State_ctlAct_keeps {s0 : State} (s : State) (d : Nat) (b : Nat) (peer : Nat) (q : Packet) (h0 : s0.Keeps s) :
    s0.Keeps (State.ctlAct s d b peer q) := by
  unfold State.ctlAct
  try dsimp only
  repeat' (first
    | (with_reducible first | assumption | apply State_onPreludeUp_keeps | apply State_onPreludeDown_keeps | apply State_onCredit_keeps
                            | apply State_onChunkAck_keeps | apply State_onResend_keeps | apply State_onAgreeUp_keeps
                            | apply State_onRelease_keeps | apply State_abortCause_keeps)
    | split)

theorem State_ctlOnce_keeps {s0 : State} (s : State) (d : Nat) (b : Nat) (q : Packet) (h0 : s0.Keeps s) :
    s0.Keeps (State.ctlOnce s d b q) := by
  unfold State.ctlOnce
  try dsimp only
  repeat' (first
    | (with_reducible first | assumption | apply State_ctlAct_keeps | apply State_modInst_keeps | apply keeps_ite)
    | with_reducible intro _
    | split)

theorem State_ctlRow_keeps {s0 : State} (s : State) (d : Nat) (kind : Nat) (h0 : s0.Keeps s) :
    s0.Keeps (State.ctlRow s d kind) := by
  unfold State.ctlRow
  try dsimp only
  repeat' (first
    | (with_reducible first | assumption | apply State_setDie_keeps | apply State_ctlOnce_keeps | apply State_modDie_keeps
                            | apply Die_cackTo_keeps | apply keeps_ite | apply keeps_die | apply die_mem)
    | simp only [keeps_mk, die_mk, mem_mk, panel_mk]
    | with_reducible intro _
    | split
    | with_reducible refine Die_takeRx_keeps ?_ (by with_reducible assumption))

theorem State_dropUnroutable_keeps {s0 : State} (s : State) (d : Nat) (h0 : s0.Keeps s) :
    s0.Keeps (State.dropUnroutable s d) := by
  unfold State.dropUnroutable
  try dsimp only
  repeat' (first
    | (with_reducible first | assumption | apply State_modDie_keeps | apply State_notice_keeps | apply keeps_ite | apply keeps_dies
                            | apply keeps_panel | apply die_mem | apply panel_held)
    | simp only [keeps_mk, die_mk, mem_mk, panel_mk]
    | with_reducible apply And.intro
    | with_reducible intro _)

theorem State_traceFab_keeps {s0 : State} (s : State) (d : Nat) (dir : Nat) (port : Nat) (cls : Nat) (routeWord : Nat) (trans : List
    (BitVec 8)) (h0 : s0.Keeps s) :
    s0.Keeps (State.traceFab s d dir port cls routeWord trans) := by
  unfold State.traceFab
  try dsimp only
  repeat' (first
    | (with_reducible first | assumption | apply State_fresh_keeps | apply State_modDie_keeps | apply Die_modHalf_keeps | apply keeps_ite)
    | with_reducible intro _)

theorem State_decideRoute_keeps {s0 : State} (s : State) (d : Nat) (i : Nat) (h' : Held) (h0 : s0.Keeps s) :
    s0.Keeps (State.decideRoute s d i h') := by
  unfold State.decideRoute
  try dsimp only
  repeat' (first
    | (with_reducible first | assumption | apply State_setDie_keeps | apply Die_unhold_keeps | apply State_modDie_keeps
                            | apply Die_countDrop_keeps | apply State_dropUnroutable_keeps | apply Die_bounceTo_keeps
                            | apply Die_setRoute_keeps | apply State_traceFab_keeps | apply keeps_ite | apply keeps_die | apply die_mem)
    | simp only [keeps_mk, die_mk, mem_mk, panel_mk]
    | with_reducible intro _
    | split)

theorem State_holdEdges_keeps {s0 : State} (s : State) (d : Nat) (h0 : s0.Keeps s) :
    s0.Keeps (State.holdEdges s d) := by
  unfold State.holdEdges
  try dsimp only
  repeat' (first
    | (with_reducible first | assumption | apply State_modDie_keeps | apply die_mem | apply keeps_foldl)
    | simp only [keeps_mk, die_mk, mem_mk, panel_mk]
    | with_reducible intro _)

theorem State_hardFail_keeps {s0 : State} (s : State) (d : Nat) (h0 : s0.Keeps s) :
    s0.Keeps (State.hardFail s d) := by
  unfold State.hardFail
  try dsimp only
  repeat' (first
    | (with_reducible first | assumption | apply State_modPanel_keeps | apply State_katLost_keeps | apply State_holdEdges_keeps
                            | apply State_powerOff_keeps | apply keeps_dies | apply keeps_panel | apply panel_held)
    | simp only [keeps_mk, die_mk, mem_mk, panel_mk]
    | with_reducible apply And.intro)

theorem State_declareHard_keeps {s0 : State} (s : State) (d : Nat) (h0 : s0.Keeps s) :
    s0.Keeps (State.declareHard s d) := by
  unfold State.declareHard
  try dsimp only
  repeat' (with_reducible first | assumption | apply State_hardFail_keeps | apply State_notice_keeps)

theorem State_fillRun_keeps {s0 : State} (s : State) (d : Nat) (ch : Nat) (key : Nat) (o : Origin) (b : List (BitVec 8)) (td : Side)
    (h0 : s0.Keeps s) :
    s0.Keeps (State.fillRun s d ch key o b td) := by
  unfold State.fillRun
  try dsimp only
  repeat' (with_reducible first | assumption | apply State_handPieces_keeps)

theorem State_gatherRun_keeps {s0 : State} (s : State) (d : Nat) (ch : Nat) (key : Nat) (o : Origin) (b : List (BitVec 8)) (v : Int)
    (h0 : s0.Keeps s) :
    s0.Keeps (State.gatherRun s d ch key o b v) := by
  unfold State.gatherRun
  try dsimp only
  repeat' (first
    | (with_reducible first | assumption | apply State_panLoad_keeps | apply State_deliver_keeps | apply State_modDie_keeps
                            | apply Die_forget_keeps | apply Die_readDone_keeps | apply die_mem | apply mem_cells)
    | simp only [keeps_mk, die_mk, mem_mk, panel_mk]
    | with_reducible intro _
    | split)

theorem State_descStart_keeps {s0 : State} (s : State) (d : Nat) (ch : Nat) (kind : Nat) (h0 : s0.Keeps s) :
    s0.Keeps (State.descStart s d ch kind) := by
  unfold State.descStart
  try dsimp only
  repeat' (first
    | (with_reducible first | assumption | apply State_setDie_keeps | apply Die_popDesc_keeps | apply State_raise_keeps
                            | apply State_ladleFault_keeps | apply Die_modChan_keeps | apply State_copyRemote_keeps
                            | apply State_copyLocal_keeps | apply State_fillRun_keeps | apply State_gatherRun_keeps | apply keeps_ite
                            | apply keeps_die)
    | with_reducible intro _
    | split)

theorem State_resetMenus_keeps {s0 : State} (s : State) (n : Nat) (h0 : s0.Keeps s) :
    s0.Keeps (State.resetMenus s n) := by
  unfold State.resetMenus
  try dsimp only
  repeat' (first
    | (with_reducible first | assumption | apply State_abortMenus_keeps | apply State_noticeTo_keeps | apply keeps_foldl)
    | with_reducible intro _)

theorem State_vacantNotice_keeps {s0 : State} (s : State) (n : Nat) (site : Nat) (h0 : s0.Keeps s) :
    s0.Keeps (State.vacantNotice s n site) := by
  unfold State.vacantNotice
  try dsimp only
  repeat' (with_reducible first | assumption | apply State_notice_keeps)

theorem State_dieFailed_keeps {s0 : State} (s0' : State) (d : Nat) (hard : Bool) (h0 : s0.Keeps (s0')) :
    s0.Keeps (State.dieFailed s0' d hard) := by
  unfold State.dieFailed
  try dsimp only
  repeat' (first
    | (with_reducible first | assumption | apply State_resetMenus_keeps | apply State_vacantNotice_keeps | apply State_hardFail_keeps
                            | apply State_notice_keeps | apply State_katLost_keeps | apply State_powerOff_keeps
                            | apply State_modPanel_keeps | apply keeps_ite | apply panel_held)
    | simp only [keeps_mk, die_mk, mem_mk, panel_mk]
    | with_reducible intro _)

theorem State_modThermal_keeps {s0 : State} (s : State) (d : Nat) (f : Thermal → Thermal) (h0 : s0.Keeps s) :
    s0.Keeps (State.modThermal s d f) := by
  unfold State.modThermal
  try dsimp only
  repeat' (first
    | (with_reducible first | assumption | apply State_modDie_keeps | apply die_mem)
    | simp only [keeps_mk, die_mk, mem_mk, panel_mk])

theorem State_thermalNotice_keeps {s0 : State} (s : State) (d : Nat) (code : Nat) (arg1 : Nat) (h0 : s0.Keeps s) :
    s0.Keeps (State.thermalNotice s d code arg1) := by
  unfold State.thermalNotice
  try dsimp only
  repeat' (with_reducible first | assumption | apply State_notice_keeps)

end Sys2Proof.Machine
end

