-- ==== Sys2Proof/Laws/KeepsOps4.lean ====
section
/-! SUPPORT. The named operations (part 4) keep what `Sys2Proof.Laws.Keeps` names: the cells of every kiln stay canonical, what the hearths hold stays legal, and
the fuses are as they were. One lemma per operation, by the lemmas of what it calls. -/

open Sys2Proof

namespace Sys2Proof.Machine

set_option linter.unusedVariables false
set_option linter.unusedSimpArgs false

theorem State_shutdownAction_keeps {s0 : State} (s : State) (d : Nat) (h0 : s0.Keeps s) :
    s0.Keeps (State.shutdownAction s d) := by
  unfold State.shutdownAction
  try dsimp only
  repeat' (first
    | (with_reducible first | assumption | apply State_modDie_keeps | apply State_powerOff_keeps | apply State_katLost_keeps
                            | apply State_modPanel_keeps | apply State_abortMenus_keeps | apply State_thermalNotice_keeps | apply die_mem
                            | apply panel_held)
    | simp only [keeps_mk, die_mk, mem_mk, panel_mk])

theorem State_enterThrottle_keeps {s0 : State} (s : State) (d : Nat) (h0 : s0.Keeps s) :
    s0.Keeps (State.enterThrottle s d) := by
  unfold State.enterThrottle
  try dsimp only
  repeat' (with_reducible first | assumption | apply State_thermalNotice_keeps | apply State_modThermal_keeps)

theorem State_junctionSteps_keeps {s0 : State} (d : Nat) (y1 : Nat) (y2 : State) (h0 : s0.Keeps y2) :
    s0.Keeps (State.junctionSteps d y1 y2) := by
  induction y1 generalizing y2 with
  | zero =>
    unfold State.junctionSteps
    try dsimp only
    repeat' (with_reducible assumption)
  | succ k ih =>
    unfold State.junctionSteps
    try dsimp only
    repeat' (first
      | (with_reducible first | assumption | apply ih | apply State_thermalNotice_keeps | apply State_modThermal_keeps
                              | apply State_enterThrottle_keeps | apply keeps_ite)
      | with_reducible intro _
      | split)

theorem State_dieReadings_keeps {s0 : State} (s : State) (d : Nat) (counts : List Nat) (h0 : s0.Keeps s) :
    s0.Keeps (State.dieReadings s d counts) := by
  unfold State.dieReadings
  try dsimp only
  repeat' (first
    | (with_reducible first | assumption | apply State_modThermal_keeps | apply State_notice_keeps | apply State_thermalNotice_keeps
                            | apply State_shutdownAction_keeps | apply State_junctionSteps_keeps | apply keeps_ite | apply keeps_foldl)
    | with_reducible intro _
    | split)

theorem State_dieReset_keeps {s0 : State} (s : State) (d : Nat) (h0 : s0.Keeps s) :
    s0.Keeps (State.dieReset s d) := by
  unfold State.dieReset
  try dsimp only
  repeat' (first
    | (with_reducible first | assumption | apply State_logEvent_keeps | apply State_resetMenus_keeps | apply State_keepImage_keeps
                            | apply State_katLost_keeps | apply State_meshRoutes_keeps | apply State_modPanel_keeps
                            | apply State_presenceChanged_keeps | apply State_modDie_keeps | apply Die_reset_keeps | apply panel_held)
    | simp only [keeps_mk, die_mk, mem_mk, panel_mk])

theorem State_dieTick_keeps {s0 : State} (s : State) (d : Nat) (h0 : s0.Keeps s) :
    s0.Keeps (State.dieTick s d) := by
  unfold State.dieTick
  try dsimp only
  repeat' (first
    | (with_reducible first | assumption | apply State_modDie_keeps | apply Die_modSeq_keeps | apply die_ite | apply die_mem
                            | apply die_foldl)
    | simp only [keeps_mk, die_mk, mem_mk, panel_mk]
    | with_reducible intro _)

theorem State_digestRows_keeps {s0 : State} (s : State) (d : Nat) (o : Origin) (t : Tile) (rows : List RowOut) (h0 : s0.Keeps s) :
    s0.Keeps (State.digestRows s d o t rows) := by
  unfold State.digestRows
  try dsimp only
  repeat' (first
    | (with_reducible first | assumption | apply State_modDie_keeps | apply State_raise_keeps | apply keeps_ite | apply die_mem
                            | apply keeps_foldl)
    | simp only [keeps_mk, die_mk, mem_mk, panel_mk]
    | with_reducible intro _
    | split)

theorem State_modTime_keeps {s0 : State} (s : State) (f : TimeBase → TimeBase) (h0 : s0.Keeps s) :
    s0.Keeps (State.modTime s f) := by
  unfold State.modTime
  try dsimp only
  repeat' (first
    | (with_reducible first | assumption | apply State_modPanel_keeps | apply panel_held)
    | simp only [keeps_mk, die_mk, mem_mk, panel_mk])

theorem State_discipline_keeps {s0 : State} (s : State) (old : Nat) (h0 : s0.Keeps s) :
    s0.Keeps (State.discipline s old) := by
  unfold State.discipline
  try dsimp only
  repeat' (first
    | (with_reducible first | assumption | apply State_modTime_keeps | apply keeps_ite | apply keeps_dies | apply keeps_panel)
    | simp only [keeps_mk, die_mk, mem_mk, panel_mk]
    | with_reducible apply And.intro
    | with_reducible intro _
    | split)

theorem State_setRole_keeps {s0 : State} (s : State) (role : Nat) (rootPort : Nat) (h0 : s0.Keeps s) :
    s0.Keeps (State.setRole s role rootPort) := by
  unfold State.setRole
  try dsimp only
  repeat' (first | (with_reducible first | assumption | apply State_modTime_keeps | apply keeps_ite) | with_reducible intro _ | split)

theorem State_fabricPut_keeps {s0 : State} (s : State) (pl : List (BitVec 8)) (h0 : s0.Keeps s) :
    s0.Keeps (State.fabricPut s pl).1 := by
  unfold State.fabricPut
  try dsimp only
  repeat' (first
    | (with_reducible first | assumption | apply State_done_keeps | apply State_settlePorts_keeps | apply State_modPanel_keeps
                            | apply State_setRole_keeps | apply State_onActive_keeps | apply keeps_ite | apply keeps_ite_fst
                            | apply die_mem | apply panel_held)
    | simp only [keeps_mk, die_mk, mem_mk, panel_mk]
    | with_reducible intro _)

theorem State_retire_keeps {s0 : State} (s : State) (port : Nat) (i : Nat) (h0 : s0.Keeps s) :
    s0.Keeps (State.retire s port i) := by
  unfold State.retire
  try dsimp only
  repeat' (first
    | (with_reducible first | assumption | apply State_modPort_keeps | apply State_setLanes_keeps | apply State_notice_keeps
                            | apply keeps_foldl)
    | with_reducible intro _)

theorem State_fadeLevel_keeps {s0 : State} (s : State) (port : Nat) (b : Nat) (i : Nat) (h0 : s0.Keeps s) :
    s0.Keeps (State.fadeLevel s port b i) := by
  unfold State.fadeLevel
  try dsimp only
  repeat' (first
    | (with_reducible first | assumption | apply State_notice_keeps | apply State_modBay_keeps | apply State_beginSwitch_keeps
                            | apply State_modPort_keeps | apply State_retire_keeps | apply keeps_ite)
    | with_reducible intro _
    | split)

theorem State_fallSafe_keeps {s0 : State} (s : State) (d : Nat) (p : Nat) (f : Pair → Pair) (h0 : s0.Keeps s) :
    s0.Keeps (State.fallSafe s d p f) := by
  unfold State.fallSafe
  try dsimp only
  repeat' (with_reducible first | assumption | apply State_fresh_keeps | apply State_modPair_keeps)

theorem State_feedPort_keeps {s0 : State} (s : State) (n : Nat) (h0 : s0.Keeps s) :
    s0.Keeps (State.feedPort s n) := by
  unfold State.feedPort
  try dsimp only
  repeat' (first
    | (with_reducible first | assumption | apply State_modBay_keeps | apply State_modPort_keeps | apply State_feedFrom_keeps
                            | apply keeps_ite)
    | with_reducible intro _
    | split)

theorem State_fireInst_keeps {s0 : State} (s : State) (d : Nat) (b : Nat) (h0 : s0.Keeps s) :
    s0.Keeps (State.fireInst s d b) := by
  unfold State.fireInst
  try dsimp only
  repeat' (with_reducible first | assumption | apply State_preludeMove_keeps | apply State_modInst_keeps)

theorem State_goDark_keeps {s0 : State} (s : State) (d : Nat) (p : Nat) (h0 : s0.Keeps s) :
    s0.Keeps (State.goDark s d p) := by
  unfold State.goDark
  try dsimp only
  repeat' (first
    | (with_reducible first | assumption | apply State_presenceChanged_keeps | apply State_modPair_keeps | apply keeps_ite)
    | with_reducible intro _)

theorem State_refreshRing_keeps {s0 : State} (s : State) (h0 : s0.Keeps s) :
    s0.Keeps (State.refreshRing s) := by
  unfold State.refreshRing
  try dsimp only
  repeat' (first | (with_reducible first | assumption | apply State_topology_keeps | apply keeps_ite) | with_reducible intro _)

theorem State_hear_keeps {s0 : State} (s : State) (d : Nat) (p : Nat) (a : List (BitVec 8)) (h0 : s0.Keeps s) :
    s0.Keeps (State.hear s d p a) := by
  unfold State.hear
  try dsimp only
  repeat' (first
    | (with_reducible first | assumption | apply State_modPair_keeps | apply State_refreshRing_keeps | apply State_settlePorts_keeps
                            | apply keeps_ite)
    | with_reducible intro _)

theorem State_noticeAll_keeps {s0 : State} (s : State) (code : Nat) (subject : Nat) (h0 : s0.Keeps s) :
    s0.Keeps (State.noticeAll s code subject) := by
  unfold State.noticeAll
  try dsimp only
  repeat' (first
    | (with_reducible first | assumption | apply State_modPanel_keeps | apply Panel_addLog_keeps | apply Panel_queueNotice_keeps
                            | apply State_gatherNotices_keeps | apply keeps_foldl | apply panel_foldl)
    | with_reducible intro _)

theorem State_partnerLost_keeps {s0 : State} (s : State) (j : Nat) (h0 : s0.Keeps s) :
    s0.Keeps (State.partnerLost s j) := by
  unfold State.partnerLost
  try dsimp only
  repeat' (first
    | (with_reducible first | assumption | apply State_noticeAll_keeps | apply State_modHearth_keeps | apply State_mramStops_keeps
                            | apply State_modPanel_keeps | apply panel_held)
    | simp only [keeps_mk, die_mk, mem_mk, panel_mk]
    | split)

theorem State_hearthFails_keeps {s0 : State} (s : State) (k' : Nat) (h0 : s0.Keeps s) :
    s0.Keeps (State.hearthFails s k') := by
  unfold State.hearthFails
  try dsimp only
  repeat' (first
    | (with_reducible first | assumption | apply State_modHearth_keeps | apply State_modPanel_keeps | apply State_partnerLost_keeps
                            | apply keeps_ite | apply panel_held)
    | simp only [keeps_mk, die_mk, mem_mk, panel_mk]
    | with_reducible intro _)

theorem State_hearthReadings_keeps {s0 : State} (s : State) (k' : Nat) (counts : List Nat) (h0 : s0.Keeps s) :
    s0.Keeps (State.hearthReadings s k' counts) := by
  unfold State.hearthReadings
  try dsimp only
  repeat' (first
    | (with_reducible first | assumption | apply State_modHearth_keeps | apply State_notice_keeps | apply State_hearthFails_keeps
                            | apply keeps_ite | apply keeps_foldl)
    | with_reducible intro _)

theorem State_holdKey_keeps {s0 : State} (s : State) (d : Nat) (key : Nat) (h0 : s0.Keeps s) :
    s0.Keeps (State.holdKey s d key).1 := by
  unfold State.holdKey
  try dsimp only
  repeat' (first
    | (with_reducible first | assumption | apply State_modPanel_keeps | apply panel_held)
    | simp only [keeps_mk, die_mk, mem_mk, panel_mk])

theorem State_holdThread_keeps {s0 : State} (s : State) (d : Nat) (o : Origin) (w : Wait) (h0 : s0.Keeps s) :
    s0.Keeps (State.holdThread s d o w) := by
  unfold State.holdThread
  try dsimp only
  repeat' (with_reducible first | assumption | apply State_modThread_keeps)

theorem State_launchPacket_keeps {s0 : State} (s : State) (d : Nat) (q : Packet) (h0 : s0.Keeps s) :
    s0.Keeps (State.launchPacket s d q) := by
  unfold State.launchPacket
  try dsimp only
  repeat' (first
    | (with_reducible first | assumption | apply State_traceFab_keeps | apply State_modDie_keeps | apply Die_enqueue_keeps
                            | apply keeps_ite | apply die_mem)
    | simp only [keeps_mk, die_mk, mem_mk, panel_mk]
    | with_reducible intro _)

theorem State_injectPkt_keeps {s0 : State} (s : State) (d : Nat) (rank : Nat) (die : Nat) (cls : Nat) (tr : List (BitVec 8)) (pl : List
    (BitVec 8)) (h0 : s0.Keeps s) :
    s0.Keeps (State.injectPkt s d rank die cls tr pl) := by
  unfold State.injectPkt
  try dsimp only
  repeat' (with_reducible first | assumption | apply State_launchPacket_keeps)

theorem State_reqRefused_keeps {s0 : State} (s : State) (d : Nat) (r : Req) (code : Nat) (h0 : s0.Keeps s) :
    s0.Keeps (State.reqRefused s d r code) := by
  unfold State.reqRefused
  try dsimp only
  repeat' (first
    | (with_reducible first | assumption | apply State_modDie_keeps | apply Die_remoteFault_keeps | apply Die_dropReq_keeps
                            | apply State_raise_keeps | apply State_stopDesc_keeps | apply Die_modChan_keeps)
    | with_reducible intro _
    | split)

theorem State_reqBytes_keeps {s0 : State} (s : State) (d : Nat) (r : Req) (h0 : s0.Keeps s) :
    s0.Keeps (State.reqBytes s d r).1 := by
  unfold State.reqBytes
  try dsimp only
  repeat' (first
    | (with_reducible first | assumption | apply State_panLoad_keeps | apply State_modDie_keeps | apply Die_readDone_keeps
                            | apply keeps_ite_fst)
    | simp only [keeps_mk, die_mk, mem_mk, panel_mk]
    | with_reducible intro _
    | split)

theorem State_injectReq_keeps {s0 : State} (s : State) (d : Nat) (r : Req) (h0 : s0.Keeps s) :
    s0.Keeps (State.injectReq s d r) := by
  unfold State.injectReq
  try dsimp only
  repeat' (first
    | (with_reducible first | assumption | apply State_modDie_keeps | apply State_reqRefused_keeps | apply State_reqBytes_keeps
                            | apply Die_dropReq_keeps | apply State_stopDesc_keeps | apply Die_modChan_keeps | apply State_raise_keeps
                            | apply Die_numberReq_keeps | apply State_launchPacket_keeps | apply State_setDie_keeps | apply keeps_ite
                            | apply keeps_die | apply die_mem)
    | simp only [keeps_mk, die_mk, mem_mk, panel_mk]
    | with_reducible intro _
    | split
    | with_reducible refine keeps_of_fst (by with_reducible assumption) ?_)

theorem State_inputLost_keeps {s0 : State} (s : State) (mv : Nat) (h0 : s0.Keeps s) :
    s0.Keeps (State.inputLost s mv) := by
  unfold State.inputLost
  try dsimp only
  repeat' (first
    | (with_reducible first | assumption | apply State_cold_keeps | apply State_modPanel_keeps | apply keeps_dies | apply keeps_panel
                            | apply die_mem | apply panel_held | apply dies_mapVal)
    | simp only [keeps_mk, die_mk, mem_mk, panel_mk]
    | with_reducible apply And.intro
    | with_reducible intro _)

theorem State_writeRegions_keeps {s0 : State} (s : State) (ns : List Nat) (h0 : s0.Keeps s) :
    s0.Keeps (State.writeRegions s ns) := by
  unfold State.writeRegions
  try dsimp only
  repeat' (first
    | (with_reducible first | assumption | apply State_modDie_keeps | apply keeps_ite | apply die_mem | apply mem_cells | apply keeps_foldl)
    | simp only [keeps_mk, die_mk, mem_mk, panel_mk]
    | with_reducible intro _
    | split)

theorem State_installMenu_keeps {s0 : State} (s : State) (m : Menu) (h0 : s0.Keeps s) :
    s0.Keeps (State.installMenu s m).1 := by
  unfold State.installMenu
  try dsimp only
  repeat' (first
    | (with_reducible first | assumption | apply State_done_keeps | apply State_copyMenu_keeps | apply State_writeRegions_keeps
                            | apply State_modPanel_keeps | apply keeps_dies | apply keeps_panel | apply panel_held)
    | simp only [keeps_mk, die_mk, mem_mk, panel_mk]
    | with_reducible apply And.intro
    | split)

theorem State_issue_keeps {s0 : State} (s : State) (d : Nat) (c : Nat) (t : Nat) (w : BitVec 64) (unit : Nat) (op : Nat)
    (act : State → Origin → State) (h0 : s0.Keeps s) (h1 : ∀ z0 z1, s0.Keeps z0 → (s0.Keeps (act z0 z1))) :
    s0.Keeps (State.issue s d c t w unit op act) := by
  unfold State.issue
  try dsimp only
  repeat' (first
    | (with_reducible first | assumption | apply State_raise_keeps | apply State_takeWord_keeps | apply State_runOff_keeps
                            | apply keeps_ite | apply h1)
    | with_reducible intro _)

theorem State_issueVec_keeps {s0 : State} (s : State) (d : Nat) (c : Nat) (t : Nat) (w : BitVec 64) (op : Nat) (h0 : s0.Keeps s) :
    s0.Keeps (State.issueVec s d c t w op) := by
  unfold State.issueVec
  try dsimp only
  repeat' (first
    | (with_reducible first | assumption | apply State_issue_keeps | apply State_checked_keeps | apply Die_freshKey_keeps
                            | apply State_setDie_keeps | apply Die_modVec_keeps | apply keeps_die)
    | with_reducible intro _)

theorem State_serveTake_keeps {s0 : State} (s : State) (d : Nat) (q : Nat) (h0 : s0.Keeps s) :
    s0.Keeps (State.serveTake s d q) := by
  unfold State.serveTake
  try dsimp only
  repeat' (first
    | (with_reducible first | assumption | apply State_raise_keeps | apply State_setDie_keeps | apply Die_panStore_keeps
                            | apply Die_setQueue_keeps | apply State_runOff_keeps | apply State_countTag_keeps
                            | apply State_modThread_keeps | apply keeps_ite | apply keeps_die)
    | with_reducible intro _
    | split)

theorem State_itemIn_keeps {s0 : State} (s : State) (d : Nat) (q : Nat) (h0 : s0.Keeps s) :
    s0.Keeps (State.itemIn s d q) := by
  unfold State.itemIn
  try dsimp only
  repeat' (first
    | (with_reducible first | assumption | apply State_modDie_keeps | apply Die_takeDesc_keeps | apply Die_setQueue_keeps
                            | apply State_serveTake_keeps | apply keeps_ite)
    | with_reducible intro _)

theorem State_jobOpen_keeps {s0 : State} (s : State) (pl : List (BitVec 8)) (h0 : s0.Keeps s) :
    s0.Keeps (State.jobOpen s pl).1 := by
  unfold State.jobOpen
  try dsimp only
  repeat' (first
    | (with_reducible first | assumption | apply State_done_keeps | apply State_modPanel_keeps | apply Panel_modHatch_keeps
                            | apply State_onActive_keeps | apply keeps_ite_fst | apply die_mem | apply panel_held | apply panel_foldl)
    | simp only [keeps_mk, die_mk, mem_mk, panel_mk]
    | with_reducible intro _)

theorem State_rewrite_keeps {s0 : State} (s : State) (d : Nat) (h0 : s0.Keeps s) :
    s0.Keeps (State.rewrite s d) := by
  unfold State.rewrite
  try dsimp only
  repeat' (first
    | (with_reducible first | assumption | apply State_modDie_keeps | apply Die_putRanks_keeps | apply die_mem | apply mem_cells)
    | simp only [keeps_mk, die_mk, mem_mk, panel_mk]
    | with_reducible intro _
    | split)

theorem State_resetEnds_keeps {s0 : State} (s : State) (subject : Nat) (step : Nat) (h0 : s0.Keeps s) :
    s0.Keeps (State.resetEnds s subject step) := by
  unfold State.resetEnds
  try dsimp only
  repeat' (with_reducible first | assumption | apply State_fresh_keeps | apply State_logEvent_keeps)

theorem State_join_keeps {s0 : State} (s : State) (d : Nat) (h0 : s0.Keeps s) :
    s0.Keeps (State.join s d) := by
  unfold State.join
  try dsimp only
  repeat' (first
    | (with_reducible first | assumption | apply State_rewrite_keeps | apply State_modPanel_keeps | apply State_resetEnds_keeps
                            | apply State_meshRoutes_keeps | apply State_topology_keeps | apply keeps_ite | apply panel_held)
    | simp only [keeps_mk, die_mk, mem_mk, panel_mk]
    | with_reducible intro _)

theorem State_katClosed_keeps {s0 : State} (s : State) (d : Nat) (h0 : s0.Keeps s) :
    s0.Keeps (State.katClosed s d) := by
  unfold State.katClosed
  try dsimp only
  repeat' (first
    | (with_reducible first | assumption | apply State_modPanel_keeps | apply State_modDie_keeps | apply die_mem | apply panel_held)
    | simp only [keeps_mk, die_mk, mem_mk, panel_mk])

theorem State_katCounts_keeps {s0 : State} (s : State) (d : Nat) (h0 : s0.Keeps s) :
    s0.Keeps (State.katCounts s d) := by
  unfold State.katCounts
  try dsimp only
  repeat' (first
    | (with_reducible first | assumption | apply State_fresh_keeps | apply State_modDie_keeps | apply keeps_ite | apply die_mem
                            | apply keeps_foldl)
    | simp only [keeps_mk, die_mk, mem_mk, panel_mk]
    | with_reducible intro _)

theorem State_katRequest_keeps {s0 : State} (s : State) (d : Nat) (unit : Nat) (h0 : s0.Keeps s) :
    s0.Keeps (State.katRequest s d unit) := by
  unfold State.katRequest
  try dsimp only
  repeat' (first
    | (with_reducible first | assumption | apply State_fresh_keeps | apply State_setDie_keeps | apply keeps_ite | apply keeps_die
                            | apply die_mem)
    | simp only [keeps_mk, die_mk, mem_mk, panel_mk]
    | with_reducible intro _)

theorem State_setManaged_keeps {s0 : State} (s : State) (d : Nat) (b : Bool) (h0 : s0.Keeps s) :
    s0.Keeps (State.setManaged s d b) := by
  unfold State.setManaged
  try dsimp only
  repeat' (first
    | (with_reducible first | assumption | apply State_modThermal_keeps | apply State_enterThrottle_keeps | apply keeps_ite)
    | with_reducible intro _)

theorem State_katStart_keeps {s0 : State} (s : State) (h' : Nat) (pl : List (BitVec 8)) (h0 : s0.Keeps s) :
    s0.Keeps (State.katStart s h' pl).1 := by
  unfold State.katStart
  try dsimp only
  repeat' (first
    | (with_reducible first | assumption | apply State_done_keeps | apply State_setManaged_keeps | apply State_modPanel_keeps
                            | apply keeps_ite_fst | apply panel_held | apply keeps_foldl)
    | simp only [keeps_mk, die_mk, mem_mk, panel_mk]
    | with_reducible intro _)

theorem State_keysPut_keeps {s0 : State} (s : State) (pl : List (BitVec 8)) (h0 : s0.Keeps s) :
    s0.Keeps (State.keysPut s pl).1 := by
  unfold State.keysPut
  try dsimp only
  repeat' (first
    | (with_reducible first | assumption | apply State_done_keeps | apply State_modPanel_keeps | apply Panel_modHatch_keeps
                            | apply keeps_ite_fst | apply panel_held)
    | simp only [keeps_mk, die_mk, mem_mk, panel_mk]
    | with_reducible intro _
    | split)

theorem State_launchGo_keeps {s0 : State} (s : State) (h' : Nat) (e : Entry) (h0 : s0.Keeps s) :
    s0.Keeps (State.launchGo s h' e) := by
  unfold State.launchGo
  try dsimp only
  repeat' (first
    | (with_reducible first | assumption | apply State_modMenu_keeps | apply State_setManaged_keeps | apply State_modDie_keeps
                            | apply Die_launch_keeps | apply State_reply_keeps | apply State_modEntry_keeps | apply keeps_foldl)
    | with_reducible intro _
    | split)

theorem State_lifelineAtReset_keeps {s0 : State} (s : State) (h0 : s0.Keeps s) :
    s0.Keeps (State.lifelineAtReset s) := by
  unfold State.lifelineAtReset
  try dsimp only
  repeat' (first
    | (with_reducible first | assumption | apply State_reply_keeps | apply State_modPanel_keeps | apply Panel_modHatch_keeps
                            | apply keeps_ite)
    | with_reducible intro _
    | split)

theorem State_lifelineNow_keeps {s0 : State} (s : State) (op : Nat) (pl : List (BitVec 8)) (h0 : s0.Keeps s) :
    s0.Keeps (State.lifelineNow s op pl) := by
  unfold State.lifelineNow
  try dsimp only
  repeat' (first
    | (with_reducible first | assumption | apply State_runRecord_keeps | apply State_lifeline_keeps | apply keeps_ite)
    | with_reducible intro _)

theorem State_sourceFailed_keeps {s0 : State} (s : State) (bay : Nat) (after : Nat) (h0 : s0.Keeps s) :
    s0.Keeps (State.sourceFailed s bay after) := by
  unfold State.sourceFailed
  try dsimp only
  repeat' (first
    | (with_reducible first | assumption | apply State_afterSwitch_keeps | apply State_endSwitch_keeps | apply State_modBay_keeps
                            | apply State_notice_keeps | apply State_feedFrom_keeps | apply State_modPort_keeps | apply keeps_ite
                            | apply keeps_foldl)
    | with_reducible intro _
    | split)

theorem State_lightReadings_keeps {s0 : State} (s : State) (l : List (Nat × Nat × Int)) (h0 : s0.Keeps s) :
    s0.Keeps (State.lightReadings s l) := by
  unfold State.lightReadings
  try dsimp only
  repeat' (first
    | (with_reducible first | assumption | apply State_modBay_keeps | apply State_sourceFailed_keeps | apply State_fadeLevel_keeps
                            | apply keeps_ite | apply keeps_foldl)
    | with_reducible intro _)

theorem State_linkExhausted_keeps {s0 : State} (s : State) (d : Nat) (p : Nat) (h0 : s0.Keeps s) :
    s0.Keeps (State.linkExhausted s d p) := by
  unfold State.linkExhausted
  try dsimp only
  repeat' (with_reducible first | assumption | apply State_presenceChanged_keeps | apply State_notice_keeps | apply State_modPair_keeps)

theorem State_unload_keeps {s0 : State} (s : State) (m : Menu) (h0 : s0.Keeps s) :
    s0.Keeps (State.unload s m) := by
  unfold State.unload
  try dsimp only
  repeat' (first
    | (with_reducible first | assumption | apply State_modPanel_keeps | apply State_writeRegions_keeps | apply keeps_dies
                            | apply keeps_panel | apply panel_held)
    | simp only [keeps_mk, die_mk, mem_mk, panel_mk]
    | with_reducible apply And.intro)

theorem State_liveMap_keeps {s0 : State} (s : State) (h0 : s0.Keeps s) :
    s0.Keeps (State.liveMap s) := by
  unfold State.liveMap
  try dsimp only
  repeat' (first
    | (with_reducible first | assumption | apply State_notice_keeps | apply State_modPanel_keeps | apply State_noticeTo_keeps
                            | apply State_unload_keeps | apply State_vacantNotice_keeps | apply keeps_dies | apply keeps_panel
                            | apply panel_held | apply keeps_foldl)
    | simp only [keeps_mk, die_mk, mem_mk, panel_mk]
    | with_reducible apply And.intro
    | with_reducible intro _)

theorem State_logKat_keeps {s0 : State} (s : State) (die : Nat) (r : List (BitVec 8)) (h0 : s0.Keeps s) :
    s0.Keeps (State.logKat s die r) := by
  unfold State.logKat
  try dsimp only
  repeat' (first
    | (with_reducible first | assumption | apply State_logEvent_keeps | apply State_notice_keeps | apply keeps_ite)
    | with_reducible intro _)

theorem State_measureLanes_keeps {s0 : State} (s : State) (d : Nat) (p : Nat) (h0 : s0.Keeps s) :
    s0.Keeps (State.measureLanes s d p) := by
  unfold State.measureLanes
  try dsimp only
  repeat' (first
    | (with_reducible first | assumption | apply State_fresh_keeps | apply State_modPair_keeps | apply keeps_ite)
    | with_reducible intro _)

theorem State_menuLoad_keeps {s0 : State} (s : State) (h' : Nat) (pl : List (BitVec 8)) (h0 : s0.Keeps s) :
    s0.Keeps (State.menuLoad s h' pl).1 := by
  unfold State.menuLoad
  try dsimp only
  repeat' (first
    | (with_reducible first | assumption | apply State_done_keeps | apply State_hearthRead_keeps | apply State_installMenu_keeps
                            | apply keeps_ite_fst)
    | with_reducible intro _
    | split
    | with_reducible refine keeps_of_fst (by with_reducible assumption) ?_)

theorem State_menuUnload_keeps {s0 : State} (s : State) (pl : List (BitVec 8)) (h0 : s0.Keeps s) :
    s0.Keeps (State.menuUnload s pl).1 := by
  unfold State.menuUnload
  try dsimp only
  repeat' (first
    | (with_reducible first | assumption | apply State_done_keeps | apply State_unload_keeps | apply keeps_ite_fst)
    | with_reducible intro _
    | split)

theorem State_meshHop_keeps {s0 : State} (s : State) (d : Nat) (i : Nat) (h' : Held) (r : Route) (h0 : s0.Keeps s) :
    s0.Keeps (State.meshHop s d i h' r) := by
  unfold State.meshHop
  try dsimp only
  repeat' (first
    | (with_reducible first | assumption | apply State_modDie_keeps | apply Die_countDrop_keeps | apply Die_unhold_keeps
                            | apply Die_bumpBoth_keeps | apply keeps_ite | apply die_ite | apply die_mem)
    | simp only [keeps_mk, die_mk, mem_mk, panel_mk]
    | with_reducible intro _
    | split)

theorem State_missBeacon_keeps {s0 : State} (s : State) (d : Nat) (p : Nat) (h0 : s0.Keeps s) :
    s0.Keeps (State.missBeacon s d p) := by
  unfold State.missBeacon
  try dsimp only
  repeat' (first
    | (with_reducible first | assumption | apply keeps_ite | apply keeps_dies | apply keeps_panel | apply panel_held)
    | simp only [keeps_mk, die_mk, mem_mk, panel_mk]
    | with_reducible apply And.intro
    | with_reducible intro _)

theorem State_modTile_keeps {s0 : State} (s : State) (d : Nat) (c : Nat) (i : Nat) (f : Tile → Tile) (h0 : s0.Keeps s) :
    s0.Keeps (State.modTile s d c i f) := by
  unfold State.modTile
  try dsimp only
  repeat' (first | (with_reducible first | assumption | apply State_modDie_keeps | apply Die_setTile_keeps) | with_reducible intro _)

theorem State_noticeRoute_keeps {s0 : State} (s : State) (pl : List (BitVec 8)) (h0 : s0.Keeps s) :
    s0.Keeps (State.noticeRoute s pl).1 := by
  unfold State.noticeRoute
  try dsimp only
  repeat' (first
    | (with_reducible first | assumption | apply State_done_keeps | apply State_modPanel_keeps | apply keeps_ite_fst | apply panel_held)
    | simp only [keeps_mk, die_mk, mem_mk, panel_mk]
    | with_reducible intro _)

theorem State_noticesAcked_keeps {s0 : State} (s : State) (h' : Nat) (last : Nat) (h0 : s0.Keeps s) :
    s0.Keeps (State.noticesAcked s h' last) := by
  unfold State.noticesAcked
  try dsimp only
  repeat' (first
    | (with_reducible first | assumption | apply State_modPanel_keeps | apply Panel_modHatch_keeps | apply Panel_freeCells_keeps
                            | apply State_gatherNotices_keeps | apply Panel_addLog_keeps | apply Panel_queueNotice_keeps | apply keeps_ite)
    | with_reducible intro _)

theorem State_orientFailed_keeps {s0 : State} (s : State) (d : Nat) (v : Nat) (h0 : s0.Keeps s) :
    s0.Keeps (State.orientFailed s d v) := by
  unfold State.orientFailed
  try dsimp only
  repeat' (first
    | (with_reducible first | assumption | apply State_modDie_keeps | apply State_hardFail_keeps | apply State_notice_keeps
                            | apply State_vacantNotice_keeps | apply die_mem)
    | simp only [keeps_mk, die_mk, mem_mk, panel_mk])

theorem State_ranksHeld_keeps {s0 : State} (s : State) (b : Bulk) (h0 : s0.Keeps s) :
    s0.Keeps (State.ranksHeld s b) := by
  unfold State.ranksHeld
  try dsimp only
  repeat' (first | (with_reducible first | assumption | apply State_commitTable_keeps | apply State_endBulk_keeps) | split)

theorem State_pageIn_keeps {s0 : State} (s : State) (b : Bulk) (k' : Nat) (bs : List (BitVec 8)) (h0 : s0.Keeps s) :
    s0.Keeps (State.pageIn s b k' bs) := by
  unfold State.pageIn
  try dsimp only
  repeat' (first
    | (with_reducible first | assumption | apply State_modBulk_keeps | apply State_ranksHeld_keeps | apply State_endBulk_keeps
                            | apply State_hearthWrite_keeps | apply State_ackDue_keeps | apply keeps_ite)
    | with_reducible intro _
    | split)

theorem State_pendingLifeline_keeps {s0 : State} (s : State) (h0 : s0.Keeps s) :
    s0.Keeps (State.pendingLifeline s) := by
  unfold State.pendingLifeline
  try dsimp only
  repeat' (first
    | (with_reducible first | assumption | apply State_finishRecord_keeps | apply State_lifeline_keeps | apply keeps_ite)
    | with_reducible intro _
    | split)

theorem State_perform_keeps {s0 : State} (s : State) (h' : Nat) (op : Nat) (f : State → Entry → Effect) (h0 : s0.Keeps s)
    (h1 : ∀ z0 z1, s0.Keeps z0 → (s0.Keeps (f z0 z1).1)) :
    s0.Keeps (State.perform s h' op f) := by
  unfold State.perform
  try dsimp only
  repeat' (first
    | (with_reducible first | assumption | apply State_finishEntry_keeps | apply State_stampHatch_keeps | apply keeps_ite | apply h1)
    | with_reducible intro _
    | split)

theorem State_phaseFailed_keeps {s0 : State} (s : State) (d : Nat) (phase : Nat) (h0 : s0.Keeps s) :
    s0.Keeps (State.phaseFailed s d phase) := by
  unfold State.phaseFailed
  try dsimp only
  repeat' (with_reducible first | assumption | apply State_holdKey_keeps | apply State_logKat_keeps | apply State_dieFailed_keeps)

theorem State_portReset_keeps {s0 : State} (s : State) (port : Nat) (h0 : s0.Keeps s) :
    s0.Keeps (State.portReset s port) := by
  unfold State.portReset
  try dsimp only
  repeat' (with_reducible first | assumption | apply State_portDown_keeps | apply State_logEvent_keeps)

theorem State_powerLimitSet_keeps {s0 : State} (s : State) (pl : Bytes) (h0 : s0.Keeps s) : s0.Keeps (s.powerLimitSet pl).1 := by
  unfold State.powerLimitSet
  dsimp only
  split
  · exact State_done_keeps _ _ h0
  · rename_i hp
    refine State_done_keeps _ _ ⟨h0.1, fun m => ?_, h0.2.2⟩
    obtain ⟨⟨_, _, c⟩, f⟩ := h0.2.1 m
    simp only [Bool.or_eq_true, decide_eq_true_eq, not_or, Nat.not_lt] at hp
    exact ⟨⟨hp.1.1.2, hp.1.2, c⟩, f⟩

theorem State_powerUp_keeps {s0 : State} (s : State) (d : Nat) (h0 : s0.Keeps s) :
    s0.Keeps (State.powerUp s d) := by
  unfold State.powerUp
  try dsimp only
  repeat' (first
    | (with_reducible first | assumption | apply State_modDie_keeps | apply die_mem)
    | simp only [keeps_mk, die_mk, mem_mk, panel_mk])

theorem State_putFlit_keeps {s0 : State} (s : State) (d : Nat) (p : Nat) (l : LinkWord) (b : Option Packet) (h0 : s0.Keeps s) :
    s0.Keeps (State.putFlit s d p l b) := by
  unfold State.putFlit
  try dsimp only
  repeat' (first
    | (with_reducible first | assumption | apply State_modPair_keeps | apply State_modDie_keeps | apply Die_countPort_keeps
                            | apply keeps_dies | apply keeps_panel)
    | simp only [keeps_mk, die_mk, mem_mk, panel_mk]
    | with_reducible apply And.intro
    | with_reducible intro _
    | split)

theorem State_queueFlush_keeps {s0 : State} (s : State) (e : Entry) (h0 : s0.Keeps s) :
    s0.Keeps (State.queueFlush s e).1 := by
  unfold State.queueFlush
  try dsimp only
  repeat' (first
    | (with_reducible first | assumption | apply State_done_keeps | apply State_modDie_keeps | apply Die_flushQueue_keeps
                            | apply Die_setQueue_keeps | apply keeps_ite_fst)
    | with_reducible intro _
    | split)

theorem State_raiseAbort_keeps {s0 : State} (s : State) (d : Nat) (i : Inst) (h0 : s0.Keeps s) :
    s0.Keeps (State.raiseAbort s d i) := by
  unfold State.raiseAbort
  try dsimp only
  repeat' (first
    | (with_reducible first | assumption | apply State_modDie_keeps | apply State_raise_keeps | apply State_noticeTo_keeps
                            | apply keeps_ite | apply die_mem)
    | simp only [keeps_mk, die_mk, mem_mk, panel_mk]
    | with_reducible intro _)

theorem State_readOutcome_keeps {s0 : State} (s : State) (d : Nat) (u : Consumer) (a : Nat) (good : Bool) (h0 : s0.Keeps s) :
    s0.Keeps (State.readOutcome s d u a good) := by
  unfold State.readOutcome
  try dsimp only
  repeat' (first
    | (with_reducible first | assumption | apply Die_bump_keeps | apply MemUnit_setFail_keeps | apply State_setDie_keeps
                            | apply keeps_ite | apply die_ite | apply keeps_die | apply die_mem)
    | simp only [keeps_mk, die_mk, mem_mk, panel_mk]
    | with_reducible intro _
    | split)

theorem State_siteMapPut_keeps {s0 : State} (s : State) (pl : List (BitVec 8)) (h0 : s0.Keeps s) :
    s0.Keeps (State.siteMapPut s pl).1 := by
  unfold State.siteMapPut
  try dsimp only
  repeat' (first
    | (with_reducible first | assumption | apply State_done_keeps | apply State_modPanel_keeps | apply keeps_ite_fst | apply panel_held)
    | simp only [keeps_mk, die_mk, mem_mk, panel_mk]
    | with_reducible intro _
    | split)

theorem State_regionCmd_keeps {s0 : State} (s : State) (pl : List (BitVec 8)) (f : Tab (Tab Region) →   List (Nat × Nat × Nat) → Tab
    (Tab Region) ⊕ Nat) (h0 : s0.Keeps s) :
    s0.Keeps (State.regionCmd s pl f).1 := by
  unfold State.regionCmd
  try dsimp only
  repeat' (first
    | (with_reducible first | assumption | apply State_done_keeps | apply State_writeRegions_keeps | apply State_modPanel_keeps
                            | apply keeps_ite_fst | apply panel_held)
    | simp only [keeps_mk, die_mk, mem_mk, panel_mk]
    | with_reducible intro _
    | split)

theorem State_replayFrom_keeps {s0 : State} (s : State) (d : Nat) (p : Nat) (first : Nat) (h0 : s0.Keeps s) :
    s0.Keeps (State.replayFrom s d p first) := by
  unfold State.replayFrom
  try dsimp only
  repeat' (with_reducible first | assumption | apply State_sendIdle_keeps | apply State_modPair_keeps)

theorem State_requestNotice_keeps {s0 : State} (s : State) (d : Nat) (r : Req) (code : Nat) (h0 : s0.Keeps s) :
    s0.Keeps (State.requestNotice s d r code) := by
  unfold State.requestNotice
  try dsimp only
  repeat' (first
    | (with_reducible first | assumption | apply State_notice_keeps | apply State_modDie_keeps | apply Die_remoteFault_keeps)
    | with_reducible intro _)

theorem State_resendNotices_keeps {s0 : State} (s : State) (h0 : s0.Keeps s) :
    s0.Keeps (State.resendNotices s) := by
  unfold State.resendNotices
  try dsimp only
  repeat' (first
    | (with_reducible first | assumption | apply Panel_modHatch_keeps | apply keeps_ite | apply keeps_dies | apply keeps_panel
                            | apply keeps_foldl)
    | simp only [keeps_mk, die_mk, mem_mk, panel_mk]
    | with_reducible apply And.intro
    | with_reducible intro _)

theorem State_restartSteps_keeps {s0 : State} (s : State) (d : Nat) (power : Bool) (links : List (Nat × Nat)) (mem : Bool)
    (h0 : s0.Keeps s) :
    s0.Keeps (State.restartSteps s d power links mem) := by
  unfold State.restartSteps
  try dsimp only
  repeat' (first
    | (with_reducible first | assumption | apply State_powerUp_keeps | apply State_phaseFailed_keeps | apply State_meshRoutes_keeps
                            | apply State_modPanel_keeps | apply State_modDie_keeps | apply Die_train_keeps | apply keeps_ite
                            | apply panel_held | apply keeps_foldl)
    | simp only [keeps_mk, die_mk, mem_mk, panel_mk]
    | with_reducible intro _)

theorem State_scrubKat_keeps {s0 : State} (s : State) (d : Nat) (h0 : s0.Keeps s) :
    s0.Keeps (State.scrubKat s d) := by
  unfold State.scrubKat
  try dsimp only
  repeat' (first
    | (with_reducible first | assumption | apply State_fresh_keeps | apply State_modDie_keeps | apply MemUnit_panWrite_keeps
                            | apply die_mem | apply mem_cells | apply cells_write | apply mem_foldl)
    | simp only [keeps_mk, die_mk, mem_mk, panel_mk]
    | with_reducible intro _)

theorem State_sendLocal_keeps {s0 : State} (s : State) (d : Nat) (o : Origin) (off : Nat) (pan : Nat) (n : Nat) (h0 : s0.Keeps s) :
    s0.Keeps (State.sendLocal s d o off pan n) := by
  unfold State.sendLocal
  try dsimp only
  repeat' (first
    | (with_reducible first | assumption | apply Die_freshKey_keeps | apply State_fresh_keeps | apply State_raise_keeps
                            | apply Die_admit_keeps | apply State_setDie_keeps | apply State_panLoad_keeps | apply State_countTag_keeps
                            | apply State_modDie_keeps | apply Die_setQueue_keeps | apply keeps_ite | apply keeps_die)
    | with_reducible intro _
    | split)

theorem State_serveRead_keeps {s0 : State} (s : State) (d : Nat) (kind : Nat) (f : Die → Packet → Die × (Bytes ⊕ Nat)) (h0 : s0.Keeps s)
    (h1 : ∀ z0 z1, Die.Ok s0 z0 → (Die.Ok s0 (f z0 z1).1)) :
    s0.Keeps (State.serveRead s d kind f) := by
  unfold State.serveRead
  try dsimp only
  repeat' (first
    | (with_reducible first | assumption | apply Die_take_keeps | apply Die_serveData_keeps | apply Die_markApplied_keeps
                            | apply Die_ackTo_keeps | apply State_setDie_keeps | apply die_ite | apply keeps_die | apply h1)
    | simp only [keeps_mk, die_mk, mem_mk, panel_mk]
    | with_reducible intro _
    | split
    | with_reducible refine Die_takeRx_keeps ?_ (by with_reducible assumption))

theorem State_shutdownExit_keeps {s0 : State} (s : State) (d : Nat) (h0 : s0.Keeps s) :
    s0.Keeps (State.shutdownExit s d) := by
  unfold State.shutdownExit
  try dsimp only
  repeat' (first
    | (with_reducible first | assumption | apply State_modDie_keeps | apply State_thermalNotice_keeps | apply keeps_ite | apply die_mem)
    | simp only [keeps_mk, die_mk, mem_mk, panel_mk]
    | with_reducible intro _)

theorem State_skilletLoad_keeps {s0 : State} (s : State) (d : Nat) (c : Nat) (o : Origin) (tile : Tile) (tr : Bool) (i : Nat)
    (h0 : s0.Keeps s) :
    s0.Keeps (State.skilletLoad s d c o tile tr i) := by
  unfold State.skilletLoad
  try dsimp only
  repeat' (first
    | (with_reducible first | assumption | apply Die_freshKey_keeps | apply State_setDie_keeps | apply Die_sweepGroups_keeps
                            | apply Die_pushLoad_keeps | apply Die_modGang_keeps | apply keeps_die)
    | split)

theorem State_skilletWaits_keeps {s0 : State} (s : State) (d : Nat) (c : Nat) (h0 : s0.Keeps s) :
    s0.Keeps (State.skilletWaits s d c) := by
  unfold State.skilletWaits
  try dsimp only
  repeat' (first
    | (with_reducible first | assumption | apply State_modDie_keeps | apply Die_countWait_keeps | apply keeps_ite)
    | with_reducible intro _)

theorem State_stackReports_keeps {s0 : State} (s : State) (d : Nat) (a : Nat) (h0 : s0.Keeps s) :
    s0.Keeps (State.stackReports s d a) := by
  unfold State.stackReports
  try dsimp only
  repeat' (first
    | (with_reducible first | assumption | apply State_fresh_keeps | apply State_modDie_keeps | apply keeps_ite | apply die_mem
                            | apply mem_cells)
    | simp only [keeps_mk, die_mk, mem_mk, panel_mk]
    | with_reducible intro _)

theorem State_startHalf_keeps {s0 : State} (s : State) (d : Nat) (h' : Nat) (h0 : s0.Keeps s) :
    s0.Keeps (State.startHalf s d h') := by
  unfold State.startHalf
  try dsimp only
  repeat' (first
    | (with_reducible first | assumption | apply State_modDie_keeps | apply Die_modHalf_keeps | apply keeps_ite | apply keeps_dies
                            | apply keeps_panel)
    | simp only [keeps_mk, die_mk, mem_mk, panel_mk]
    | with_reducible apply And.intro
    | with_reducible intro _)

theorem State_startKats_keeps {s0 : State} (s : State) (h0 : s0.Keeps s) :
    s0.Keeps (State.startKats s) := by
  unfold State.startKats
  try dsimp only
  repeat' (first
    | (with_reducible first | assumption | apply State_modPanel_keeps | apply panel_held | apply keeps_foldl)
    | simp only [keeps_mk, die_mk, mem_mk, panel_mk]
    | with_reducible intro _)

theorem State_startMenus_keeps {s0 : State} (s : State) (h0 : s0.Keeps s) :
    s0.Keeps (State.startMenus s) := by
  unfold State.startMenus
  try dsimp only
  repeat' (first
    | (with_reducible first | assumption | apply State_modMenu_keeps | apply State_modDie_keeps | apply State_startHalf_keeps
                            | apply keeps_ite | apply die_mem | apply keeps_foldl)
    | simp only [keeps_mk, die_mk, mem_mk, panel_mk]
    | with_reducible intro _)

theorem State_stepPorts_keeps {s0 : State} (s : State) (h0 : s0.Keeps s) :
    s0.Keeps (State.stepPorts s) := by
  unfold State.stepPorts
  try dsimp only
  repeat' (first
    | (with_reducible first | assumption | apply State_feedPort_keeps | apply State_afterSwitch_keeps | apply State_modPort_keeps
                            | apply keeps_ite | apply keeps_foldl)
    | with_reducible intro _)

theorem State_stepDone_keeps {s0 : State} (s : State) (ok0 : Bool) (ok1 : Bool) (failed : List (Nat × Nat)) (h0 : s0.Keeps s) :
    s0.Keeps (State.stepDone s ok0 ok1 failed) := by
  unfold State.stepDone
  try dsimp only
  repeat' (first
    | (with_reducible first | assumption | apply State_modPanel_keeps | apply State_modHearth_keeps | apply State_hearthFails_keeps
                            | apply State_modBay_keeps | apply State_bootRoles_keeps | apply State_liveMap_keeps
                            | apply State_phaseFailed_keeps | apply State_orientFailed_keeps | apply State_shutdownExit_keeps
                            | apply State_vacantNotice_keeps | apply State_powerUp_keeps | apply State_meshRoutes_keeps
                            | apply State_modDie_keeps | apply Die_train_keeps | apply State_startKats_keeps
                            | apply State_stepPorts_keeps | apply State_settlePorts_keeps | apply State_rewrite_keeps | apply keeps_ite
                            | apply panel_held | apply keeps_foldl)
    | simp only [keeps_mk, die_mk, mem_mk, panel_mk]
    | with_reducible intro _
    | split)

theorem State_tagMet_keeps {s0 : State} (s : State) (d : Nat) (o : Origin) (k' : Nat) (n : Nat) (h0 : s0.Keeps s) :
    s0.Keeps (State.tagMet s d o k' n) := by
  unfold State.tagMet
  try dsimp only
  repeat' (with_reducible first | assumption | apply State_countTag_keeps | apply State_modThread_keeps)

theorem State_takeLanes_keeps {s0 : State} (s : State) (d : Nat) (p : Nat) (f : IdleFrame) (h0 : s0.Keeps s) :
    s0.Keeps (State.takeLanes s d p f) := by
  unfold State.takeLanes
  try dsimp only
  repeat' (first
    | (with_reducible first | assumption | apply State_modPair_keeps | apply State_sendIdle_keeps | apply keeps_ite)
    | with_reducible intro _)

theorem State_takeOutputs_keeps {s0 : State} (s : State) (d : Nat) (b : Nat) (h0 : s0.Keeps s) :
    s0.Keeps (State.takeOutputs s d b) := by
  unfold State.takeOutputs
  try dsimp only
  repeat' (first
    | (with_reducible first | assumption | apply State_modDie_keeps | apply Die_forget_keeps | apply State_modInst_keeps
                            | apply State_abortCause_keeps | apply keeps_ite | apply keeps_foldl)
    | with_reducible intro _
    | split)

theorem State_takePause_keeps {s0 : State} (s : State) (d : Nat) (p : Nat) (f : IdleFrame) (h0 : s0.Keeps s) :
    s0.Keeps (State.takePause s d p f) := by
  unfold State.takePause
  try dsimp only
  repeat' (first
    | (with_reducible first | assumption | apply State_sendIdle_keeps | apply State_modPair_keeps | apply keeps_ite)
    | with_reducible intro _)

theorem State_vecFinish_keeps {s0 : State} (s : State) (d : Nat) (c : Nat) (k' : VecCmd) (h0 : s0.Keeps s) :
    s0.Keeps (State.vecFinish s d c k') := by
  unfold State.vecFinish
  try dsimp only
  repeat' (first
    | (with_reducible first | assumption | apply State_panScans_keeps | apply Die_modVec_keeps | apply Die_writeRows_keeps
                            | apply State_setDie_keeps | apply State_digestRows_keeps | apply State_releaseLeave_keeps
                            | apply State_countTag_keeps | apply keeps_ite | apply keeps_die)
    | with_reducible intro _)

theorem State_whiskVecDone_keeps {s0 : State} (s : State) (d : Nat) (b : Nat) (c : Nat) (op : Nat) (h0 : s0.Keeps s) :
    s0.Keeps (State.whiskVecDone s d b c op) := by
  unfold State.whiskVecDone
  try dsimp only
  repeat' (first
    | (with_reducible first | assumption | apply State_panStore_keeps | apply State_submitOpt_keeps | apply State_modInst_keeps
                            | apply State_whiskWrite_keeps | apply State_progress_keeps | apply State_wakeJoins_keeps | apply keeps_ite)
    | with_reducible intro _
    | split)

theorem State_withFetchWord_keeps {s0 : State} (s : State) (nbits : Nat) (w : Nat) (h0 : s0.Keeps s) :
    s0.Keeps (State.withFetchWord s nbits w) := by
  unfold State.withFetchWord
  try dsimp only
  repeat' (first
    | (with_reducible first | assumption | apply keeps_dies | apply keeps_panel)
    | simp only [keeps_mk, die_mk, mem_mk, panel_mk]
    | with_reducible apply And.intro
    | split)

end Sys2Proof.Machine
end

