-- ==== Sys2Proof/Laws/KeepsRows.lean ====
section
/-! SUPPORT. The rows keep what `Sys2Proof.Laws.Keeps` names: the cells of every kiln stay canonical, what the hearths hold stays legal, and
the fuses are as they were. One lemma per row, by the lemmas of what it calls. -/

open Sys2Proof

namespace Sys2Proof.Machine

set_option linter.unusedVariables false
set_option linter.unusedSimpArgs false

theorem execJobOpen_keeps {s0 : State} (h' : Nat) (s : State) (h0 : s0.Keeps s) :
    OutKeeps s0 (execJobOpen h' s) := by
  unfold execJobOpen
  try dsimp only
  repeat' (first
    | (with_reducible first | assumption | apply out_keeps | apply State_perform_keeps | apply State_jobOpen_keeps)
    | with_reducible intro _)

theorem execJobClose_keeps {s0 : State} (h' : Nat) (s : State) (h0 : s0.Keeps s) :
    OutKeeps s0 (execJobClose h' s) := by
  unfold execJobClose
  try dsimp only
  repeat' (first
    | (with_reducible first | assumption | apply out_keeps | apply State_perform_keeps | apply State_jobClose_keeps)
    | with_reducible intro _)

theorem execTeardown_keeps {s0 : State} (h' : Nat) (s : State) (h0 : s0.Keeps s) :
    OutKeeps s0 (execTeardown h' s) := by
  unfold execTeardown
  try dsimp only
  repeat' (first
    | (with_reducible first | assumption | apply out_keeps | apply State_perform_keeps | apply State_teardown_keeps)
    | with_reducible intro _)

theorem execEvict_keeps {s0 : State} (h' : Nat) (s : State) (h0 : s0.Keeps s) :
    OutKeeps s0 (execEvict h' s) := by
  unfold execEvict
  try dsimp only
  repeat' (first
    | (with_reducible first | assumption | apply out_keeps | apply State_perform_keeps | apply State_evict_keeps)
    | with_reducible intro _)

theorem execFabricPut_keeps {s0 : State} (h' : Nat) (s : State) (h0 : s0.Keeps s) :
    OutKeeps s0 (execFabricPut h' s) := by
  unfold execFabricPut
  try dsimp only
  repeat' (first
    | (with_reducible first | assumption | apply out_keeps | apply State_perform_keeps | apply State_fabricPut_keeps)
    | with_reducible intro _)

theorem execRankTablePut_keeps {s0 : State} (h' : Nat) (s : State) (h0 : s0.Keeps s) :
    OutKeeps s0 (execRankTablePut h' s) := by
  unfold execRankTablePut
  try dsimp only
  repeat' (first
    | (with_reducible first | assumption | apply out_keeps | apply State_finishEntry_keeps | apply State_ranksHeld_keeps
                            | apply State_bulksGo_keeps | apply State_modPanel_keeps | apply keeps_ite | apply panel_held)
    | simp only [keeps_mk, die_mk, mem_mk, panel_mk]
    | with_reducible intro _
    | split)

theorem execSiteMapPut_keeps {s0 : State} (h' : Nat) (s : State) (h0 : s0.Keeps s) :
    OutKeeps s0 (execSiteMapPut h' s) := by
  unfold execSiteMapPut
  try dsimp only
  repeat' (first
    | (with_reducible first | assumption | apply out_keeps | apply State_perform_keeps | apply State_siteMapPut_keeps)
    | with_reducible intro _)

theorem execPowerLimitSet_keeps {s0 : State} (h' : Nat) (s : State) (h0 : s0.Keeps s) :
    OutKeeps s0 (execPowerLimitSet h' s) := by
  unfold execPowerLimitSet
  try dsimp only
  repeat' (first
    | (with_reducible first | assumption | apply out_keeps | apply State_perform_keeps | apply State_powerLimitSet_keeps)
    | with_reducible intro _)

theorem execNoticeRoute_keeps {s0 : State} (h' : Nat) (s : State) (h0 : s0.Keeps s) :
    OutKeeps s0 (execNoticeRoute h' s) := by
  unfold execNoticeRoute
  try dsimp only
  repeat' (first
    | (with_reducible first | assumption | apply out_keeps | apply State_perform_keeps | apply State_noticeRoute_keeps)
    | with_reducible intro _)

theorem keeps_after_ite {s0 t : State} {c : Prop} [Decidable c] {x y : Nat × (State → State)} (hx : s0.Keeps (x.2 t)) (hy : s0.Keeps
    (y.2 t)) :
    s0.Keeps ((if c then x else y).2 t) :=
  iteInduction (motive := fun (v : Nat × (State → State)) => s0.Keeps (v.2 t)) (fun _ => hx) (fun _ => hy)

theorem State_resetOf_keeps {s0 t : State} (s : State) (pl : Bytes) (h0 : s0.Keeps t) : s0.Keeps ((s.resetOf pl).2 t) := by
  unfold State.resetOf
  dsimp only
  repeat' (with_reducible apply keeps_after_ite)
  all_goals dsimp only
  all_goals first
    | with_reducible exact State_dieReset_keeps _ _ h0
    | with_reducible exact State_portReset_keeps _ _ h0
    | with_reducible exact State_panelWarm_keeps _ h0
    | exact h0

theorem execReset_keeps {s0 : State} (h' : Nat) (s : State) (h0 : s0.Keeps s) :
    OutKeeps s0 (@execReset h' s) := by
  unfold execReset
  refine out_keeps ?_
  split
  · exact h0
  · split
    · exact h0
    · exact State_resetOf_keeps _ _ (State_finishEntry_keeps _ _ _ _ _ h0)

theorem execFirmwarePut_keeps {s0 : State} (h' : Nat) (s : State) (h0 : s0.Keeps s) :
    OutKeeps s0 (execFirmwarePut h' s) := by
  unfold execFirmwarePut
  try dsimp only
  repeat' (first
    | (with_reducible first | assumption | apply out_keeps | apply State_perform_keeps | apply State_firmwarePut_keeps)
    | with_reducible intro _)

theorem execFirmwareActivate_keeps {s0 : State} (h' : Nat) (s : State) (h0 : s0.Keeps s) :
    OutKeeps s0 (execFirmwareActivate h' s) := by
  unfold execFirmwareActivate
  try dsimp only
  repeat' (first
    | (with_reducible first | assumption | apply out_keeps | apply State_activateOf_keeps | apply State_finishEntry_keeps
                            | apply State_panelWarm_keeps | apply keeps_ite)
    | with_reducible intro _
    | split)

theorem execKeysPut_keeps {s0 : State} (h' : Nat) (s : State) (h0 : s0.Keeps s) :
    OutKeeps s0 (execKeysPut h' s) := by
  unfold execKeysPut
  try dsimp only
  repeat' (first
    | (with_reducible first | assumption | apply out_keeps | apply State_perform_keeps | apply State_keysPut_keeps
                            | apply State_stampHatch_keeps | apply keeps_ite)
    | with_reducible intro _)

theorem execBulkPut_keeps {s0 : State} (h' : Nat) (s : State) (h0 : s0.Keeps s) :
    OutKeeps s0 (execBulkPut h' s) := by
  unfold execBulkPut
  try dsimp only
  repeat' (with_reducible first | assumption | apply out_keeps | apply State_bulkStart_keeps)

theorem execBulkGet_keeps {s0 : State} (h' : Nat) (s : State) (h0 : s0.Keeps s) :
    OutKeeps s0 (execBulkGet h' s) := by
  unfold execBulkGet
  try dsimp only
  repeat' (with_reducible first | assumption | apply out_keeps | apply State_bulkStart_keeps)

theorem execRegionPut_keeps {s0 : State} (h' : Nat) (s : State) (h0 : s0.Keeps s) :
    OutKeeps s0 (execRegionPut h' s) := by
  unfold execRegionPut
  try dsimp only
  repeat' (first
    | (with_reducible first | assumption | apply out_keeps | apply State_perform_keeps | apply State_regionCmd_keeps)
    | with_reducible intro _)

theorem execRegionDelete_keeps {s0 : State} (h' : Nat) (s : State) (h0 : s0.Keeps s) :
    OutKeeps s0 (execRegionDelete h' s) := by
  unfold execRegionDelete
  try dsimp only
  repeat' (first
    | (with_reducible first | assumption | apply out_keeps | apply State_perform_keeps | apply State_regionCmd_keeps)
    | with_reducible intro _)

theorem execMenuLoad_keeps {s0 : State} (h' : Nat) (s : State) (h0 : s0.Keeps s) :
    OutKeeps s0 (execMenuLoad h' s) := by
  unfold execMenuLoad
  try dsimp only
  repeat' (first
    | (with_reducible first | assumption | apply out_keeps | apply State_perform_keeps | apply State_menuLoad_keeps)
    | with_reducible intro _)

theorem execMenuUnload_keeps {s0 : State} (h' : Nat) (s : State) (h0 : s0.Keeps s) :
    OutKeeps s0 (execMenuUnload h' s) := by
  unfold execMenuUnload
  try dsimp only
  repeat' (first
    | (with_reducible first | assumption | apply out_keeps | apply State_perform_keeps | apply State_menuUnload_keeps)
    | with_reducible intro _)

theorem execCollPlanPut_keeps {s0 : State} (h' : Nat) (s : State) (h0 : s0.Keeps s) :
    OutKeeps s0 (execCollPlanPut h' s) := by
  unfold execCollPlanPut
  try dsimp only
  repeat' (first
    | (with_reducible first | assumption | apply out_keeps | apply State_perform_keeps | apply State_collPlanPut_keeps)
    | with_reducible intro _)

theorem execCollPlanDelete_keeps {s0 : State} (h' : Nat) (s : State) (h0 : s0.Keeps s) :
    OutKeeps s0 (execCollPlanDelete h' s) := by
  unfold execCollPlanDelete
  try dsimp only
  repeat' (first
    | (with_reducible first | assumption | apply out_keeps | apply State_perform_keeps | apply State_collPlanDelete_keeps)
    | with_reducible intro _)

theorem execQueueFlush_keeps {s0 : State} (h' : Nat) (s : State) (h0 : s0.Keeps s) :
    OutKeeps s0 (execQueueFlush h' s) := by
  unfold execQueueFlush
  try dsimp only
  repeat' (with_reducible first | assumption | apply out_keeps | apply State_perform_keeps | apply State_queueFlush_keeps)

theorem State_redo_keeps {s0 : State} (s : State) (h' : Nat) (op : Nat) (h0 : s0.Keeps s) :
    s0.Keeps (State.redo s h' op) := by
  unfold State.redo
  split
  · exact keeps_nextOf (execJobOpen_keeps _ _ h0) h0
  · exact keeps_nextOf (execJobClose_keeps _ _ h0) h0
  · exact keeps_nextOf (execTeardown_keeps _ _ h0) h0
  · exact keeps_nextOf (execEvict_keeps _ _ h0) h0
  · exact keeps_nextOf (execFabricPut_keeps _ _ h0) h0
  · exact keeps_nextOf (execRankTablePut_keeps _ _ h0) h0
  · exact keeps_nextOf (execSiteMapPut_keeps _ _ h0) h0
  · exact keeps_nextOf (execPowerLimitSet_keeps _ _ h0) h0
  · exact keeps_nextOf (execNoticeRoute_keeps _ _ h0) h0
  · exact keeps_nextOf (execReset_keeps _ _ h0) h0
  · exact keeps_nextOf (execFirmwarePut_keeps _ _ h0) h0
  · exact keeps_nextOf (execFirmwareActivate_keeps _ _ h0) h0
  · exact keeps_nextOf (execKeysPut_keeps _ _ h0) h0
  · exact keeps_nextOf (execBulkPut_keeps _ _ h0) h0
  · exact keeps_nextOf (execBulkGet_keeps _ _ h0) h0
  · exact keeps_nextOf (execRegionPut_keeps _ _ h0) h0
  · exact keeps_nextOf (execRegionDelete_keeps _ _ h0) h0
  · exact keeps_nextOf (execMenuLoad_keeps _ _ h0) h0
  · exact keeps_nextOf (execMenuUnload_keeps _ _ h0) h0
  · exact keeps_nextOf (execCollPlanPut_keeps _ _ h0) h0
  · exact keeps_nextOf (execCollPlanDelete_keeps _ _ h0) h0
  · exact keeps_nextOf (execQueueFlush_keeps _ _ h0) h0
  · exact h0

theorem State_replayEntry_keeps {s0 : State} (failover : Bool) (s : State) (e : Entry) (h0 : s0.Keeps s) :
    s0.Keeps (State.replayEntry failover s e) := by
  unfold State.replayEntry
  try dsimp only
  repeat' (first
    | (with_reducible first | assumption | apply State_finishEntry_keeps | apply State_redo_keeps | apply keeps_ite)
    | with_reducible intro _)

theorem State_replay_keeps {s0 : State} (s : State) (failover : Bool) (h0 : s0.Keeps s) :
    s0.Keeps (State.replay s failover) := by
  unfold State.replay
  try dsimp only
  repeat' (first
    | (with_reducible first | assumption | apply State_modDie_keeps | apply State_modPanel_keeps | apply State_replayEntry_keeps
                            | apply die_mem | apply panel_held | apply keeps_foldl)
    | simp only [keeps_mk, die_mk, mem_mk, panel_mk]
    | with_reducible intro _)

theorem State_serveAtLast_keeps {s0 : State} (s : State) (h0 : s0.Keeps s) :
    s0.Keeps (State.serveAtLast s) := by
  unfold State.serveAtLast
  try dsimp only
  repeat' (first
    | (with_reducible first | assumption | apply State_fresh_keeps | apply State_modPanel_keeps | apply State_replay_keeps
                            | apply State_logEvent_keeps | apply State_modPort_keeps | apply State_notice_keeps
                            | apply State_noticeTo_keeps | apply State_lifelineAtReset_keeps | apply keeps_ite | apply panel_held
                            | apply keeps_foldl)
    | simp only [keeps_mk, die_mk, mem_mk, panel_mk]
    | with_reducible intro _)

theorem execAbort_keeps {s0 : State} (d : Nat) (s : State) (h0 : s0.Keeps s) :
    OutKeeps s0 (execAbort d s) := by
  unfold execAbort
  try dsimp only
  repeat' (with_reducible first | assumption | apply out_keeps | apply State_ctlRow_keeps)

theorem execAbortRaise_keeps {s0 : State} (d : Nat) (b : Nat) (s : State) (h0 : s0.Keeps s) :
    OutKeeps s0 (execAbortRaise d b s) := by
  unfold execAbortRaise
  try dsimp only
  repeat' (first
    | (with_reducible first | assumption | apply out_keeps | apply State_raiseAbort_keeps | apply State_modDie_keeps
                            | apply State_modInst_keeps | apply die_mem)
    | simp only [keeps_mk, die_mk, mem_mk, panel_mk]
    | split)

theorem execAccumulatorClose_keeps {s0 : State} (d : Nat) (c : Nat) (off : Nat) (s : State) (h0 : s0.Keeps s) :
    OutKeeps s0 (execAccumulatorClose d c off s) := by
  unfold execAccumulatorClose
  try dsimp only
  repeat' (first
    | (with_reducible first | assumption | apply out_keeps | apply Die_sieveWrite_keeps | apply State_setDie_keeps | apply keeps_ite
                            | apply die_ite | apply keeps_die | apply die_mem | apply die_foldl)
    | simp only [keeps_mk, die_mk, mem_mk, panel_mk]
    | with_reducible intro _)

theorem execAck_keeps {s0 : State} (d : Nat) (s : State) (h0 : s0.Keeps s) :
    OutKeeps s0 (execAck d s) := by
  unfold execAck
  try dsimp only
  repeat' (first
    | (with_reducible first | assumption | apply out_keeps | apply State_setDie_keeps | apply Die_dupResponse_keeps
                            | apply State_requestNotice_keeps | apply Die_modReq_keeps | apply Die_completed_keeps
                            | apply State_reqRefused_keeps | apply State_reqDone_keeps | apply keeps_ite | apply keeps_die)
    | with_reducible intro _
    | split
    | with_reducible refine Die_takeRx_keeps ?_ (by with_reducible assumption))

theorem execAdamw_keeps {s0 : State} (d : Nat) (c : Nat) (t : Nat) (w : BitVec 64) (s : State) (h0 : s0.Keeps s) :
    OutKeeps s0 (execAdamw d c t w s) := by
  unfold execAdamw
  try dsimp only
  repeat' (with_reducible first | assumption | apply out_keeps | apply State_issueVec_keeps)

theorem execAdd_keeps {s0 : State} (d : Nat) (c : Nat) (t : Nat) (w : BitVec 64) (s : State) (h0 : s0.Keeps s) :
    OutKeeps s0 (execAdd d c t w s) := by
  unfold execAdd
  try dsimp only
  repeat' (with_reducible first | assumption | apply out_keeps | apply State_issueVec_keeps)

theorem execAddCtr_keeps {s0 : State} (d : Nat) (c : Nat) (t : Nat) (w : BitVec 64) (s : State) (h0 : s0.Keeps s) :
    OutKeeps s0 (execAddCtr d c t w s) := by
  unfold execAddCtr
  try dsimp only
  repeat' (first
    | (with_reducible first | assumption | apply out_keeps | apply State_issue_keeps | apply State_raise_keeps
                            | apply State_countTag_keeps | apply State_modThread_keeps | apply keeps_ite)
    | with_reducible intro _)

theorem execAgreeUp_keeps {s0 : State} (d : Nat) (s : State) (h0 : s0.Keeps s) :
    OutKeeps s0 (execAgreeUp d s) := by
  unfold execAgreeUp
  try dsimp only
  repeat' (with_reducible first | assumption | apply out_keeps | apply State_ctlRow_keeps)

theorem execAnswerHeard_keeps {s0 : State} (d : Nat) (p : Nat) (full : Bool) (s : State) (h0 : s0.Keeps s) :
    OutKeeps s0 (execAnswerHeard d p full s) := by
  unfold execAnswerHeard
  try dsimp only
  repeat' (first
    | (with_reducible first | assumption | apply out_keeps | apply State_modPair_keeps | apply keeps_ite)
    | with_reducible intro _)

theorem execAtomic_keeps {s0 : State} (d : Nat) (c : Nat) (t : Nat) (w : BitVec 64) (s : State) (h0 : s0.Keeps s) :
    OutKeeps s0 (execAtomic d c t w s) := by
  unfold execAtomic
  try dsimp only
  repeat' (first
    | (with_reducible first | assumption | apply out_keeps | apply State_issue_keeps | apply State_checked_keeps
                            | apply State_panLoad_keeps | apply Die_freshKey_keeps | apply Die_addReqs_keeps
                            | apply State_holdThread_keeps | apply State_setDie_keeps | apply keeps_die | apply die_mem)
    | simp only [keeps_mk, die_mk, mem_mk, panel_mk]
    | with_reducible intro _)

theorem execAtomicPacket_keeps {s0 : State} (d : Nat) (s : State) (h0 : s0.Keeps s) :
    OutKeeps s0 (execAtomicPacket d s) := by
  unfold execAtomicPacket
  try dsimp only
  repeat' (first
    | (with_reducible first | assumption | apply out_keeps | apply Die_take_keeps | apply State_setDie_keeps | apply Die_respond_keeps
                            | apply Die_ackTo_keeps | apply Die_busyTo_keeps | apply Die_applyAtomic_keeps | apply Die_setTgt_keeps
                            | apply keeps_ite | apply keeps_die)
    | with_reducible intro _
    | split
    | with_reducible refine Die_takeRx_keeps ?_ (by with_reducible assumption))

theorem execAttestGet_keeps {s0 : State} (h' : Nat) (pl : List (BitVec 8)) (s : State) (h0 : s0.Keeps s) :
    OutKeeps s0 (execAttestGet h' pl s) := by
  unfold execAttestGet
  try dsimp only
  repeat' (with_reducible first | assumption | apply out_keeps | apply State_doRead_keeps)

theorem execAxpby_keeps {s0 : State} (d : Nat) (c : Nat) (t : Nat) (w : BitVec 64) (s : State) (h0 : s0.Keeps s) :
    OutKeeps s0 (execAxpby d c t w s) := by
  unfold execAxpby
  try dsimp only
  repeat' (with_reducible first | assumption | apply out_keeps | apply State_issueVec_keeps)

theorem execBeaconSend_keeps {s0 : State} (d : Nat) (p : Nat) (phase : Nat) (s : State) (h0 : s0.Keeps s) :
    OutKeeps s0 (execBeaconSend d p phase s) := by
  unfold execBeaconSend
  try dsimp only
  repeat' (first
    | (with_reducible first | assumption | apply out_keeps | apply State_missBeacon_keeps | apply State_sendIdle_keeps
                            | apply State_modTime_keeps | apply keeps_ite)
    | with_reducible intro _)

theorem execBlockRead_keeps {s0 : State} (d : Nat) (s : State) (h0 : s0.Keeps s) :
    OutKeeps s0 (execBlockRead d s) := by
  unfold execBlockRead
  try dsimp only
  repeat' (with_reducible first | assumption | apply out_keeps | apply State_serveRead_keeps | apply Die_blockBytes_keeps)

theorem execBothHearthsFailed_keeps {s0 : State} (s : State) (h0 : s0.Keeps s) :
    OutKeeps s0 (execBothHearthsFailed s) := by
  unfold execBothHearthsFailed
  try dsimp only
  repeat' (first
    | (with_reducible first | assumption | apply out_keeps | apply State_panelWarm_keeps | apply keeps_ite)
    | with_reducible intro _)

theorem execBounce_keeps {s0 : State} (d : Nat) (s : State) (h0 : s0.Keeps s) :
    OutKeeps s0 (execBounce d s) := by
  unfold execBounce
  try dsimp only
  repeat' (first
    | (with_reducible first | assumption | apply out_keeps | apply State_setDie_keeps | apply State_notice_keeps | apply keeps_ite
                            | apply keeps_die | apply die_mem)
    | simp only [keeps_mk, die_mk, mem_mk, panel_mk]
    | with_reducible intro _
    | split)

theorem execBranch_keeps {s0 : State} (d : Nat) (c : Nat) (t : Nat) (w : BitVec 64) (s : State) (h0 : s0.Keeps s) :
    OutKeeps s0 (execBranch d c t w s) := by
  unfold execBranch
  try dsimp only
  repeat' (first
    | (with_reducible first | assumption | apply out_keeps | apply State_issue_keeps | apply State_raise_keeps
                            | apply State_countTag_keeps | apply State_modThread_keeps | apply keeps_ite)
    | with_reducible intro _
    | split)

theorem execBridgeClaim_keeps {s0 : State} (k' : Nat) (stale : Bool) (s : State) (h0 : s0.Keeps s) :
    OutKeeps s0 (execBridgeClaim k' stale s) := by
  unfold execBridgeClaim
  try dsimp only
  repeat' (first
    | (with_reducible first | assumption | apply out_keeps | apply State_modPanel_keeps | apply keeps_ite | apply panel_held)
    | simp only [keeps_mk, die_mk, mem_mk, panel_mk]
    | with_reducible intro _)

theorem execBringUpStart_keeps {s0 : State} (s : State) (h0 : s0.Keeps s) :
    OutKeeps s0 (execBringUpStart s) := by
  unfold execBringUpStart
  try dsimp only
  repeat' (first
    | (with_reducible first | assumption | apply out_keeps | apply State_shutdownExit_keeps | apply State_modPanel_keeps
                            | apply keeps_ite | apply panel_held | apply keeps_foldl)
    | simp only [keeps_mk, die_mk, mem_mk, panel_mk]
    | with_reducible intro _)

theorem execBringUpStepDone_keeps {s0 : State} (ok0 : Bool) (ok1 : Bool) (failed : List (Nat × Nat)) (s : State) (h0 : s0.Keeps s) :
    OutKeeps s0 (execBringUpStepDone ok0 ok1 failed s) := by
  unfold execBringUpStepDone
  try dsimp only
  repeat' (first
    | (with_reducible first | assumption | apply out_keeps | apply State_serveAtLast_keeps | apply State_stepDone_keeps | apply keeps_ite)
    | with_reducible intro _)

theorem execBucketFire_keeps {s0 : State} (d : Nat) (b : Nat) (s : State) (h0 : s0.Keeps s) :
    OutKeeps s0 (execBucketFire d b s) := by
  unfold execBucketFire
  try dsimp only
  repeat' (first
    | (with_reducible first | assumption | apply out_keeps | apply State_fireInst_keeps | apply keeps_ite)
    | with_reducible intro _)

theorem execBudgetRecompute_keeps {s0 : State} (busbar : Nat) (leave : Nat) (s : State) (h0 : s0.Keeps s) :
    OutKeeps s0 (execBudgetRecompute busbar leave s) := by
  unfold execBudgetRecompute
  try dsimp only
  repeat' (first
    | (with_reducible first | assumption | apply out_keeps | apply State_modDie_keeps | apply State_modPanel_keeps
                            | apply State_notice_keeps | apply keeps_ite | apply die_mem | apply panel_held | apply keeps_foldl)
    | simp only [keeps_mk, die_mk, mem_mk, panel_mk]
    | with_reducible intro _)

theorem execBulkAbandoned_keeps {s0 : State} (h' : Nat) (s : State) (h0 : s0.Keeps s) :
    OutKeeps s0 (execBulkAbandoned h' s) := by
  unfold execBulkAbandoned
  try dsimp only
  repeat' (first
    | (with_reducible first | assumption | apply out_keeps | apply State_endBulk_keeps | apply keeps_ite)
    | with_reducible intro _
    | split)

theorem execBulkAck_keeps {s0 : State} (dg : List (BitVec 8)) (s : State) (h0 : s0.Keeps s) :
    OutKeeps s0 (execBulkAck dg s) := by
  unfold execBulkAck
  try dsimp only
  repeat' (first
    | (with_reducible first | assumption | apply out_keeps | apply State_arrive_keeps | apply State_bulkAcked_keeps | apply keeps_ite)
    | with_reducible intro _
    | split)

theorem execBulkAckTimer_keeps {s0 : State} (h' : Nat) (s : State) (h0 : s0.Keeps s) :
    OutKeeps s0 (execBulkAckTimer h' s) := by
  unfold execBulkAckTimer
  try dsimp only
  repeat' (first
    | (with_reducible first | assumption | apply out_keeps | apply State_sendBulkAck_keeps | apply keeps_ite | apply keeps_foldl)
    | with_reducible intro _)

theorem execBulkData_keeps {s0 : State} (dg : List (BitVec 8)) (s : State) (h0 : s0.Keeps s) :
    OutKeeps s0 (execBulkData dg s) := by
  unfold execBulkData
  try dsimp only
  repeat' (first
    | (with_reducible first | assumption | apply out_keeps | apply State_arrive_keeps | apply State_pageIn_keeps | apply keeps_ite)
    | with_reducible intro _
    | split)

theorem execBusbarDip_keeps {s0 : State} (mv : Nat) (s : State) (h0 : s0.Keeps s) :
    OutKeeps s0 (execBusbarDip mv s) := by
  unfold execBusbarDip
  try dsimp only
  repeat' (first
    | (with_reducible first | assumption | apply out_keeps | apply State_modPanel_keeps | apply State_notice_keeps | apply keeps_ite
                            | apply panel_held)
    | simp only [keeps_mk, die_mk, mem_mk, panel_mk]
    | with_reducible intro _)

theorem execBusbarHigh_keeps {s0 : State} (mv : Nat) (s : State) (h0 : s0.Keeps s) :
    OutKeeps s0 (execBusbarHigh mv s) := by
  unfold execBusbarHigh
  try dsimp only
  repeat' (first
    | (with_reducible first | assumption | apply out_keeps | apply State_modPanel_keeps | apply State_notice_keeps | apply keeps_ite
                            | apply panel_held)
    | simp only [keeps_mk, die_mk, mem_mk, panel_mk]
    | with_reducible intro _)

theorem execBusbarLoss_keeps {s0 : State} (mv : Nat) (s : State) (h0 : s0.Keeps s) :
    OutKeeps s0 (execBusbarLoss mv s) := by
  unfold execBusbarLoss
  try dsimp only
  repeat' (first
    | (with_reducible first | assumption | apply out_keeps | apply State_inputLost_keeps | apply keeps_ite)
    | with_reducible intro _)

theorem execBusbarOvervoltage_keeps {s0 : State} (mv : Nat) (s : State) (h0 : s0.Keeps s) :
    OutKeeps s0 (execBusbarOvervoltage mv s) := by
  unfold execBusbarOvervoltage
  try dsimp only
  repeat' (first
    | (with_reducible first | assumption | apply out_keeps | apply State_inputLost_keeps | apply keeps_ite)
    | with_reducible intro _)

theorem execBusy_keeps {s0 : State} (d : Nat) (s : State) (h0 : s0.Keeps s) :
    OutKeeps s0 (execBusy d s) := by
  unfold execBusy
  try dsimp only
  repeat' (first
    | (with_reducible first | assumption | apply out_keeps | apply State_setDie_keeps | apply Die_dupResponse_keeps
                            | apply Die_modReq_keeps | apply keeps_die | apply die_mem)
    | simp only [keeps_mk, die_mk, mem_mk, panel_mk]
    | split
    | with_reducible refine Die_takeRx_keeps ?_ (by with_reducible assumption))

theorem execCack_keeps {s0 : State} (d : Nat) (s : State) (h0 : s0.Keeps s) :
    OutKeeps s0 (execCack d s) := by
  unfold execCack
  try dsimp only
  repeat' (first
    | (with_reducible first | assumption | apply out_keeps | apply State_setDie_keeps | apply State_modInst_keeps | apply keeps_die)
    | split
    | with_reducible refine Die_takeRx_keeps ?_ (by with_reducible assumption))

theorem execCall_keeps {s0 : State} (d : Nat) (p : Nat) (s : State) (h0 : s0.Keeps s) :
    OutKeeps s0 (execCall d p s) := by
  unfold execCall
  try dsimp only
  repeat' (first
    | (with_reducible first | assumption | apply out_keeps | apply State_modPair_keeps | apply keeps_ite)
    | with_reducible intro _)

theorem execCallEnd_keeps {s0 : State} (d : Nat) (p : Nat) (s : State) (h0 : s0.Keeps s) :
    OutKeeps s0 (execCallEnd d p s) := by
  unfold execCallEnd
  try dsimp only
  repeat' (first
    | (with_reducible first | assumption | apply out_keeps | apply State_modPair_keeps | apply keeps_ite)
    | with_reducible intro _)

theorem execChunkAck_keeps {s0 : State} (d : Nat) (s : State) (h0 : s0.Keeps s) :
    OutKeeps s0 (execChunkAck d s) := by
  unfold execChunkAck
  try dsimp only
  repeat' (with_reducible first | assumption | apply out_keeps | apply State_ctlRow_keeps)

theorem execChunkData_keeps {s0 : State} (d : Nat) (s : State) (h0 : s0.Keeps s) :
    OutKeeps s0 (execChunkData d s) := by
  unfold execChunkData
  try dsimp only
  repeat' (first
    | (with_reducible first | assumption | apply out_keeps | apply State_setDie_keeps | apply State_ctlSend_keeps
                            | apply State_modInst_keeps | apply State_chunkVerified_keeps | apply State_chunkFailed_keeps
                            | apply keeps_ite | apply keeps_die)
    | with_reducible intro _
    | split
    | with_reducible refine Die_takeRx_keeps ?_ (by with_reducible assumption))

theorem execChunkSend_keeps {s0 : State} (d : Nat) (b : Nat) (s : State) (h0 : s0.Keeps s) :
    OutKeeps s0 (execChunkSend d b s) := by
  unfold execChunkSend
  try dsimp only
  repeat' (first
    | (with_reducible first | assumption | apply out_keeps | apply State_badRank_keeps | apply State_takeSource_keeps
                            | apply State_modInst_keeps | apply State_modDie_keeps | apply Die_chunkPackets_keeps | apply keeps_ite
                            | apply die_mem)
    | simp only [keeps_mk, die_mk, mem_mk, panel_mk]
    | with_reducible intro _
    | split)

theorem execChunkTimeout_keeps {s0 : State} (d : Nat) (b : Nat) (key : Nat) (s : State) (h0 : s0.Keeps s) :
    OutKeeps s0 (execChunkTimeout d b key s) := by
  unfold execChunkTimeout
  try dsimp only
  repeat' (first
    | (with_reducible first | assumption | apply out_keeps | apply State_chunkFailed_keeps | apply keeps_ite)
    | with_reducible intro _
    | split)

theorem execCntCtl_keeps {s0 : State} (d : Nat) (c : Nat) (t : Nat) (w : BitVec 64) (s : State) (h0 : s0.Keeps s) :
    OutKeeps s0 (execCntCtl d c t w s) := by
  unfold execCntCtl
  try dsimp only
  repeat' (first
    | (with_reducible first | assumption | apply out_keeps | apply State_issue_keeps | apply State_settle_keeps
                            | apply State_checked_keeps | apply State_countTag_keeps | apply State_modDie_keeps | apply die_mem)
    | simp only [keeps_mk, die_mk, mem_mk, panel_mk]
    | with_reducible intro _)

theorem execCntRead_keeps {s0 : State} (d : Nat) (c : Nat) (t : Nat) (w : BitVec 64) (s0' : State) (h0 : s0.Keeps (s0')) :
    OutKeeps s0 (execCntRead d c t w s0') := by
  unfold execCntRead
  try dsimp only
  repeat' (first
    | (with_reducible first | assumption | apply out_keeps | apply State_issue_keeps | apply State_settle_keeps
                            | apply State_checked_keeps | apply State_countTag_keeps | apply State_panStore_keeps | apply keeps_ite)
    | with_reducible intro _)

theorem execColDotAcc_keeps {s0 : State} (d : Nat) (c : Nat) (t : Nat) (w : BitVec 64) (s : State) (h0 : s0.Keeps s) :
    OutKeeps s0 (execColDotAcc d c t w s) := by
  unfold execColDotAcc
  try dsimp only
  repeat' (with_reducible first | assumption | apply out_keeps | apply State_issueVec_keeps)

theorem execColSumAcc_keeps {s0 : State} (d : Nat) (c : Nat) (t : Nat) (w : BitVec 64) (s : State) (h0 : s0.Keeps s) :
    OutKeeps s0 (execColSumAcc d c t w s) := by
  unfold execColSumAcc
  try dsimp only
  repeat' (with_reducible first | assumption | apply out_keeps | apply State_issueVec_keeps)

theorem execColdReset_keeps {s0 : State} (s : State) (h0 : s0.Keeps s) :
    OutKeeps s0 (execColdReset s) := by
  unfold execColdReset
  try dsimp only
  repeat' (with_reducible first | assumption | apply out_keeps | apply State_cold_keeps | apply State_logEvent_keeps)

theorem execCollTimeout_keeps {s0 : State} (d : Nat) (b : Nat) (s : State) (h0 : s0.Keeps s) :
    OutKeeps s0 (execCollTimeout d b s) := by
  unfold execCollTimeout
  try dsimp only
  repeat' (first
    | (with_reducible first | assumption | apply out_keeps | apply State_abortCause_keeps | apply keeps_ite)
    | with_reducible intro _)

theorem execCommandAccept_keeps {s0 : State} (dg : List (BitVec 8)) (s : State) (h0 : s0.Keeps s) :
    OutKeeps s0 (execCommandAccept dg s) := by
  unfold execCommandAccept
  try dsimp only
  repeat' (first
    | (with_reducible first | assumption | apply out_keeps | apply State_arrive_keeps | apply State_command_keeps)
    | with_reducible intro _)

theorem execCommandExecuteStart_keeps {s0 : State} (h' : Nat) (s : State) (h0 : s0.Keeps s) :
    OutKeeps s0 (execCommandExecuteStart h' s) := by
  unfold execCommandExecuteStart
  try dsimp only
  repeat' (first
    | (with_reducible first | assumption | apply out_keeps | apply State_modEntry_keeps | apply keeps_ite)
    | with_reducible intro _
    | split)

theorem execConvert_keeps {s0 : State} (d : Nat) (c : Nat) (t : Nat) (w : BitVec 64) (s : State) (h0 : s0.Keeps s) :
    OutKeeps s0 (execConvert d c t w s) := by
  unfold execConvert
  try dsimp only
  repeat' (with_reducible first | assumption | apply out_keeps | apply State_issueVec_keeps)

theorem execCopy_keeps {s0 : State} (d : Nat) (ch : Nat) (s : State) (h0 : s0.Keeps s) :
    OutKeeps s0 (execCopy d ch s) := by
  unfold execCopy
  try dsimp only
  repeat' (with_reducible first | assumption | apply out_keeps | apply State_descStart_keeps)

theorem execCourseFetchDone_keeps {s0 : State} (d : Nat) (c : Nat) (s : State) (h0 : s0.Keeps s) :
    OutKeeps s0 (execCourseFetchDone d c s) := by
  unfold execCourseFetchDone
  try dsimp only
  repeat' (first
    | (with_reducible first | assumption | apply out_keeps | apply State_modDie_keeps | apply Die_modSeq_keeps | apply Die_readDone_keeps
                            | apply keeps_ite)
    | with_reducible intro _
    | split)

theorem execCourseStart_keeps {s0 : State} (d : Nat) (c : Nat) (lag : Nat) (s : State) (h0 : s0.Keeps s) :
    OutKeeps s0 (execCourseStart d c lag s) := by
  unfold execCourseStart
  try dsimp only
  repeat' (first
    | (with_reducible first | assumption | apply out_keeps | apply State_courseFinished_keeps | apply State_modDie_keeps
                            | apply Die_modSeq_keeps | apply State_raiseAt_keeps | apply keeps_ite)
    | with_reducible intro _
    | split)

theorem execCourseWatchdog_keeps {s0 : State} (d : Nat) (c : Nat) (s : State) (h0 : s0.Keeps s) :
    OutKeeps s0 (execCourseWatchdog d c s) := by
  unfold execCourseWatchdog
  try dsimp only
  repeat' (first
    | (with_reducible first | assumption | apply out_keeps | apply State_raiseAt_keeps | apply keeps_ite)
    | with_reducible intro _
    | split)

theorem execCredit_keeps {s0 : State} (d : Nat) (s : State) (h0 : s0.Keeps s) :
    OutKeeps s0 (execCredit d s) := by
  unfold execCredit
  try dsimp only
  repeat' (with_reducible first | assumption | apply out_keeps | apply State_ctlRow_keeps)

theorem execCtlRepeatTimeout_keeps {s0 : State} (d : Nat) (b : Nat) (key : Nat) (s : State) (h0 : s0.Keeps s) :
    OutKeeps s0 (execCtlRepeatTimeout d b key s) := by
  unfold execCtlRepeatTimeout
  try dsimp only
  repeat' (first
    | (with_reducible first | assumption | apply out_keeps | apply State_badRank_keeps | apply State_modDie_keeps | apply keeps_ite
                            | apply die_mem)
    | simp only [keeps_mk, die_mk, mem_mk, panel_mk]
    | with_reducible intro _
    | split)

theorem execData_keeps {s0 : State} (d : Nat) (s : State) (h0 : s0.Keeps s) :
    OutKeeps s0 (execData d s) := by
  unfold execData
  try dsimp only
  repeat' (first
    | (with_reducible first | assumption | apply out_keeps | apply State_setDie_keeps | apply Die_dupResponse_keeps
                            | apply Die_modReq_keeps | apply Die_panStore_keeps | apply Die_completed_keeps | apply State_reqDone_keeps
                            | apply State_blockCame_keeps | apply keeps_ite | apply die_ite | apply keeps_die)
    | with_reducible intro _
    | split
    | with_reducible refine Die_takeRx_keeps ?_ (by with_reducible assumption))

theorem execDataPhaseStart_keeps {s0 : State} (d : Nat) (b : Nat) (s : State) (h0 : s0.Keeps s) :
    OutKeeps s0 (execDataPhaseStart d b s) := by
  unfold execDataPhaseStart
  try dsimp only
  repeat' (first
    | (with_reducible first | assumption | apply out_keeps | apply State_grantCredit_keeps | apply State_modInst_keeps
                            | apply State_progress_keeps | apply State_takeOutputs_keeps | apply State_finishSum_keeps
                            | apply State_takeSource_keeps | apply State_submitOpt_keeps | apply keeps_ite | apply keeps_foldl)
    | with_reducible intro _)

theorem execDiePowerOff_keeps {s0 : State} (pl : List (BitVec 8)) (s : State) (h0 : s0.Keeps s) :
    OutKeeps s0 (execDiePowerOff pl s) := by
  unfold execDiePowerOff
  try dsimp only
  repeat' (with_reducible first | assumption | apply out_keeps | apply State_lifelineNow_keeps)

theorem execDiePwrOn_keeps {s0 : State} (d : Nat) (v : Nat) (s : State) (h0 : s0.Keeps s) :
    OutKeeps s0 (execDiePwrOn d v s) := by
  unfold execDiePwrOn
  try dsimp only
  repeat' (first
    | (with_reducible first | assumption | apply out_keeps | apply Die_domainOff_keeps | apply State_presenceChanged_keeps
                            | apply State_setDie_keeps | apply keeps_ite | apply keeps_die | apply die_mem | apply die_foldl)
    | simp only [keeps_mk, die_mk, mem_mk, panel_mk]
    | with_reducible intro _)

theorem execDieRead_keeps {s0 : State} (h' : Nat) (pl : List (BitVec 8)) (s : State) (h0 : s0.Keeps s) :
    OutKeeps s0 (execDieRead h' pl s) := by
  unfold execDieRead
  try dsimp only
  repeat' (with_reducible first | assumption | apply out_keeps | apply State_doRead_keeps)

theorem execDieResetRestart_keeps {s0 : State} (f : Restarting) (s : State) (h0 : s0.Keeps s) :
    OutKeeps s0 (execDieResetRestart f s) := by
  unfold execDieResetRestart
  try dsimp only
  repeat' (first
    | (with_reducible first | assumption | apply out_keeps | apply State_resetEnds_keeps | apply State_modPanel_keeps
                            | apply State_orientFailed_keeps | apply State_restartSteps_keeps | apply State_modDie_keeps
                            | apply keeps_ite | apply die_mem | apply panel_held)
    | simp only [keeps_mk, die_mk, mem_mk, panel_mk]
    | with_reducible intro _
    | split)

theorem execDigestFeed_keeps {s0 : State} (d : Nat) (c : Nat) (t : Nat) (w : BitVec 64) (s : State) (h0 : s0.Keeps s) :
    OutKeeps s0 (execDigestFeed d c t w s) := by
  unfold execDigestFeed
  try dsimp only
  repeat' (with_reducible first | assumption | apply out_keeps | apply State_issueVec_keeps)

theorem execEndThread_keeps {s0 : State} (d : Nat) (c : Nat) (t : Nat) (w : BitVec 64) (s : State) (h0 : s0.Keeps s) :
    OutKeeps s0 (execEndThread d c t w s) := by
  unfold execEndThread
  try dsimp only
  repeat' (first
    | (with_reducible first | assumption | apply out_keeps | apply State_issue_keeps | apply State_raise_keeps
                            | apply State_modThread_keeps | apply State_countTag_keeps | apply State_courseFinished_keeps | apply keeps_ite)
    | with_reducible intro _)

theorem execFabFence_keeps {s0 : State} (d : Nat) (v : Nat) (s : State) (h0 : s0.Keeps s) :
    OutKeeps s0 (execFabFence d v s) := by
  unfold execFabFence
  try dsimp only
  repeat' (first
    | (with_reducible first | assumption | apply out_keeps | apply State_modDie_keeps | apply keeps_ite | apply die_mem)
    | simp only [keeps_mk, die_mk, mem_mk, panel_mk]
    | with_reducible intro _)

theorem execFabricGet_keeps {s0 : State} (h' : Nat) (pl : List (BitVec 8)) (s : State) (h0 : s0.Keeps s) :
    OutKeeps s0 (execFabricGet h' pl s) := by
  unfold execFabricGet
  try dsimp only
  repeat' (with_reducible first | assumption | apply out_keeps | apply State_doRead_keeps)

theorem execFailLine_keeps {s0 : State} (k' : Nat) (s : State) (h0 : s0.Keeps s) :
    OutKeeps s0 (execFailLine k' s) := by
  unfold execFailLine
  try dsimp only
  repeat' (with_reducible first | assumption | apply out_keeps | apply State_hearthFails_keeps)

theorem execFence_keeps {s0 : State} (d : Nat) (c : Nat) (t : Nat) (w : BitVec 64) (s : State) (h0 : s0.Keeps s) :
    OutKeeps s0 (execFence d c t w s) := by
  unfold execFence
  try dsimp only
  repeat' (first
    | (with_reducible first | assumption | apply out_keeps | apply State_issue_keeps | apply State_checked_keeps
                            | apply State_holdThread_keeps | apply State_countTag_keeps | apply keeps_ite)
    | with_reducible intro _)

theorem execFenceComplete_keeps {s0 : State} (d : Nat) (c : Nat) (t : Nat) (s : State) (h0 : s0.Keeps s) :
    OutKeeps s0 (execFenceComplete d c t s) := by
  unfold execFenceComplete
  try dsimp only
  repeat' (first
    | (with_reducible first | assumption | apply out_keeps | apply State_runOff_keeps | apply State_countTag_keeps
                            | apply State_modThread_keeps | apply keeps_ite)
    | with_reducible intro _
    | split)

theorem execFill_keeps {s0 : State} (d : Nat) (ch : Nat) (s : State) (h0 : s0.Keeps s) :
    OutKeeps s0 (execFill d ch s) := by
  unfold execFill
  try dsimp only
  repeat' (with_reducible first | assumption | apply out_keeps | apply State_descStart_keeps)

theorem execFinishRepeat_keeps {s0 : State} (s : State) (h0 : s0.Keeps s) :
    OutKeeps s0 (execFinishRepeat s) := by
  unfold execFinishRepeat
  try dsimp only
  repeat' (first
    | (with_reducible first | assumption | apply out_keeps | apply State_replyFor_keeps | apply keeps_ite | apply keeps_foldl)
    | with_reducible intro _)

theorem execFirmwareWatchdog_keeps {s0 : State} (k' : Nat) (s : State) (h0 : s0.Keeps s) :
    OutKeeps s0 (execFirmwareWatchdog k' s) := by
  unfold execFirmwareWatchdog
  try dsimp only
  repeat' (first
    | (with_reducible first | assumption | apply out_keeps | apply State_hearthFails_keeps | apply keeps_ite)
    | with_reducible intro _)

theorem execFlip_keeps {s0 : State} (d : Nat) (c : Nat) (t : Nat) (w : BitVec 64) (s : State) (h0 : s0.Keeps s) :
    OutKeeps s0 (execFlip d c t w s) := by
  unfold execFlip
  try dsimp only
  repeat' (first
    | (with_reducible first | assumption | apply out_keeps | apply State_issue_keeps | apply State_checked_keeps
                            | apply Die_freshKey_keeps | apply State_setDie_keeps | apply Die_pushFlip_keeps | apply Die_modGang_keeps
                            | apply keeps_ite | apply keeps_die)
    | with_reducible intro _)

theorem execFlipTakeEffect_keeps {s0 : State} (d : Nat) (a : Nat) (s : State) (h0 : s0.Keeps s) :
    OutKeeps s0 (execFlipTakeEffect d a s) := by
  unfold execFlipTakeEffect
  try dsimp only
  repeat' (first
    | (with_reducible first | assumption | apply out_keeps | apply Die_bump_keeps | apply Die_modArr_keeps
                            | apply State_skilletWaits_keeps | apply State_setDie_keeps | apply State_countTag_keeps | apply keeps_ite
                            | apply keeps_die)
    | with_reducible intro _
    | split)

theorem execFlitReceive_keeps {s0 : State} (d : Nat) (p : Nat) (flit : List (BitVec 8)) (corrected : Nat) (uncorrectable : Nat)
    (s : State) (h0 : s0.Keeps s) :
    OutKeeps s0 (execFlitReceive d p flit corrected uncorrectable s) := by
  unfold execFlitReceive
  try dsimp only
  repeat' (first
    | (with_reducible first | assumption | apply out_keeps | apply State_modPair_keeps | apply State_sendIdle_keeps
                            | apply State_modDie_keeps | apply Die_takeBody_keeps | apply keeps_ite)
    | with_reducible intro _)

theorem execFlitSend_keeps {s0 : State} (d : Nat) (p : Nat) (s : State) (h0 : s0.Keeps s) :
    OutKeeps s0 (execFlitSend d p s) := by
  unfold execFlitSend
  try dsimp only
  repeat' (first
    | (with_reducible first | assumption | apply out_keeps | apply State_sendIdle_keeps | apply State_measureLanes_keeps
                            | apply State_modPair_keeps | apply State_modDie_keeps | apply Die_countPort_keeps
                            | apply State_putFlit_keeps | apply State_setDie_keeps | apply Die_countDrop_keeps | apply Die_freeSlot_keeps
                            | apply Die_modPair_keeps | apply Die_bumpBoth_keeps | apply keeps_ite | apply die_ite | apply keeps_dies
                            | apply keeps_panel | apply keeps_die | apply die_mem)
    | simp only [keeps_mk, die_mk, mem_mk, panel_mk]
    | with_reducible apply And.intro
    | with_reducible intro _
    | split)

theorem execFlush_keeps {s0 : State} (d : Nat) (q : Nat) (s : State) (h0 : s0.Keeps s) :
    OutKeeps s0 (execFlush d q s) := by
  unfold execFlush
  try dsimp only
  repeat' (first
    | (with_reducible first | assumption | apply out_keeps | apply State_modDie_keeps | apply Die_flushQueue_keeps | apply keeps_ite)
    | with_reducible intro _)

theorem execFma_keeps {s0 : State} (d : Nat) (c : Nat) (t : Nat) (w : BitVec 64) (s : State) (h0 : s0.Keeps s) :
    OutKeeps s0 (execFma d c t w s) := by
  unfold execFma
  try dsimp only
  repeat' (with_reducible first | assumption | apply out_keeps | apply State_issueVec_keeps)

theorem execFork_keeps {s0 : State} (d : Nat) (c : Nat) (t : Nat) (w : BitVec 64) (s : State) (h0 : s0.Keeps s) :
    OutKeeps s0 (execFork d c t w s) := by
  unfold execFork
  try dsimp only
  repeat' (first
    | (with_reducible first | assumption | apply out_keeps | apply State_issue_keeps | apply State_raise_keeps
                            | apply State_countTag_keeps | apply State_modThread_keeps | apply keeps_ite)
    | with_reducible intro _
    | split)

theorem execGatewayExclusionExpiry_keeps {s0 : State} (d : Nat) (g : Nat) (s : State) (h0 : s0.Keeps s) :
    OutKeeps s0 (execGatewayExclusionExpiry d g s) := by
  unfold execGatewayExclusionExpiry
  try dsimp only
  repeat' (first
    | (with_reducible first | assumption | apply out_keeps | apply State_modDie_keeps | apply die_mem)
    | simp only [keeps_mk, die_mk, mem_mk, panel_mk])

theorem execGather_keeps {s0 : State} (d : Nat) (ch : Nat) (s : State) (h0 : s0.Keeps s) :
    OutKeeps s0 (execGather d ch s) := by
  unfold execGather
  try dsimp only
  repeat' (with_reducible first | assumption | apply out_keeps | apply State_descStart_keeps)

theorem execGatherGranuleRead_keeps {s0 : State} (d : Nat) (u : Consumer) (addr : Nat) (upset : Option (Nat × Byte)) (s : State)
    (h0 : s0.Keeps s) :
    OutKeeps s0 (execGatherGranuleRead d u addr upset s) := by
  unfold execGatherGranuleRead
  try dsimp only
  repeat' (first
    | (with_reducible first | assumption | apply out_keeps | apply State_readOutcome_keeps | apply keeps_ite)
    | with_reducible intro _
    | split)

theorem execGelu_keeps {s0 : State} (d : Nat) (c : Nat) (t : Nat) (w : BitVec 64) (s : State) (h0 : s0.Keeps s) :
    OutKeeps s0 (execGelu d c t w s) := by
  unfold execGelu
  try dsimp only
  repeat' (with_reducible first | assumption | apply out_keeps | apply State_issueVec_keeps)

theorem execGeluBwd_keeps {s0 : State} (d : Nat) (c : Nat) (t : Nat) (w : BitVec 64) (s : State) (h0 : s0.Keeps s) :
    OutKeeps s0 (execGeluBwd d c t w s) := by
  unfold execGeluBwd
  try dsimp only
  repeat' (with_reducible first | assumption | apply out_keeps | apply State_issueVec_keeps)

theorem execGlazeBlockRead_keeps {s0 : State} (d : Nat) (u : Consumer) (addr : Nat) (upset : Option (Nat × Byte)) (s : State)
    (h0 : s0.Keeps s) :
    OutKeeps s0 (execGlazeBlockRead d u addr upset s) := by
  unfold execGlazeBlockRead
  try dsimp only
  repeat' (first
    | (with_reducible first | assumption | apply out_keeps | apply State_readOutcome_keeps | apply State_stackReports_keeps
                            | apply keeps_ite)
    | with_reducible intro _
    | split)

theorem execGraceTimerExpiry_keeps {s0 : State} (d : Nat) (s : State) (h0 : s0.Keeps s) :
    OutKeeps s0 (execGraceTimerExpiry d s) := by
  unfold execGraceTimerExpiry
  try dsimp only
  repeat' (first
    | (with_reducible first | assumption | apply out_keeps | apply State_enterThrottle_keeps | apply State_modThermal_keeps
                            | apply keeps_ite)
    | with_reducible intro _)

theorem execHatchStatus_keeps {s0 : State} (h' : Nat) (pl : List (BitVec 8)) (s : State) (h0 : s0.Keeps s) :
    OutKeeps s0 (execHatchStatus h' pl s) := by
  unfold execHatchStatus
  try dsimp only
  repeat' (with_reducible first | assumption | apply out_keeps | apply State_doRead_keeps)

theorem execHbmTempRead_keeps {s0 : State} (d : Nat) (t0 : Int) (t1 : Int) (s : State) (h0 : s0.Keeps s) :
    OutKeeps s0 (execHbmTempRead d t0 t1 s) := by
  unfold execHbmTempRead
  try dsimp only
  repeat' (first
    | (with_reducible first | assumption | apply out_keeps | apply State_notice_keeps | apply State_modThermal_keeps | apply keeps_ite)
    | with_reducible intro _)

theorem execHeartbeat_keeps {s0 : State} (k' : Nat) (s : State) (h0 : s0.Keeps s) :
    OutKeeps s0 (execHeartbeat k' s) := by
  unfold execHeartbeat
  try dsimp only
  repeat' (first
    | (with_reducible first | assumption | apply out_keeps | apply State_modHearth_keeps | apply keeps_ite)
    | with_reducible intro _)

theorem execHeartbeatLoss_keeps {s0 : State} (k' : Nat) (s : State) (h0 : s0.Keeps s) :
    OutKeeps s0 (execHeartbeatLoss k' s) := by
  unfold execHeartbeatLoss
  try dsimp only
  repeat' (first
    | (with_reducible first | assumption | apply out_keeps | apply State_partnerLost_keeps | apply State_modHearth_keeps | apply keeps_ite)
    | with_reducible intro _)

theorem execHostLinkChange_keeps {s0 : State} (up : Bool) (s : State) (h0 : s0.Keeps s) :
    OutKeeps s0 (execHostLinkChange up s) := by
  unfold execHostLinkChange
  try dsimp only
  repeat' (first
    | (with_reducible first | assumption | apply out_keeps | apply State_modPort_keeps | apply keeps_ite)
    | with_reducible intro _)

theorem execIdleFrameReceive_keeps {s0 : State} (d : Nat) (p : Nat) (frame : List (BitVec 8)) (stamp : Nat) (s : State) (h0 : s0.Keeps s) :
    OutKeeps s0 (execIdleFrameReceive d p frame stamp s) := by
  unfold execIdleFrameReceive
  try dsimp only
  repeat' (first
    | (with_reducible first | assumption | apply out_keeps | apply State_fresh_keeps | apply State_modPair_keeps
                            | apply State_sendIdle_keeps | apply State_replayFrom_keeps | apply State_takePause_keeps
                            | apply State_hear_keeps | apply State_takeLanes_keeps | apply keeps_ite | apply keeps_dies
                            | apply keeps_panel | apply panel_held)
    | simp only [keeps_mk, die_mk, mem_mk, panel_mk]
    | with_reducible apply And.intro
    | with_reducible intro _
    | split)

theorem execIdleTimerFire_keeps {s0 : State} (d : Nat) (q : Nat) (s : State) (h0 : s0.Keeps s) :
    OutKeeps s0 (execIdleTimerFire d q s) := by
  unfold execIdleTimerFire
  try dsimp only
  repeat' (first
    | (with_reducible first | assumption | apply out_keeps | apply State_gatherNotices_keeps | apply State_setDie_keeps
                            | apply Die_setQueue_keeps | apply State_noticeTo_keeps | apply keeps_ite | apply keeps_die)
    | with_reducible intro _)

theorem execJournalRead_keeps {s0 : State} (pl : List (BitVec 8)) (s : State) (h0 : s0.Keeps s) :
    OutKeeps s0 (execJournalRead pl s) := by
  unfold execJournalRead
  try dsimp only
  repeat' (with_reducible first | assumption | apply out_keeps | apply State_lifelineNow_keeps)

theorem execKatCheckpoint_keeps {s0 : State} (d : Nat) (s : State) (h0 : s0.Keeps s) :
    OutKeeps s0 (execKatCheckpoint d s) := by
  unfold execKatCheckpoint
  try dsimp only
  repeat' (first
    | (with_reducible first | assumption | apply out_keeps | apply State_modPanel_keeps | apply keeps_ite | apply panel_held)
    | simp only [keeps_mk, die_mk, mem_mk, panel_mk]
    | with_reducible intro _
    | split)

theorem execKatDone_keeps {s0 : State} (d : Nat) (failed : Nat) (tmax : Int) (duty : Nat) (leave : Nat) (s : State) (h0 : s0.Keeps s) :
    OutKeeps s0 (execKatDone d failed tmax duty leave s) := by
  unfold execKatDone
  try dsimp only
  repeat' (first
    | (with_reducible first | assumption | apply out_keeps | apply State_logKat_keeps | apply State_katClosed_keeps
                            | apply State_scrubKat_keeps | apply State_katCounts_keeps | apply State_holdKey_keeps
                            | apply State_dieFailed_keeps | apply State_join_keeps | apply State_abortMenus_keeps
                            | apply State_declareHard_keeps | apply State_modDie_keeps | apply Die_modSeq_keeps
                            | apply State_doneCheck_keeps | apply State_modPanel_keeps | apply State_katAdvance_keeps | apply keeps_ite
                            | apply keeps_ite_fst | apply panel_held | apply die_foldl)
    | simp only [keeps_mk, die_mk, mem_mk, panel_mk]
    | with_reducible intro _
    | split)

theorem execKatRun_keeps {s0 : State} (h' : Nat) (s : State) (h0 : s0.Keeps s) :
    OutKeeps s0 (execKatRun h' s) := by
  unfold execKatRun
  try dsimp only
  repeat' (first
    | (with_reducible first | assumption | apply out_keeps | apply State_perform_keeps | apply State_katStart_keeps | apply keeps_ite)
    | with_reducible intro _)

theorem execKilnWrite_keeps {s0 : State} (d : Nat) (larder : Bool) (s : State) (h0 : s0.Keeps s) :
    OutKeeps s0 (execKilnWrite d larder s) := by
  unfold execKilnWrite
  try dsimp only
  repeat' (with_reducible first | assumption | apply out_keeps | apply State_kilnStep_keeps)

theorem execLaneDrop_keeps {s0 : State} (d : Nat) (p : Nat) (lane : Nat) (s : State) (h0 : s0.Keeps s) :
    OutKeeps s0 (execLaneDrop d p lane s) := by
  unfold execLaneDrop
  try dsimp only
  repeat' (first
    | (with_reducible first | assumption | apply out_keeps | apply State_sendIdle_keeps | apply State_modPair_keeps | apply keeps_ite)
    | with_reducible intro _)

theorem execLaneMapChange_keeps {s0 : State} (d : Nat) (p : Nat) (rx : Bool) (s : State) (h0 : s0.Keeps s) :
    OutKeeps s0 (execLaneMapChange d p rx s) := by
  unfold execLaneMapChange
  try dsimp only
  repeat' (first
    | (with_reducible first | assumption | apply out_keeps | apply State_modPair_keeps | apply keeps_ite)
    | with_reducible intro _)

theorem execLaserOff_keeps {s0 : State} (pl : List (BitVec 8)) (s : State) (h0 : s0.Keeps s) :
    OutKeeps s0 (execLaserOff pl s) := by
  unfold execLaserOff
  try dsimp only
  repeat' (with_reducible first | assumption | apply out_keeps | apply State_lifelineNow_keeps)

theorem execLaunch_keeps {s0 : State} (h' : Nat) (s : State) (h0 : s0.Keeps s) :
    OutKeeps s0 (execLaunch h' s) := by
  unfold execLaunch
  try dsimp only
  repeat' (first
    | (with_reducible first | assumption | apply out_keeps | apply State_launchGo_keeps | apply State_finishEntry_keeps
                            | apply State_reply_keeps | apply keeps_ite)
    | with_reducible intro _
    | split)

theorem execLayernorm_keeps {s0 : State} (d : Nat) (c : Nat) (t : Nat) (w : BitVec 64) (s : State) (h0 : s0.Keeps s) :
    OutKeeps s0 (execLayernorm d c t w s) := by
  unfold execLayernorm
  try dsimp only
  repeat' (with_reducible first | assumption | apply out_keeps | apply State_issueVec_keeps)

theorem execLayernormBwd_keeps {s0 : State} (d : Nat) (c : Nat) (t : Nat) (w : BitVec 64) (s : State) (h0 : s0.Keeps s) :
    OutKeeps s0 (execLayernormBwd d c t w s) := by
  unfold execLayernormBwd
  try dsimp only
  repeat' (with_reducible first | assumption | apply out_keeps | apply State_issueVec_keeps)

theorem execLdlDescComplete_keeps {s0 : State} (d : Nat) (ch : Nat) (s : State) (h0 : s0.Keeps s) :
    OutKeeps s0 (execLdlDescComplete d ch s) := by
  unfold execLdlDescComplete
  try dsimp only
  repeat' (first
    | (with_reducible first | assumption | apply out_keeps | apply State_releaseLeave_keeps | apply State_setDie_keeps
                            | apply Die_modChan_keeps | apply State_modDie_keeps | apply State_countTag_keeps | apply keeps_ite
                            | apply keeps_die)
    | with_reducible intro _
    | split)

theorem execLdlDescFetch_keeps {s0 : State} (d : Nat) (ch : Nat) (s : State) (h0 : s0.Keeps s) :
    OutKeeps s0 (execLdlDescFetch d ch s) := by
  unfold execLdlDescFetch
  try dsimp only
  repeat' (first
    | (with_reducible first | assumption | apply out_keeps | apply State_fresh_keeps | apply Die_admit_keeps | apply State_setDie_keeps
                            | apply Die_readDone_keeps | apply Die_setQueue_keeps | apply Die_modChan_keeps | apply keeps_ite
                            | apply keeps_die)
    | with_reducible intro _
    | split)

theorem execLdlRun_keeps {s0 : State} (d : Nat) (c : Nat) (t : Nat) (w : BitVec 64) (s : State) (h0 : s0.Keeps s) :
    OutKeeps s0 (execLdlRun d c t w s) := by
  unfold execLdlRun
  try dsimp only
  repeat' (first
    | (with_reducible first | assumption | apply out_keeps | apply State_issue_keeps | apply State_checked_keeps
                            | apply State_setDie_keeps | apply Die_modChan_keeps | apply keeps_die)
    | with_reducible intro _)

theorem execLeaveGrant_keeps {s0 : State} (d : Nat) (s : State) (h0 : s0.Keeps s) :
    OutKeeps s0 (execLeaveGrant d s) := by
  unfold execLeaveGrant
  try dsimp only
  repeat' (first
    | (with_reducible first | assumption | apply out_keeps | apply State_setDie_keeps | apply keeps_die | apply die_mem)
    | simp only [keeps_mk, die_mk, mem_mk, panel_mk]
    | split)

theorem execLeaveRequest_keeps {s0 : State} (d : Nat) (unit : Nat) (s : State) (h0 : s0.Keeps s) :
    OutKeeps s0 (execLeaveRequest d unit s) := by
  unfold execLeaveRequest
  try dsimp only
  repeat' (first
    | (with_reducible first | assumption | apply out_keeps | apply State_katRequest_keeps | apply State_setDie_keeps | apply keeps_ite
                            | apply keeps_die | apply die_mem)
    | simp only [keeps_mk, die_mk, mem_mk, panel_mk]
    | with_reducible intro _
    | split)

theorem execLifelineStatus_keeps {s0 : State} (pl : List (BitVec 8)) (s : State) (h0 : s0.Keeps s) :
    OutKeeps s0 (execLifelineStatus pl s) := by
  unfold execLifelineStatus
  try dsimp only
  repeat' (with_reducible first | assumption | apply out_keeps | apply State_lifelineNow_keeps)

theorem execLightPresent_keeps {s0 : State} (d : Nat) (p : Nat) (s : State) (h0 : s0.Keeps s) :
    OutKeeps s0 (execLightPresent d p s) := by
  unfold execLightPresent
  try dsimp only
  repeat' (with_reducible first | assumption | apply out_keeps | apply State_modPair_keeps)

theorem execLinkReplayExhausted_keeps {s0 : State} (d : Nat) (p : Nat) (s : State) (h0 : s0.Keeps s) :
    OutKeeps s0 (execLinkReplayExhausted d p s) := by
  unfold execLinkReplayExhausted
  try dsimp only
  repeat' (first
    | (with_reducible first | assumption | apply out_keeps | apply State_linkExhausted_keeps | apply keeps_ite)
    | with_reducible intro _)

theorem execLion_keeps {s0 : State} (d : Nat) (c : Nat) (t : Nat) (w : BitVec 64) (s : State) (h0 : s0.Keeps s) :
    OutKeeps s0 (execLion d c t w s) := by
  unfold execLion
  try dsimp only
  repeat' (with_reducible first | assumption | apply out_keeps | apply State_issueVec_keeps)

theorem execLoad_keeps {s0 : State} (d : Nat) (c : Nat) (t : Nat) (w : BitVec 64) (s : State) (h0 : s0.Keeps s) :
    OutKeeps s0 (execLoad d c t w s) := by
  unfold execLoad
  try dsimp only
  repeat' (first
    | (with_reducible first | assumption | apply out_keeps | apply State_issue_keeps | apply State_checked_keeps
                            | apply Die_freshKey_keeps | apply State_holdThread_keeps | apply State_setDie_keeps
                            | apply Die_addReqs_keeps | apply keeps_die)
    | with_reducible intro _)

theorem execLoadPacket_keeps {s0 : State} (d : Nat) (s : State) (h0 : s0.Keeps s) :
    OutKeeps s0 (execLoadPacket d s) := by
  unfold execLoadPacket
  try dsimp only
  repeat' (with_reducible first | assumption | apply out_keeps | apply State_serveRead_keeps | apply Die_loadBytes_keeps)

theorem execLoadW_keeps {s0 : State} (d : Nat) (c : Nat) (t : Nat) (w : BitVec 64) (s : State) (h0 : s0.Keeps s) :
    OutKeeps s0 (execLoadW d c t w s) := by
  unfold execLoadW
  try dsimp only
  repeat' (first
    | (with_reducible first | assumption | apply out_keeps | apply State_issue_keeps | apply State_checked_keeps
                            | apply State_skilletLoad_keeps | apply Die_freshKey_keeps | apply State_setDie_keeps
                            | apply Die_pushLoad_keeps | apply keeps_ite | apply keeps_die)
    | with_reducible intro _)

theorem execLoadWComplete_keeps {s0 : State} (d : Nat) (a : Nat) (s : State) (h0 : s0.Keeps s) :
    OutKeeps s0 (execLoadWComplete d a s) := by
  unfold execLoadWComplete
  try dsimp only
  repeat' (first
    | (with_reducible first | assumption | apply out_keeps | apply State_panScans_keeps | apply State_releaseLeave_keeps
                            | apply State_countTag_keeps | apply State_setDie_keeps | apply Die_finishLoad_keeps | apply keeps_ite
                            | apply keeps_die)
    | with_reducible intro _
    | split)

theorem execLoadWStart_keeps {s0 : State} (d : Nat) (a : Nat) (s : State) (h0 : s0.Keeps s) :
    OutKeeps s0 (execLoadWStart d a s) := by
  unfold execLoadWStart
  try dsimp only
  repeat' (first
    | (with_reducible first | assumption | apply out_keeps | apply State_setDie_keeps | apply Die_startLoad_keeps | apply keeps_ite
                            | apply keeps_die)
    | with_reducible intro _
    | split)

theorem execLogDump_keeps {s0 : State} (pl : List (BitVec 8)) (s : State) (h0 : s0.Keeps s) :
    OutKeeps s0 (execLogDump pl s) := by
  unfold execLogDump
  try dsimp only
  repeat' (with_reducible first | assumption | apply out_keeps | apply State_lifelineNow_keeps)

theorem execLoop_keeps {s0 : State} (d : Nat) (c : Nat) (t : Nat) (w : BitVec 64) (s : State) (h0 : s0.Keeps s) :
    OutKeeps s0 (execLoop d c t w s) := by
  unfold execLoop
  try dsimp only
  repeat' (first
    | (with_reducible first | assumption | apply out_keeps | apply State_issue_keeps | apply State_raise_keeps
                            | apply State_countTag_keeps | apply State_modThread_keeps | apply keeps_ite)
    | with_reducible intro _
    | split)

theorem execLossOfLight_keeps {s0 : State} (d : Nat) (p : Nat) (s : State) (h0 : s0.Keeps s) :
    OutKeeps s0 (execLossOfLight d p s) := by
  unfold execLossOfLight
  try dsimp only
  repeat' (first
    | (with_reducible first | assumption | apply out_keeps | apply State_modPair_keeps | apply State_fallSafe_keeps
                            | apply State_presenceChanged_keeps | apply State_notice_keeps | apply keeps_ite)
    | with_reducible intro _)

theorem execLsmFailed_keeps {s0 : State} (bay : Nat) (pulled : Bool) (s : State) (h0 : s0.Keeps s) :
    OutKeeps s0 (execLsmFailed bay pulled s) := by
  unfold execLsmFailed
  try dsimp only
  repeat' (first
    | (with_reducible first | assumption | apply out_keeps | apply State_sourceFailed_keeps | apply State_modBay_keeps | apply keeps_ite)
    | with_reducible intro _)

theorem execLsmInsert_keeps {s0 : State} (bay : Nat) (l1h : Bool) (s : State) (h0 : s0.Keeps s) :
    OutKeeps s0 (execLsmInsert bay l1h s) := by
  unfold execLsmInsert
  try dsimp only
  repeat' (first
    | (with_reducible first | assumption | apply out_keeps | apply State_modBay_keeps | apply keeps_ite)
    | with_reducible intro _)

theorem execLsmQualified_keeps {s0 : State} (bay : Nat) (s : State) (h0 : s0.Keeps s) :
    OutKeeps s0 (execLsmQualified bay s) := by
  unfold execLsmQualified
  try dsimp only
  repeat' (first
    | (with_reducible first | assumption | apply out_keeps | apply State_modBay_keeps | apply State_moveBack_keeps
                            | apply State_feedFrom_keeps | apply keeps_ite)
    | with_reducible intro _
    | split)

theorem execLveBook_keeps {s0 : State} (d : Nat) (c : Nat) (t : Nat) (w : BitVec 64) (s : State) (h0 : s0.Keeps s) :
    OutKeeps s0 (execLveBook d c t w s) := by
  unfold execLveBook
  try dsimp only
  repeat' (first
    | (with_reducible first | assumption | apply out_keeps | apply State_issue_keeps | apply State_checked_keeps
                            | apply State_countTag_keeps | apply State_modDie_keeps | apply die_mem)
    | simp only [keeps_mk, die_mk, mem_mk, panel_mk]
    | with_reducible intro _)

theorem execLveRelease_keeps {s0 : State} (d : Nat) (c : Nat) (t : Nat) (w : BitVec 64) (s : State) (h0 : s0.Keeps s) :
    OutKeeps s0 (execLveRelease d c t w s) := by
  unfold execLveRelease
  try dsimp only
  repeat' (first
    | (with_reducible first | assumption | apply out_keeps | apply State_issue_keeps | apply State_checked_keeps
                            | apply State_countTag_keeps | apply State_modDie_keeps | apply die_mem)
    | simp only [keeps_mk, die_mk, mem_mk, panel_mk]
    | with_reducible intro _)

theorem execMatmul_keeps {s0 : State} (d : Nat) (c : Nat) (t : Nat) (w : BitVec 64) (s : State) (h0 : s0.Keeps s) :
    OutKeeps s0 (execMatmul d c t w s) := by
  unfold execMatmul
  try dsimp only
  repeat' (first
    | (with_reducible first | assumption | apply out_keeps | apply State_issue_keeps | apply State_checked_keeps
                            | apply Die_freshKey_keeps | apply Die_pushMatmul_keeps | apply Die_pushLoad_keeps | apply Die_modGang_keeps
                            | apply State_skilletWaits_keeps | apply State_setDie_keeps | apply die_ite | apply keeps_die)
    | with_reducible intro _)

theorem execMatmulComplete_keeps {s0 : State} (d : Nat) (a : Nat) (stalls : List (Nat × Nat)) (s : State) (h0 : s0.Keeps s) :
    OutKeeps s0 (execMatmulComplete d a stalls s) := by
  unfold execMatmulComplete
  try dsimp only
  repeat' (first
    | (with_reducible first | assumption | apply out_keeps | apply State_panScans_keeps | apply State_modDie_keeps
                            | apply Die_modArr_keeps | apply Die_writeRows_keeps | apply Die_stall_keeps | apply Die_sweepGroups_keeps
                            | apply State_digestRows_keeps | apply State_releaseLeave_keeps | apply State_countTag_keeps
                            | apply keeps_ite | apply die_foldl)
    | with_reducible intro _
    | split)

theorem execMatmulStreamStart_keeps {s0 : State} (d : Nat) (a : Nat) (s : State) (h0 : s0.Keeps s) :
    OutKeeps s0 (execMatmulStreamStart d a s) := by
  unfold execMatmulStreamStart
  try dsimp only
  repeat' (first
    | (with_reducible first | assumption | apply out_keeps | apply Die_modArr_keeps | apply State_skilletWaits_keeps
                            | apply State_setDie_keeps | apply Die_sweepGroups_keeps | apply Die_bump_keeps | apply keeps_ite
                            | apply keeps_die | apply die_foldl)
    | with_reducible intro _
    | split)

theorem execMax_keeps {s0 : State} (d : Nat) (c : Nat) (t : Nat) (w : BitVec 64) (s : State) (h0 : s0.Keeps s) :
    OutKeeps s0 (execMax d c t w s) := by
  unfold execMax
  try dsimp only
  repeat' (with_reducible first | assumption | apply out_keeps | apply State_issueVec_keeps)

theorem execMenuAbort_keeps {s0 : State} (menu : Nat) (s : State) (h0 : s0.Keeps s) :
    OutKeeps s0 (execMenuAbort menu s) := by
  unfold execMenuAbort
  try dsimp only
  repeat' (first | (with_reducible first | assumption | apply out_keeps | apply State_endMenu_keeps) | split)

theorem execMode_keeps {s0 : State} (d : Nat) (c : Nat) (t : Nat) (w : BitVec 64) (s : State) (h0 : s0.Keeps s) :
    OutKeeps s0 (execMode d c t w s) := by
  unfold execMode
  try dsimp only
  repeat' (first
    | (with_reducible first | assumption | apply out_keeps | apply State_issue_keeps | apply State_checked_keeps
                            | apply State_modThread_keeps | apply State_modDie_keeps | apply Die_modGang_keeps)
    | with_reducible intro _)

theorem execModeTakeEffect_keeps {s0 : State} (d : Nat) (c : Nat) (s : State) (h0 : s0.Keeps s) :
    OutKeeps s0 (execModeTakeEffect d c s) := by
  unfold execModeTakeEffect
  try dsimp only
  repeat' (first
    | (with_reducible first | assumption | apply out_keeps | apply State_applyMode_keeps | apply keeps_ite)
    | with_reducible intro _)

theorem execMul_keeps {s0 : State} (d : Nat) (c : Nat) (t : Nat) (w : BitVec 64) (s : State) (h0 : s0.Keeps s) :
    OutKeeps s0 (execMul d c t w s) := by
  unfold execMul
  try dsimp only
  repeat' (with_reducible first | assumption | apply out_keeps | apply State_issueVec_keeps)

theorem execNakResend_keeps {s0 : State} (d : Nat) (p : Nat) (s : State) (h0 : s0.Keeps s) :
    OutKeeps s0 (execNakResend d p s) := by
  unfold execNakResend
  try dsimp only
  repeat' (first
    | (with_reducible first | assumption | apply out_keeps | apply State_sendIdle_keeps | apply keeps_ite)
    | with_reducible intro _)

theorem execNeighbourSolicitation_keeps {s0 : State} (s : State) (h0 : s0.Keeps s) :
    OutKeeps s0 (execNeighbourSolicitation s) := by
  unfold execNeighbourSolicitation
  try dsimp only
  repeat' (first
    | (with_reducible first | assumption | apply out_keeps | apply keeps_ite | apply keeps_dies | apply keeps_panel)
    | simp only [keeps_mk, die_mk, mem_mk, panel_mk]
    | with_reducible apply And.intro
    | with_reducible intro _)

theorem execNop_keeps {s0 : State} (d : Nat) (c : Nat) (t : Nat) (w : BitVec 64) (s : State) (h0 : s0.Keeps s) :
    OutKeeps s0 (execNop d c t w s) := by
  unfold execNop
  try dsimp only
  repeat' (first
    | (with_reducible first | assumption | apply out_keeps | apply State_issue_keeps | apply State_raise_keeps
                            | apply State_countTag_keeps | apply keeps_ite)
    | with_reducible intro _)

theorem execNormXhat_keeps {s0 : State} (d : Nat) (c : Nat) (t : Nat) (w : BitVec 64) (s : State) (h0 : s0.Keeps s) :
    OutKeeps s0 (execNormXhat d c t w s) := by
  unfold execNormXhat
  try dsimp only
  repeat' (with_reducible first | assumption | apply out_keeps | apply State_issueVec_keeps)

theorem execNoticeAck_keeps {s0 : State} (dg : List (BitVec 8)) (s : State) (h0 : s0.Keeps s) :
    OutKeeps s0 (execNoticeAck dg s) := by
  unfold execNoticeAck
  try dsimp only
  repeat' (first
    | (with_reducible first | assumption | apply out_keeps | apply State_arrive_keeps | apply State_noticesAcked_keeps)
    | with_reducible intro _)

theorem execNoticeResend_keeps {s0 : State} (s : State) (h0 : s0.Keeps s) :
    OutKeeps s0 (execNoticeResend s) := by
  unfold execNoticeResend
  try dsimp only
  repeat' (first
    | (with_reducible first | assumption | apply out_keeps | apply State_resendNotices_keeps | apply keeps_ite)
    | with_reducible intro _)

theorem execOrtho_keeps {s0 : State} (d : Nat) (c : Nat) (t : Nat) (w : BitVec 64) (s : State) (h0 : s0.Keeps s) :
    OutKeeps s0 (execOrtho d c t w s) := by
  unfold execOrtho
  try dsimp only
  repeat' (with_reducible first | assumption | apply out_keeps | apply State_issueVec_keeps)

theorem execPacketEject_keeps {s0 : State} (d : Nat) (s : State) (h0 : s0.Keeps s) :
    OutKeeps s0 (execPacketEject d s) := by
  unfold execPacketEject
  try dsimp only
  repeat' (first
    | (with_reducible first | assumption | apply out_keeps | apply Die_unhold_keeps | apply State_traceFab_keeps
                            | apply State_setDie_keeps | apply Die_countDrop_keeps | apply keeps_die | apply die_mem)
    | simp only [keeps_mk, die_mk, mem_mk, panel_mk]
    | split)

theorem execPacketForward_keeps {s0 : State} (d : Nat) (s : State) (h0 : s0.Keeps s) :
    OutKeeps s0 (execPacketForward d s) := by
  unfold execPacketForward
  try dsimp only
  repeat' (first
    | (with_reducible first | assumption | apply out_keeps | apply State_decideRoute_keeps | apply State_meshHop_keeps
                            | apply State_modDie_keeps | apply keeps_ite | apply die_mem)
    | simp only [keeps_mk, die_mk, mem_mk, panel_mk]
    | with_reducible intro _
    | split)

theorem execPacketInject_keeps {s0 : State} (d : Nat) (cls : Nat) (s : State) (h0 : s0.Keeps s) :
    OutKeeps s0 (execPacketInject d cls s) := by
  unfold execPacketInject
  try dsimp only
  repeat' (first
    | (with_reducible first | assumption | apply out_keeps | apply State_modDie_keeps | apply State_injectReq_keeps
                            | apply State_injectPkt_keeps | apply State_badRank_keeps | apply keeps_ite | apply die_mem)
    | simp only [keeps_mk, die_mk, mem_mk, panel_mk]
    | with_reducible intro _
    | split)

theorem execPairEnterSafe_keeps {s0 : State} (d : Nat) (p : Nat) (callPhase : Nat) (s : State) (h0 : s0.Keeps s) :
    OutKeeps s0 (execPairEnterSafe d p callPhase s) := by
  unfold execPairEnterSafe
  try dsimp only
  repeat' (first
    | (with_reducible first | assumption | apply out_keeps | apply State_modPair_keeps | apply keeps_ite)
    | with_reducible intro _)

theorem execPairGoDark_keeps {s0 : State} (d : Nat) (p : Nat) (s : State) (h0 : s0.Keeps s) :
    OutKeeps s0 (execPairGoDark d p s) := by
  unfold execPairGoDark
  try dsimp only
  repeat' (with_reducible first | assumption | apply out_keeps | apply State_goDark_keeps)

theorem execPanelReset_keeps {s0 : State} (pl : List (BitVec 8)) (s : State) (h0 : s0.Keeps s) :
    OutKeeps s0 (execPanelReset pl s) := by
  unfold execPanelReset
  try dsimp only
  repeat' (with_reducible first | assumption | apply out_keeps | apply State_lifelineNow_keeps)

theorem execPantryRead_keeps {s0 : State} (d : Nat) (c : Nat) (addr : Nat) (flips : Nat) (s : State) (h0 : s0.Keeps s) :
    OutKeeps s0 (execPantryRead d c addr flips s) := by
  unfold execPantryRead
  try dsimp only
  repeat' (first
    | (with_reducible first | assumption | apply out_keeps | apply State_fresh_keeps | apply MemUnit_panScan_keeps
                            | apply MemUnit_upsetWord_keeps | apply State_setDie_keeps | apply State_raiseAt_keeps | apply keeps_ite
                            | apply keeps_die | apply die_mem)
    | simp only [keeps_mk, die_mk, mem_mk, panel_mk]
    | with_reducible intro _)

theorem execPauseEnd_keeps {s0 : State} (d : Nat) (p : Nat) (s : State) (h0 : s0.Keeps s) :
    OutKeeps s0 (execPauseEnd d p s) := by
  unfold execPauseEnd
  try dsimp only
  repeat' (first
    | (with_reducible first | assumption | apply out_keeps | apply State_linkExhausted_keeps | apply State_modPair_keeps | apply keeps_ite)
    | with_reducible intro _)

theorem execPauseStart_keeps {s0 : State} (d : Nat) (p : Nat) (s : State) (h0 : s0.Keeps s) :
    OutKeeps s0 (execPauseStart d p s) := by
  unfold execPauseStart
  try dsimp only
  repeat' (first
    | (with_reducible first | assumption | apply out_keeps | apply State_modPair_keeps | apply keeps_ite)
    | with_reducible intro _)

theorem execPortOff_keeps {s0 : State} (pl : List (BitVec 8)) (s : State) (h0 : s0.Keeps s) :
    OutKeeps s0 (execPortOff pl s) := by
  unfold execPortOff
  try dsimp only
  repeat' (with_reducible first | assumption | apply out_keeps | apply State_lifelineNow_keeps)

theorem execPortResetEnd_keeps {s0 : State} (port : Nat) (s : State) (h0 : s0.Keeps s) :
    OutKeeps s0 (execPortResetEnd port s) := by
  unfold execPortResetEnd
  try dsimp only
  repeat' (first
    | (with_reducible first | assumption | apply out_keeps | apply State_moveBack_keeps | apply State_resetEnds_keeps
                            | apply State_modPort_keeps | apply keeps_ite)
    | with_reducible intro _)

theorem execPortWindowEnd_keeps {s0 : State} (d : Nat) (s : State) (h0 : s0.Keeps s) :
    OutKeeps s0 (execPortWindowEnd d s) := by
  unfold execPortWindowEnd
  try dsimp only
  repeat' (first
    | (with_reducible first | assumption | apply out_keeps | apply State_modDie_keeps | apply keeps_ite | apply die_mem)
    | simp only [keeps_mk, die_mk, mem_mk, panel_mk]
    | with_reducible intro _)

theorem execPowerDown_keeps {s0 : State} (pl : List (BitVec 8)) (s : State) (h0 : s0.Keeps s) :
    OutKeeps s0 (execPowerDown pl s) := by
  unfold execPowerDown
  try dsimp only
  repeat' (with_reducible first | assumption | apply out_keeps | apply State_lifelineNow_keeps)

theorem execPowerGood_keeps {s0 : State} (d : Nat) (dom : Nat) (s : State) (h0 : s0.Keeps s) :
    OutKeeps s0 (execPowerGood d dom s) := by
  unfold execPowerGood
  try dsimp only
  repeat' (first
    | (with_reducible first | assumption | apply out_keeps | apply State_setDie_keeps | apply keeps_ite | apply keeps_die | apply die_mem)
    | simp only [keeps_mk, die_mk, mem_mk, panel_mk]
    | with_reducible intro _)

theorem execPreludeDown_keeps {s0 : State} (d : Nat) (s : State) (h0 : s0.Keeps s) :
    OutKeeps s0 (execPreludeDown d s) := by
  unfold execPreludeDown
  try dsimp only
  repeat' (with_reducible first | assumption | apply out_keeps | apply State_ctlRow_keeps)

theorem execPreludeUp_keeps {s0 : State} (d : Nat) (s : State) (h0 : s0.Keeps s) :
    OutKeeps s0 (execPreludeUp d s) := by
  unfold execPreludeUp
  try dsimp only
  repeat' (with_reducible first | assumption | apply out_keeps | apply State_ctlRow_keeps)

theorem execPresenceChange_keeps {s0 : State} (port : Nat) (closed : Bool) (s : State) (h0 : s0.Keeps s) :
    OutKeeps s0 (execPresenceChange port closed s) := by
  unfold execPresenceChange
  try dsimp only
  repeat' (first
    | (with_reducible first | assumption | apply out_keeps | apply State_modPort_keeps | apply State_goDark_keeps | apply keeps_foldl)
    | with_reducible intro _)

theorem execPtpMessage_keeps {s0 : State} (time : Nat) (s : State) (h0 : s0.Keeps s) :
    OutKeeps s0 (execPtpMessage time s) := by
  unfold execPtpMessage
  try dsimp only
  repeat' (first
    | (with_reducible first | assumption | apply out_keeps | apply State_modPanel_keeps | apply keeps_ite | apply panel_held)
    | simp only [keeps_mk, die_mk, mem_mk, panel_mk]
    | with_reducible intro _)

theorem execQplItemComplete_keeps {s0 : State} (d : Nat) (q : Nat) (s : State) (h0 : s0.Keeps s) :
    OutKeeps s0 (execQplItemComplete d q s) := by
  unfold execQplItemComplete
  try dsimp only
  repeat' (first
    | (with_reducible first | assumption | apply out_keeps | apply State_itemIn_keeps | apply State_modDie_keeps
                            | apply Die_setQueue_keeps | apply keeps_ite)
    | with_reducible intro _)

theorem execRaAdd_keeps {s0 : State} (d : Nat) (c : Nat) (t : Nat) (w : BitVec 64) (s : State) (h0 : s0.Keeps s) :
    OutKeeps s0 (execRaAdd d c t w s) := by
  unfold execRaAdd
  try dsimp only
  repeat' (first
    | (with_reducible first | assumption | apply out_keeps | apply State_issue_keeps | apply State_checked_keeps
                            | apply State_countTag_keeps | apply State_modDie_keeps | apply Die_setRa_keeps)
    | with_reducible intro _)

theorem execRaHi_keeps {s0 : State} (d : Nat) (c : Nat) (t : Nat) (w : BitVec 64) (s : State) (h0 : s0.Keeps s) :
    OutKeeps s0 (execRaHi d c t w s) := by
  unfold execRaHi
  try dsimp only
  repeat' (first
    | (with_reducible first | assumption | apply out_keeps | apply State_issue_keeps | apply State_checked_keeps
                            | apply State_countTag_keeps | apply State_modDie_keeps | apply Die_setRa_keeps)
    | with_reducible intro _)

theorem execRaLo_keeps {s0 : State} (d : Nat) (c : Nat) (t : Nat) (w : BitVec 64) (s : State) (h0 : s0.Keeps s) :
    OutKeeps s0 (execRaLo d c t w s) := by
  unfold execRaLo
  try dsimp only
  repeat' (first
    | (with_reducible first | assumption | apply out_keeps | apply State_issue_keeps | apply State_checked_keeps
                            | apply State_countTag_keeps | apply State_modDie_keeps | apply Die_setRa_keeps)
    | with_reducible intro _)

theorem execRampFall_keeps {s0 : State} (d : Nat) (s : State) (h0 : s0.Keeps s) :
    OutKeeps s0 (execRampFall d s) := by
  unfold execRampFall
  try dsimp only
  repeat' (first
    | (with_reducible first | assumption | apply out_keeps | apply State_modDie_keeps | apply die_mem)
    | simp only [keeps_mk, die_mk, mem_mk, panel_mk])

theorem execRankTableSwitch_keeps {s0 : State} (s : State) (h0 : s0.Keeps s) :
    OutKeeps s0 (execRankTableSwitch s) := by
  unfold execRankTableSwitch
  try dsimp only
  repeat' (first
    | (with_reducible first | assumption | apply out_keeps | apply State_onActive_keeps | apply Die_putRanks_keeps | apply keeps_ite
                            | apply keeps_dies | apply keeps_panel | apply panel_held)
    | simp only [keeps_mk, die_mk, mem_mk, panel_mk]
    | with_reducible apply And.intro
    | with_reducible intro _
    | split)

theorem execRateStep_keeps {s0 : State} (d : Nat) (s : State) (h0 : s0.Keeps s) :
    OutKeeps s0 (execRateStep d s) := by
  unfold execRateStep
  try dsimp only
  repeat' (first
    | (with_reducible first | assumption | apply out_keeps | apply State_setDie_keeps | apply State_notice_keeps | apply keeps_ite
                            | apply keeps_die | apply die_mem)
    | simp only [keeps_mk, die_mk, mem_mk, panel_mk]
    | with_reducible intro _)

theorem execReferenceClockRelease_keeps {s0 : State} (mv : Nat) (inlet : Int) (outlet : Int) (flow : Nat) (s : State) (h0 : s0.Keeps s) :
    OutKeeps s0 (execReferenceClockRelease mv inlet outlet flow s) := by
  unfold execReferenceClockRelease
  try dsimp only
  repeat' (first
    | (with_reducible first | assumption | apply out_keeps | apply State_modPanel_keeps | apply keeps_ite | apply keeps_dies
                            | apply keeps_panel | apply panel_held)
    | simp only [keeps_mk, die_mk, mem_mk, panel_mk]
    | with_reducible apply And.intro
    | with_reducible intro _)

theorem execThmCfg_keeps {s0 : State} (d : Nat) (v : Nat) (s : State) (h0 : s0.Keeps s) :
    OutKeeps s0 (execThmCfg d v s) := by
  unfold execThmCfg
  try dsimp only
  repeat' (first
    | (with_reducible first | assumption | apply out_keeps | apply State_setManaged_keeps | apply State_modThermal_keeps | apply keeps_ite)
    | with_reducible intro _)

theorem execRegisterWrite_keeps {s0 : State} (d : Nat) (off : Nat) (v : BitVec 64) (s : State) (h0 : s0.Keeps s) :
    OutKeeps s0 (execRegisterWrite d off v s) := by
  unfold execRegisterWrite
  refine out_keeps (keeps_ite (fun _ => h0) fun _ => keeps_ite (fun _ => keeps_nextOf (execDiePwrOn_keeps _ _ _ h0) h0) fun _ =>
    keeps_ite (fun _ => keeps_nextOf (execThmCfg_keeps _ _ _ h0) h0) fun _ => keeps_ite (fun _ => ?_) fun _ => ?_)
  · exact State_modDie_keeps _ _ _ (State_settle_keeps _ _ h0) (fun x hx => Die_writeReg_keeps x _ _ hx)
  · exact State_modDie_keeps _ _ _ h0 (fun x hx => Die_writeReg_keeps x _ _ hx)

theorem execRelease_keeps {s0 : State} (d : Nat) (s : State) (h0 : s0.Keeps s) :
    OutKeeps s0 (execRelease d s) := by
  unfold execRelease
  try dsimp only
  repeat' (with_reducible first | assumption | apply out_keeps | apply State_ctlRow_keeps)

theorem execRelockComplete_keeps {s0 : State} (d : Nat) (p : Nat) (inWindow : Bool) (s : State) (h0 : s0.Keeps s) :
    OutKeeps s0 (execRelockComplete d p inWindow s) := by
  unfold execRelockComplete
  try dsimp only
  repeat' (first
    | (with_reducible first | assumption | apply out_keeps | apply State_sendIdle_keeps | apply State_modPair_keeps
                            | apply State_linkExhausted_keeps | apply keeps_ite)
    | with_reducible intro _)

theorem execRelu_keeps {s0 : State} (d : Nat) (c : Nat) (t : Nat) (w : BitVec 64) (s : State) (h0 : s0.Keeps s) :
    OutKeeps s0 (execRelu d c t w s) := by
  unfold execRelu
  try dsimp only
  repeat' (with_reducible first | assumption | apply out_keeps | apply State_issueVec_keeps)

theorem execReluBwd_keeps {s0 : State} (d : Nat) (c : Nat) (t : Nat) (w : BitVec 64) (s : State) (h0 : s0.Keeps s) :
    OutKeeps s0 (execReluBwd d c t w s) := by
  unfold execReluBwd
  try dsimp only
  repeat' (with_reducible first | assumption | apply out_keeps | apply State_issueVec_keeps)

theorem execReplayTimeout_keeps {s0 : State} (d : Nat) (p : Nat) (s : State) (h0 : s0.Keeps s) :
    OutKeeps s0 (execReplayTimeout d p s) := by
  unfold execReplayTimeout
  try dsimp only
  repeat' (first
    | (with_reducible first | assumption | apply out_keeps | apply State_replayFrom_keeps | apply keeps_ite)
    | with_reducible intro _
    | split)

theorem execResend_keeps {s0 : State} (d : Nat) (s : State) (h0 : s0.Keeps s) :
    OutKeeps s0 (execResend d s) := by
  unfold execResend
  try dsimp only
  repeat' (with_reducible first | assumption | apply out_keeps | apply State_ctlRow_keeps)

theorem execResult_keeps {s0 : State} (d : Nat) (s : State) (h0 : s0.Keeps s) :
    OutKeeps s0 (execResult d s) := by
  unfold execResult
  try dsimp only
  repeat' (first
    | (with_reducible first | assumption | apply out_keeps | apply State_setDie_keeps | apply Die_dupResponse_keeps
                            | apply Die_completed_keeps | apply State_reqRefused_keeps | apply State_reqDone_keeps
                            | apply Die_panStore_keeps | apply keeps_ite | apply keeps_die)
    | with_reducible intro _
    | split
    | with_reducible refine Die_takeRx_keeps ?_ (by with_reducible assumption))

theorem execRetransmitTimeout_keeps {s0 : State} (d : Nat) (req : Nat) (s : State) (h0 : s0.Keeps s) :
    OutKeeps s0 (execRetransmitTimeout d req s) := by
  unfold execRetransmitTimeout
  try dsimp only
  repeat' (first
    | (with_reducible first | assumption | apply out_keeps | apply State_setDie_keeps | apply Die_bump_keeps | apply keeps_ite
                            | apply keeps_die | apply die_mem)
    | simp only [keeps_mk, die_mk, mem_mk, panel_mk]
    | with_reducible intro _
    | split)

theorem execRmsnorm_keeps {s0 : State} (d : Nat) (c : Nat) (t : Nat) (w : BitVec 64) (s : State) (h0 : s0.Keeps s) :
    OutKeeps s0 (execRmsnorm d c t w s) := by
  unfold execRmsnorm
  try dsimp only
  repeat' (with_reducible first | assumption | apply out_keeps | apply State_issueVec_keeps)

theorem execRmsnormBwd_keeps {s0 : State} (d : Nat) (c : Nat) (t : Nat) (w : BitVec 64) (s : State) (h0 : s0.Keeps s) :
    OutKeeps s0 (execRmsnormBwd d c t w s) := by
  unfold execRmsnormBwd
  try dsimp only
  repeat' (with_reducible first | assumption | apply out_keeps | apply State_issueVec_keeps)

theorem execRowArgmax_keeps {s0 : State} (d : Nat) (c : Nat) (t : Nat) (w : BitVec 64) (s : State) (h0 : s0.Keeps s) :
    OutKeeps s0 (execRowArgmax d c t w s) := by
  unfold execRowArgmax
  try dsimp only
  repeat' (with_reducible first | assumption | apply out_keeps | apply State_issueVec_keeps)

theorem execRowMax_keeps {s0 : State} (d : Nat) (c : Nat) (t : Nat) (w : BitVec 64) (s : State) (h0 : s0.Keeps s) :
    OutKeeps s0 (execRowMax d c t w s) := by
  unfold execRowMax
  try dsimp only
  repeat' (with_reducible first | assumption | apply out_keeps | apply State_issueVec_keeps)

theorem execRowSum_keeps {s0 : State} (d : Nat) (c : Nat) (t : Nat) (w : BitVec 64) (s : State) (h0 : s0.Keeps s) :
    OutKeeps s0 (execRowSum d c t w s) := by
  unfold execRowSum
  try dsimp only
  repeat' (with_reducible first | assumption | apply out_keeps | apply State_issueVec_keeps)

theorem execRowSumsq_keeps {s0 : State} (d : Nat) (c : Nat) (t : Nat) (w : BitVec 64) (s : State) (h0 : s0.Keeps s) :
    OutKeeps s0 (execRowSumsq d c t w s) := by
  unfold execRowSumsq
  try dsimp only
  repeat' (with_reducible first | assumption | apply out_keeps | apply State_issueVec_keeps)

theorem execSampleWindowEnd_keeps {s0 : State} (d : Nat) (s : State) (h0 : s0.Keeps s) :
    OutKeeps s0 (execSampleWindowEnd d s) := by
  unfold execSampleWindowEnd
  try dsimp only
  repeat' (first
    | (with_reducible first | assumption | apply out_keeps | apply State_settle_keeps | apply State_modDie_keeps
                            | apply Die_modHalf_keeps | apply keeps_ite)
    | with_reducible intro _)

theorem execSbGp0Edge_keeps {s0 : State} (s : State) (h0 : s0.Keeps s) :
    OutKeeps s0 (execSbGp0Edge s) := by
  unfold execSbGp0Edge
  try dsimp only
  repeat' (first
    | (with_reducible first | assumption | apply out_keeps | apply State_startHalf_keeps | apply keeps_ite | apply keeps_foldl)
    | with_reducible intro _
    | split)

theorem execSend_keeps {s0 : State} (d : Nat) (c : Nat) (t : Nat) (w : BitVec 64) (s : State) (h0 : s0.Keeps s) :
    OutKeeps s0 (execSend d c t w s) := by
  unfold execSend
  try dsimp only
  repeat' (first
    | (with_reducible first | assumption | apply out_keeps | apply State_modDie_keeps | apply Die_countRefused_keeps
                            | apply State_issue_keeps | apply State_checked_keeps | apply State_sendLocal_keeps
                            | apply Die_freshKey_keeps | apply State_setDie_keeps | apply Die_addReqs_keeps | apply keeps_ite
                            | apply keeps_die)
    | with_reducible intro _)

theorem execSendPacket_keeps {s0 : State} (d : Nat) (s : State) (h0 : s0.Keeps s) :
    OutKeeps s0 (execSendPacket d s) := by
  unfold execSendPacket
  try dsimp only
  repeat' (first
    | (with_reducible first | assumption | apply out_keeps | apply Die_take_keeps | apply Die_ackTo_keeps | apply Die_markApplied_keeps
                            | apply State_setDie_keeps | apply Die_applyPart_keeps | apply Die_busyTo_keeps | apply State_fresh_keeps
                            | apply Die_admit_keeps | apply Die_setTgt_keeps | apply keeps_ite | apply keeps_die)
    | with_reducible intro _
    | split
    | with_reducible refine Die_takeRx_keeps ?_ (by with_reducible assumption))

theorem execSensorReading_keeps {s0 : State} (d : Nat) (counts : List Nat) (s : State) (h0 : s0.Keeps s) :
    OutKeeps s0 (execSensorReading d counts s) := by
  unfold execSensorReading
  try dsimp only
  repeat' (first
    | (with_reducible first | assumption | apply out_keeps | apply State_dieReadings_keeps | apply State_hearthReadings_keeps
                            | apply keeps_ite)
    | with_reducible intro _)

theorem execServiceButtonPress_keeps {s0 : State} (bay : Nat) (s : State) (h0 : s0.Keeps s) :
    OutKeeps s0 (execServiceButtonPress bay s) := by
  unfold execServiceButtonPress
  try dsimp only
  repeat' (first
    | (with_reducible first | assumption | apply out_keeps | apply State_modBay_keeps | apply State_press_keeps | apply keeps_ite)
    | with_reducible intro _)

theorem execSessionQuietEnd_keeps {s0 : State} (d : Nat) (s : State) (h0 : s0.Keeps s) :
    OutKeeps s0 (execSessionQuietEnd d s) := by
  unfold execSessionQuietEnd
  try dsimp only
  repeat' (first
    | (with_reducible first | assumption | apply out_keeps | apply State_setDie_keeps | apply keeps_ite | apply keeps_die | apply die_mem)
    | simp only [keeps_mk, die_mk, mem_mk, panel_mk]
    | with_reducible intro _)

theorem execSetCtr_keeps {s0 : State} (d : Nat) (c : Nat) (t : Nat) (w : BitVec 64) (s : State) (h0 : s0.Keeps s) :
    OutKeeps s0 (execSetCtr d c t w s) := by
  unfold execSetCtr
  try dsimp only
  repeat' (first
    | (with_reducible first | assumption | apply out_keeps | apply State_issue_keeps | apply State_raise_keeps
                            | apply State_countTag_keeps | apply State_modThread_keeps | apply keeps_ite)
    | with_reducible intro _)

theorem execSetParam_keeps {s0 : State} (d : Nat) (c : Nat) (t : Nat) (w : BitVec 64) (s : State) (h0 : s0.Keeps s) :
    OutKeeps s0 (execSetParam d c t w s) := by
  unfold execSetParam
  try dsimp only
  repeat' (first
    | (with_reducible first | assumption | apply out_keeps | apply State_issue_keeps | apply State_checked_keeps
                            | apply State_countTag_keeps | apply State_modDie_keeps | apply Die_modVec_keeps)
    | with_reducible intro _)

theorem execSgdMom_keeps {s0 : State} (d : Nat) (c : Nat) (t : Nat) (w : BitVec 64) (s : State) (h0 : s0.Keeps s) :
    OutKeeps s0 (execSgdMom d c t w s) := by
  unfold execSgdMom
  try dsimp only
  repeat' (with_reducible first | assumption | apply out_keeps | apply State_issueVec_keeps)

theorem execSilu_keeps {s0 : State} (d : Nat) (c : Nat) (t : Nat) (w : BitVec 64) (s : State) (h0 : s0.Keeps s) :
    OutKeeps s0 (execSilu d c t w s) := by
  unfold execSilu
  try dsimp only
  repeat' (with_reducible first | assumption | apply out_keeps | apply State_issueVec_keeps)

theorem execSiluBwd_keeps {s0 : State} (d : Nat) (c : Nat) (t : Nat) (w : BitVec 64) (s : State) (h0 : s0.Keeps s) :
    OutKeeps s0 (execSiluBwd d c t w s) := by
  unfold execSiluBwd
  try dsimp only
  repeat' (with_reducible first | assumption | apply out_keeps | apply State_issueVec_keeps)

theorem execSiteMapGet_keeps {s0 : State} (h' : Nat) (pl : List (BitVec 8)) (s : State) (h0 : s0.Keeps s) :
    OutKeeps s0 (execSiteMapGet h' pl s) := by
  unfold execSiteMapGet
  try dsimp only
  repeat' (with_reducible first | assumption | apply out_keeps | apply State_doRead_keeps)

theorem execSlopeHoldEnd_keeps {s0 : State} (d : Nat) (s : State) (h0 : s0.Keeps s) :
    OutKeeps s0 (execSlopeHoldEnd d s) := by
  unfold execSlopeHoldEnd
  try dsimp only
  repeat' (first
    | (with_reducible first | assumption | apply out_keeps | apply State_modThermal_keeps | apply keeps_ite)
    | with_reducible intro _)

theorem execSlotCheck_keeps {s0 : State} (d : Nat) (b : Nat) (s : State) (h0 : s0.Keeps s) :
    OutKeeps s0 (execSlotCheck d b s) := by
  unfold execSlotCheck
  try dsimp only
  repeat' (first
    | (with_reducible first | assumption | apply out_keeps | apply State_modDie_keeps | apply State_modInst_keeps | apply keeps_ite
                            | apply die_mem)
    | simp only [keeps_mk, die_mk, mem_mk, panel_mk]
    | with_reducible intro _
    | split)

theorem execSlotTimerFire_keeps {s0 : State} (d : Nat) (k' : Nat) (s : State) (h0 : s0.Keeps s) :
    OutKeeps s0 (execSlotTimerFire d k' s) := by
  unfold execSlotTimerFire
  try dsimp only
  repeat' (first
    | (with_reducible first | assumption | apply out_keeps | apply State_modDie_keeps | apply Die_modHalf_keeps
                            | apply State_startHalf_keeps | apply keeps_ite | apply die_mem | apply keeps_foldl)
    | simp only [keeps_mk, die_mk, mem_mk, panel_mk]
    | with_reducible intro _)

theorem execSoftmax_keeps {s0 : State} (d : Nat) (c : Nat) (t : Nat) (w : BitVec 64) (s : State) (h0 : s0.Keeps s) :
    OutKeeps s0 (execSoftmax d c t w s) := by
  unfold execSoftmax
  try dsimp only
  repeat' (with_reducible first | assumption | apply out_keeps | apply State_issueVec_keeps)

theorem execSoftmaxBwd_keeps {s0 : State} (d : Nat) (c : Nat) (t : Nat) (w : BitVec 64) (s : State) (h0 : s0.Keeps s) :
    OutKeeps s0 (execSoftmaxBwd d c t w s) := by
  unfold execSoftmaxBwd
  try dsimp only
  repeat' (with_reducible first | assumption | apply out_keeps | apply State_issueVec_keeps)

theorem execSourceSessionRelease_keeps {s0 : State} (d : Nat) (key : Nat) (s : State) (h0 : s0.Keeps s) :
    OutKeeps s0 (execSourceSessionRelease d key s) := by
  unfold execSourceSessionRelease
  try dsimp only
  repeat' (first
    | (with_reducible first | assumption | apply out_keeps | apply State_setDie_keeps | apply keeps_ite | apply keeps_die | apply die_mem)
    | simp only [keeps_mk, die_mk, mem_mk, panel_mk]
    | with_reducible intro _
    | split)

theorem execSourceSwitch_keeps {s0 : State} (port : Nat) (s : State) (h0 : s0.Keeps s) :
    OutKeeps s0 (execSourceSwitch port s) := by
  unfold execSourceSwitch
  try dsimp only
  repeat' (first
    | (with_reducible first | assumption | apply out_keeps | apply State_modPort_keeps | apply keeps_ite)
    | with_reducible intro _
    | split)

theorem execSourceSwitchDone_keeps {s0 : State} (port : Nat) (s : State) (h0 : s0.Keeps s) :
    OutKeeps s0 (execSourceSwitchDone port s) := by
  unfold execSourceSwitchDone
  try dsimp only
  repeat' (first
    | (with_reducible first | assumption | apply out_keeps | apply State_feedFrom_keeps | apply State_modBay_keeps
                            | apply State_modPort_keeps | apply State_endSwitch_keeps | apply State_afterSwitch_keeps
                            | apply State_missBeacon_keeps | apply keeps_ite | apply keeps_foldl)
    | with_reducible intro _
    | split)

theorem execStatusGet_keeps {s0 : State} (h' : Nat) (pl : List (BitVec 8)) (s : State) (h0 : s0.Keeps s) :
    OutKeeps s0 (execStatusGet h' pl s) := by
  unfold execStatusGet
  try dsimp only
  repeat' (with_reducible first | assumption | apply out_keeps | apply State_doRead_keeps)

theorem execStore_keeps {s0 : State} (d : Nat) (c : Nat) (t : Nat) (w : BitVec 64) (s : State) (h0 : s0.Keeps s) :
    OutKeeps s0 (execStore d c t w s) := by
  unfold execStore
  try dsimp only
  repeat' (first
    | (with_reducible first | assumption | apply out_keeps | apply State_issue_keeps | apply State_checked_keeps
                            | apply Die_freshKey_keeps | apply State_setDie_keeps | apply Die_addReqs_keeps | apply keeps_die)
    | with_reducible intro _)

theorem execStorePacket_keeps {s0 : State} (d : Nat) (s : State) (h0 : s0.Keeps s) :
    OutKeeps s0 (execStorePacket d s) := by
  unfold execStorePacket
  try dsimp only
  repeat' (first
    | (with_reducible first | assumption | apply out_keeps | apply Die_take_keeps | apply State_setDie_keeps | apply Die_ackTo_keeps
                            | apply Die_setTgt_keeps | apply Die_busyTo_keeps | apply Die_drainFlags_keeps | apply Die_applyStore_keeps
                            | apply keeps_ite | apply die_ite | apply keeps_die)
    | with_reducible intro _
    | split
    | with_reducible refine Die_takeRx_keeps ?_ (by with_reducible assumption))

theorem execSwiglu_keeps {s0 : State} (d : Nat) (c : Nat) (t : Nat) (w : BitVec 64) (s : State) (h0 : s0.Keeps s) :
    OutKeeps s0 (execSwiglu d c t w s) := by
  unfold execSwiglu
  try dsimp only
  repeat' (with_reducible first | assumption | apply out_keeps | apply State_issueVec_keeps)

theorem execSwigluBwd_keeps {s0 : State} (d : Nat) (c : Nat) (t : Nat) (w : BitVec 64) (s : State) (h0 : s0.Keeps s) :
    OutKeeps s0 (execSwigluBwd d c t w s) := by
  unfold execSwigluBwd
  try dsimp only
  repeat' (with_reducible first | assumption | apply out_keeps | apply State_issueVec_keeps)

theorem execSwitchoverWindowCheck_keeps {s0 : State} (port : Nat) (s : State) (h0 : s0.Keeps s) :
    OutKeeps s0 (execSwitchoverWindowCheck port s) := by
  unfold execSwitchoverWindowCheck
  try dsimp only
  repeat' (first
    | (with_reducible first | assumption | apply out_keeps | apply State_modPort_keeps | apply State_modPair_keeps
                            | apply State_notice_keeps | apply State_askPause_keeps | apply keeps_ite | apply keeps_foldl)
    | with_reducible intro _
    | split)

theorem execTake_keeps {s0 : State} (d : Nat) (c : Nat) (t : Nat) (w : BitVec 64) (s : State) (h0 : s0.Keeps s) :
    OutKeeps s0 (execTake d c t w s) := by
  unfold execTake
  try dsimp only
  repeat' (first
    | (with_reducible first | assumption | apply out_keeps | apply State_issue_keeps | apply State_checked_keeps
                            | apply State_serveTake_keeps | apply State_holdThread_keeps)
    | with_reducible intro _)

theorem execTakeoverComplete_keeps {s0 : State} (k' : Nat) (s : State) (h0 : s0.Keeps s) :
    OutKeeps s0 (execTakeoverComplete k' s) := by
  unfold execTakeoverComplete
  try dsimp only
  repeat' (first
    | (with_reducible first | assumption | apply out_keeps | apply State_modHearth_keeps | apply State_modPanel_keeps
                            | apply State_pendingLifeline_keeps | apply State_noticeAll_keeps | apply State_adoptMenus_keeps
                            | apply State_replay_keeps | apply State_resendNotices_keeps | apply keeps_ite | apply panel_held)
    | simp only [keeps_mk, die_mk, mem_mk, panel_mk]
    | with_reducible intro _)

theorem execTargetLost_keeps {s0 : State} (d : Nat) (req : Nat) (s : State) (h0 : s0.Keeps s) :
    OutKeeps s0 (execTargetLost d req s) := by
  unfold execTargetLost
  try dsimp only
  repeat' (first
    | (with_reducible first | assumption | apply out_keeps | apply Die_modReq_keeps | apply State_setDie_keeps
                            | apply Die_remoteFault_keeps | apply State_requestNotice_keeps | apply keeps_ite | apply keeps_die
                            | apply die_mem)
    | simp only [keeps_mk, die_mk, mem_mk, panel_mk]
    | with_reducible intro _
    | split)

theorem execTargetSessionExpiry_keeps {s0 : State} (d : Nat) (key : Nat) (s : State) (h0 : s0.Keeps s) :
    OutKeeps s0 (execTargetSessionExpiry d key s) := by
  unfold execTargetSessionExpiry
  try dsimp only
  repeat' (first
    | (with_reducible first | assumption | apply out_keeps | apply State_setDie_keeps | apply keeps_ite | apply keeps_die | apply die_mem)
    | simp only [keeps_mk, die_mk, mem_mk, panel_mk]
    | with_reducible intro _
    | split)

theorem execThermalThrottleStep_keeps {s0 : State} (d : Nat) (s : State) (h0 : s0.Keeps s) :
    OutKeeps s0 (execThermalThrottleStep d s) := by
  unfold execThermalThrottleStep
  try dsimp only
  repeat' (with_reducible first | assumption | apply out_keeps | apply State_junctionSteps_keeps | apply State_modThermal_keeps)

theorem execTileAddr_keeps {s0 : State} (d : Nat) (c : Nat) (t : Nat) (w : BitVec 64) (s : State) (h0 : s0.Keeps s) :
    OutKeeps s0 (execTileAddr d c t w s) := by
  unfold execTileAddr
  try dsimp only
  repeat' (first
    | (with_reducible first | assumption | apply out_keeps | apply State_issue_keeps | apply State_checked_keeps
                            | apply State_countTag_keeps | apply State_modTile_keeps)
    | with_reducible intro _)

theorem execTileOrigin_keeps {s0 : State} (d : Nat) (c : Nat) (t : Nat) (w : BitVec 64) (s : State) (h0 : s0.Keeps s) :
    OutKeeps s0 (execTileOrigin d c t w s) := by
  unfold execTileOrigin
  try dsimp only
  repeat' (first
    | (with_reducible first | assumption | apply out_keeps | apply State_issue_keeps | apply State_checked_keeps
                            | apply State_countTag_keeps | apply State_modTile_keeps)
    | with_reducible intro _)

theorem execTileScale_keeps {s0 : State} (d : Nat) (c : Nat) (t : Nat) (w : BitVec 64) (s : State) (h0 : s0.Keeps s) :
    OutKeeps s0 (execTileScale d c t w s) := by
  unfold execTileScale
  try dsimp only
  repeat' (first
    | (with_reducible first | assumption | apply out_keeps | apply State_issue_keeps | apply State_checked_keeps
                            | apply State_countTag_keeps | apply State_modTile_keeps)
    | with_reducible intro _)

theorem execTileShape_keeps {s0 : State} (d : Nat) (c : Nat) (t : Nat) (w : BitVec 64) (s : State) (h0 : s0.Keeps s) :
    OutKeeps s0 (execTileShape d c t w s) := by
  unfold execTileShape
  try dsimp only
  repeat' (first
    | (with_reducible first | assumption | apply out_keeps | apply State_issue_keeps | apply State_checked_keeps
                            | apply State_countTag_keeps | apply State_modTile_keeps)
    | with_reducible intro _)

theorem execTileTensor_keeps {s0 : State} (d : Nat) (c : Nat) (t : Nat) (w : BitVec 64) (s : State) (h0 : s0.Keeps s) :
    OutKeeps s0 (execTileTensor d c t w s) := by
  unfold execTileTensor
  try dsimp only
  repeat' (first
    | (with_reducible first | assumption | apply out_keeps | apply State_issue_keeps | apply State_checked_keeps
                            | apply State_countTag_keeps | apply State_modTile_keeps)
    | with_reducible intro _)

theorem execTrainingComplete_keeps {s0 : State} (d : Nat) (p : Nat) (txMap : Nat) (rxMap : Nat) (s : State) (h0 : s0.Keeps s) :
    OutKeeps s0 (execTrainingComplete d p txMap rxMap s) := by
  unfold execTrainingComplete
  try dsimp only
  repeat' (first
    | (with_reducible first | assumption | apply out_keeps | apply State_modPair_keeps | apply State_settlePorts_keeps | apply keeps_ite)
    | with_reducible intro _)

theorem execTrainingTimeout_keeps {s0 : State} (d : Nat) (p : Nat) (s : State) (h0 : s0.Keeps s) :
    OutKeeps s0 (execTrainingTimeout d p s) := by
  unfold execTrainingTimeout
  try dsimp only
  repeat' (first
    | (with_reducible first | assumption | apply out_keeps | apply State_fallSafe_keeps | apply State_notice_keeps | apply keeps_ite)
    | with_reducible intro _)

theorem execTurnHoldover_keeps {s0 : State} (s : State) (h0 : s0.Keeps s) :
    OutKeeps s0 (execTurnHoldover s) := by
  unfold execTurnHoldover
  try dsimp only
  repeat' (first
    | (with_reducible first | assumption | apply out_keeps | apply State_notice_keeps | apply State_modTime_keeps | apply keeps_ite)
    | with_reducible intro _)

theorem execTurnHoldoverEntry_keeps {s0 : State} (s : State) (h0 : s0.Keeps s) :
    OutKeeps s0 (execTurnHoldoverEntry s) := by
  unfold execTurnHoldoverEntry
  try dsimp only
  repeat' (first
    | (with_reducible first | assumption | apply out_keeps | apply State_modTime_keeps | apply keeps_ite)
    | with_reducible intro _)

theorem execTurnLock_keeps {s0 : State} (s : State) (h0 : s0.Keeps s) :
    OutKeeps s0 (execTurnLock s) := by
  unfold execTurnLock
  try dsimp only
  repeat' (first
    | (with_reducible first | assumption | apply out_keeps | apply State_modTime_keeps | apply keeps_ite)
    | with_reducible intro _)

theorem execTurnMisaligned_keeps {s0 : State} (s : State) (h0 : s0.Keeps s) :
    OutKeeps s0 (execTurnMisaligned s) := by
  unfold execTurnMisaligned
  try dsimp only
  repeat' (first
    | (with_reducible first | assumption | apply out_keeps | apply State_notice_keeps | apply State_modTime_keeps | apply keeps_ite)
    | with_reducible intro _)

theorem execTurnTick_keeps {s0 : State} (inlet : Int) (outlet : Int) (flow : Nat) (light : List (Nat × Nat × Int)) (s : State)
    (h0 : s0.Keeps s) :
    OutKeeps s0 (execTurnTick inlet outlet flow light s) := by
  unfold execTurnTick
  try dsimp only
  repeat' (first
    | (with_reducible first | assumption | apply out_keeps | apply State_settle_keeps | apply State_discipline_keeps
                            | apply State_coolant_keeps | apply State_startMenus_keeps | apply State_dieTick_keeps
                            | apply State_lightReadings_keeps | apply keeps_ite | apply keeps_dies | apply keeps_panel | apply keeps_foldl)
    | simp only [keeps_mk, die_mk, mem_mk, panel_mk]
    | with_reducible apply And.intro
    | with_reducible intro _)

theorem execVecCommandComplete_keeps {s0 : State} (d : Nat) (c : Nat) (s : State) (h0 : s0.Keeps s) :
    OutKeeps s0 (execVecCommandComplete d c s) := by
  unfold execVecCommandComplete
  try dsimp only
  repeat' (first
    | (with_reducible first | assumption | apply out_keeps | apply State_whiskVecDone_keeps | apply State_modDie_keeps
                            | apply Die_modVec_keeps | apply State_vecFinish_keeps)
    | with_reducible intro _
    | split)

theorem execVecCommandStart_keeps {s0 : State} (d : Nat) (c : Nat) (s : State) (h0 : s0.Keeps s) :
    OutKeeps s0 (execVecCommandStart d c s) := by
  unfold execVecCommandStart
  try dsimp only
  repeat' (first
    | (with_reducible first | assumption | apply out_keeps | apply State_setDie_keeps | apply Die_modVec_keeps | apply keeps_ite
                            | apply keeps_die)
    | with_reducible intro _
    | split)

theorem execWaitQueue_keeps {s0 : State} (d : Nat) (c : Nat) (t : Nat) (w : BitVec 64) (s : State) (h0 : s0.Keeps s) :
    OutKeeps s0 (execWaitQueue d c t w s) := by
  unfold execWaitQueue
  try dsimp only
  repeat' (first
    | (with_reducible first | assumption | apply out_keeps | apply State_issue_keeps | apply State_raise_keeps
                            | apply State_countTag_keeps | apply State_modThread_keeps | apply keeps_ite)
    | with_reducible intro _)

theorem execWaitQueueSatisfied_keeps {s0 : State} (d : Nat) (c : Nat) (t : Nat) (s : State) (h0 : s0.Keeps s) :
    OutKeeps s0 (execWaitQueueSatisfied d c t s) := by
  unfold execWaitQueueSatisfied
  try dsimp only
  repeat' (first
    | (with_reducible first | assumption | apply out_keeps | apply State_runOff_keeps | apply State_countTag_keeps
                            | apply State_modThread_keeps | apply keeps_ite)
    | with_reducible intro _
    | split)

theorem execWaitTag_keeps {s0 : State} (d : Nat) (c : Nat) (t : Nat) (w : BitVec 64) (s : State) (h0 : s0.Keeps s) :
    OutKeeps s0 (execWaitTag d c t w s) := by
  unfold execWaitTag
  try dsimp only
  repeat' (first
    | (with_reducible first | assumption | apply out_keeps | apply State_issue_keeps | apply State_raise_keeps | apply State_tagMet_keeps
                            | apply State_modThread_keeps | apply keeps_ite)
    | with_reducible intro _)

theorem execWaitTagSatisfied_keeps {s0 : State} (d : Nat) (c : Nat) (t : Nat) (s : State) (h0 : s0.Keeps s) :
    OutKeeps s0 (execWaitTagSatisfied d c t s) := by
  unfold execWaitTagSatisfied
  try dsimp only
  repeat' (first
    | (with_reducible first | assumption | apply out_keeps | apply State_runOff_keeps | apply State_tagMet_keeps | apply keeps_ite)
    | with_reducible intro _
    | split)

theorem execWskFire_keeps {s0 : State} (d : Nat) (c : Nat) (t : Nat) (w : BitVec 64) (s : State) (h0 : s0.Keeps s) :
    OutKeeps s0 (execWskFire d c t w s) := by
  unfold execWskFire
  try dsimp only
  repeat' (first
    | (with_reducible first | assumption | apply out_keeps | apply State_issue_keeps | apply State_checked_keeps
                            | apply State_countTag_keeps | apply State_fireInst_keeps)
    | with_reducible intro _)

theorem execWskJoin_keeps {s0 : State} (d : Nat) (c : Nat) (t : Nat) (w : BitVec 64) (s : State) (h0 : s0.Keeps s) :
    OutKeeps s0 (execWskJoin d c t w s) := by
  unfold execWskJoin
  try dsimp only
  repeat' (first
    | (with_reducible first | assumption | apply out_keeps | apply State_issue_keeps | apply State_checked_keeps
                            | apply State_wakeJoins_keeps | apply State_modDie_keeps | apply die_mem)
    | simp only [keeps_mk, die_mk, mem_mk, panel_mk]
    | with_reducible intro _)

theorem execWskOpen_keeps {s0 : State} (d : Nat) (c : Nat) (t : Nat) (w : BitVec 64) (s : State) (h0 : s0.Keeps s) :
    OutKeeps s0 (execWskOpen d c t w s) := by
  unfold execWskOpen
  try dsimp only
  repeat' (first
    | (with_reducible first | assumption | apply out_keeps | apply State_issue_keeps | apply State_checked_keeps
                            | apply State_countTag_keeps | apply State_modInst_keeps | apply State_modDie_keeps
                            | apply Die_setAside_keeps | apply State_ctlOnce_keeps | apply die_mem | apply keeps_foldl)
    | simp only [keeps_mk, die_mk, mem_mk, panel_mk]
    | with_reducible intro _
    | split)

/-- Every command keeps them. -/
theorem exec_keeps {s0 s : State} (c : Instr) (h : s0.Keeps s) : OutKeeps s0 (exec c s) := by
  cases c with
  | coldReset => exact execColdReset_keeps _ h
  | bringUpStart => exact execBringUpStart_keeps _ h
  | bothHearthsFailed => exact execBothHearthsFailed_keeps _ h
  | dieResetRestart _ => exact execDieResetRestart_keeps _ _ h
  | portResetEnd _ => exact execPortResetEnd_keeps _ _ h
  | turnTick _ _ _ _ => exact execTurnTick_keeps _ _ _ _ _ h
  | beaconSend _ _ _ => exact execBeaconSend_keeps _ _ _ _ h
  | turnLock => exact execTurnLock_keeps _ h
  | turnHoldoverEntry => exact execTurnHoldoverEntry_keeps _ h
  | turnHoldover => exact execTurnHoldover_keeps _ h
  | turnMisaligned => exact execTurnMisaligned_keeps _ h
  | courseFetchDone _ _ => exact execCourseFetchDone_keeps _ _ _ h
  | courseStart _ _ _ => exact execCourseStart_keeps _ _ _ _ h
  | menuAbort _ => exact execMenuAbort_keeps _ _ h
  | courseWatchdog _ _ => exact execCourseWatchdog_keeps _ _ _ h
  | nop _ _ _ _ => exact execNop_keeps _ _ _ _ _ h
  | endThread _ _ _ _ => exact execEndThread_keeps _ _ _ _ _ h
  | waitTag _ _ _ _ => exact execWaitTag_keeps _ _ _ _ _ h
  | waitTagSatisfied _ _ _ => exact execWaitTagSatisfied_keeps _ _ _ _ h
  | waitQueue _ _ _ _ => exact execWaitQueue_keeps _ _ _ _ _ h
  | waitQueueSatisfied _ _ _ => exact execWaitQueueSatisfied_keeps _ _ _ _ h
  | setCtr _ _ _ _ => exact execSetCtr_keeps _ _ _ _ _ h
  | addCtr _ _ _ _ => exact execAddCtr_keeps _ _ _ _ _ h
  | loop _ _ _ _ => exact execLoop_keeps _ _ _ _ _ h
  | branch _ _ _ _ => exact execBranch_keeps _ _ _ _ _ h
  | fork _ _ _ _ => exact execFork_keeps _ _ _ _ _ h
  | tileAddr _ _ _ _ => exact execTileAddr_keeps _ _ _ _ _ h
  | tileShape _ _ _ _ => exact execTileShape_keeps _ _ _ _ _ h
  | tileScale _ _ _ _ => exact execTileScale_keeps _ _ _ _ _ h
  | tileTensor _ _ _ _ => exact execTileTensor_keeps _ _ _ _ _ h
  | tileOrigin _ _ _ _ => exact execTileOrigin_keeps _ _ _ _ _ h
  | mode _ _ _ _ => exact execMode_keeps _ _ _ _ _ h
  | modeTakeEffect _ _ => exact execModeTakeEffect_keeps _ _ _ h
  | loadW _ _ _ _ => exact execLoadW_keeps _ _ _ _ _ h
  | loadWStart _ _ => exact execLoadWStart_keeps _ _ _ h
  | loadWComplete _ _ => exact execLoadWComplete_keeps _ _ _ h
  | flip _ _ _ _ => exact execFlip_keeps _ _ _ _ _ h
  | flipTakeEffect _ _ => exact execFlipTakeEffect_keeps _ _ _ h
  | matmul _ _ _ _ => exact execMatmul_keeps _ _ _ _ _ h
  | matmulStreamStart _ _ => exact execMatmulStreamStart_keeps _ _ _ h
  | matmulComplete _ _ _ => exact execMatmulComplete_keeps _ _ _ _ h
  | setParam _ _ _ _ => exact execSetParam_keeps _ _ _ _ _ h
  | add _ _ _ _ => exact execAdd_keeps _ _ _ _ _ h
  | mul _ _ _ _ => exact execMul_keeps _ _ _ _ _ h
  | fma _ _ _ _ => exact execFma_keeps _ _ _ _ _ h
  | axpby _ _ _ _ => exact execAxpby_keeps _ _ _ _ _ h
  | max _ _ _ _ => exact execMax_keeps _ _ _ _ _ h
  | convert _ _ _ _ => exact execConvert_keeps _ _ _ _ _ h
  | relu _ _ _ _ => exact execRelu_keeps _ _ _ _ _ h
  | gelu _ _ _ _ => exact execGelu_keeps _ _ _ _ _ h
  | silu _ _ _ _ => exact execSilu_keeps _ _ _ _ _ h
  | swiglu _ _ _ _ => exact execSwiglu_keeps _ _ _ _ _ h
  | reluBwd _ _ _ _ => exact execReluBwd_keeps _ _ _ _ _ h
  | geluBwd _ _ _ _ => exact execGeluBwd_keeps _ _ _ _ _ h
  | siluBwd _ _ _ _ => exact execSiluBwd_keeps _ _ _ _ _ h
  | swigluBwd _ _ _ _ => exact execSwigluBwd_keeps _ _ _ _ _ h
  | rowSum _ _ _ _ => exact execRowSum_keeps _ _ _ _ _ h
  | rowMax _ _ _ _ => exact execRowMax_keeps _ _ _ _ _ h
  | rowSumsq _ _ _ _ => exact execRowSumsq_keeps _ _ _ _ _ h
  | colSumAcc _ _ _ _ => exact execColSumAcc_keeps _ _ _ _ _ h
  | rowArgmax _ _ _ _ => exact execRowArgmax_keeps _ _ _ _ _ h
  | colDotAcc _ _ _ _ => exact execColDotAcc_keeps _ _ _ _ _ h
  | layernorm _ _ _ _ => exact execLayernorm_keeps _ _ _ _ _ h
  | rmsnorm _ _ _ _ => exact execRmsnorm_keeps _ _ _ _ _ h
  | layernormBwd _ _ _ _ => exact execLayernormBwd_keeps _ _ _ _ _ h
  | rmsnormBwd _ _ _ _ => exact execRmsnormBwd_keeps _ _ _ _ _ h
  | softmax _ _ _ _ => exact execSoftmax_keeps _ _ _ _ _ h
  | softmaxBwd _ _ _ _ => exact execSoftmaxBwd_keeps _ _ _ _ _ h
  | normXhat _ _ _ _ => exact execNormXhat_keeps _ _ _ _ _ h
  | sgdMom _ _ _ _ => exact execSgdMom_keeps _ _ _ _ _ h
  | adamw _ _ _ _ => exact execAdamw_keeps _ _ _ _ _ h
  | lion _ _ _ _ => exact execLion_keeps _ _ _ _ _ h
  | ortho _ _ _ _ => exact execOrtho_keeps _ _ _ _ _ h
  | digestFeed _ _ _ _ => exact execDigestFeed_keeps _ _ _ _ _ h
  | vecCommandStart _ _ => exact execVecCommandStart_keeps _ _ _ h
  | vecCommandComplete _ _ => exact execVecCommandComplete_keeps _ _ _ h
  | ldlRun _ _ _ _ => exact execLdlRun_keeps _ _ _ _ _ h
  | ldlDescFetch _ _ => exact execLdlDescFetch_keeps _ _ _ h
  | copy _ _ => exact execCopy_keeps _ _ _ h
  | fill _ _ => exact execFill_keeps _ _ _ h
  | gather _ _ => exact execGather_keeps _ _ _ h
  | ldlDescComplete _ _ => exact execLdlDescComplete_keeps _ _ _ h
  | kilnWrite _ _ => exact execKilnWrite_keeps _ _ _ h
  | glazeBlockRead _ _ _ _ => exact execGlazeBlockRead_keeps _ _ _ _ _ h
  | gatherGranuleRead _ _ _ _ => exact execGatherGranuleRead_keeps _ _ _ _ _ h
  | pantryRead _ _ _ _ => exact execPantryRead_keeps _ _ _ _ _ h
  | qplItemComplete _ _ => exact execQplItemComplete_keeps _ _ _ h
  | idleTimerFire _ _ => exact execIdleTimerFire_keeps _ _ _ h
  | flush _ _ => exact execFlush_keeps _ _ _ h
  | pairGoDark _ _ => exact execPairGoDark_keeps _ _ _ h
  | pairEnterSafe _ _ _ => exact execPairEnterSafe_keeps _ _ _ _ h
  | call _ _ => exact execCall_keeps _ _ _ h
  | lightPresent _ _ => exact execLightPresent_keeps _ _ _ h
  | answerHeard _ _ _ => exact execAnswerHeard_keeps _ _ _ _ h
  | trainingComplete _ _ _ _ => exact execTrainingComplete_keeps _ _ _ _ _ h
  | trainingTimeout _ _ => exact execTrainingTimeout_keeps _ _ _ h
  | lossOfLight _ _ => exact execLossOfLight_keeps _ _ _ h
  | linkReplayExhausted _ _ => exact execLinkReplayExhausted_keeps _ _ _ h
  | pauseStart _ _ => exact execPauseStart_keeps _ _ _ h
  | pauseEnd _ _ => exact execPauseEnd_keeps _ _ _ h
  | presenceChange _ _ => exact execPresenceChange_keeps _ _ _ h
  | flitSend _ _ => exact execFlitSend_keeps _ _ _ h
  | flitReceive _ _ _ _ _ => exact execFlitReceive_keeps _ _ _ _ _ _ h
  | idleFrameReceive _ _ _ _ => exact execIdleFrameReceive_keeps _ _ _ _ _ h
  | replayTimeout _ _ => exact execReplayTimeout_keeps _ _ _ h
  | nakResend _ _ => exact execNakResend_keeps _ _ _ h
  | laneMapChange _ _ _ => exact execLaneMapChange_keeps _ _ _ _ h
  | laneDrop _ _ _ => exact execLaneDrop_keeps _ _ _ _ h
  | switchoverWindowCheck _ => exact execSwitchoverWindowCheck_keeps _ _ h
  | sourceSwitch _ => exact execSourceSwitch_keeps _ _ h
  | sourceSwitchDone _ => exact execSourceSwitchDone_keeps _ _ h
  | lsmInsert _ _ => exact execLsmInsert_keeps _ _ _ h
  | lsmQualified _ => exact execLsmQualified_keeps _ _ h
  | lsmFailed _ _ => exact execLsmFailed_keeps _ _ _ h
  | serviceButtonPress _ => exact execServiceButtonPress_keeps _ _ h
  | packetInject _ _ => exact execPacketInject_keeps _ _ _ h
  | packetForward _ => exact execPacketForward_keeps _ _ h
  | packetEject _ => exact execPacketEject_keeps _ _ h
  | bounce _ => exact execBounce_keeps _ _ h
  | gatewayExclusionExpiry _ _ => exact execGatewayExclusionExpiry_keeps _ _ _ h
  | rankTableSwitch => exact execRankTableSwitch_keeps _ h
  | rateStep _ => exact execRateStep_keeps _ _ h
  | raLo _ _ _ _ => exact execRaLo_keeps _ _ _ _ _ h
  | raHi _ _ _ _ => exact execRaHi_keeps _ _ _ _ _ h
  | raAdd _ _ _ _ => exact execRaAdd_keeps _ _ _ _ _ h
  | load _ _ _ _ => exact execLoad_keeps _ _ _ _ _ h
  | store _ _ _ _ => exact execStore_keeps _ _ _ _ _ h
  | atomic _ _ _ _ => exact execAtomic_keeps _ _ _ _ _ h
  | send _ _ _ _ => exact execSend_keeps _ _ _ _ _ h
  | take _ _ _ _ => exact execTake_keeps _ _ _ _ _ h
  | fence _ _ _ _ => exact execFence_keeps _ _ _ _ _ h
  | fenceComplete _ _ _ => exact execFenceComplete_keeps _ _ _ _ h
  | loadPacket _ => exact execLoadPacket_keeps _ _ h
  | storePacket _ => exact execStorePacket_keeps _ _ h
  | atomicPacket _ => exact execAtomicPacket_keeps _ _ h
  | sendPacket _ => exact execSendPacket_keeps _ _ h
  | blockRead _ => exact execBlockRead_keeps _ _ h
  | ack _ => exact execAck_keeps _ _ h
  | data _ => exact execData_keeps _ _ h
  | result _ => exact execResult_keeps _ _ h
  | busy _ => exact execBusy_keeps _ _ h
  | retransmitTimeout _ _ => exact execRetransmitTimeout_keeps _ _ _ h
  | targetLost _ _ => exact execTargetLost_keeps _ _ _ h
  | sourceSessionRelease _ _ => exact execSourceSessionRelease_keeps _ _ _ h
  | targetSessionExpiry _ _ => exact execTargetSessionExpiry_keeps _ _ _ h
  | sessionQuietEnd _ => exact execSessionQuietEnd_keeps _ _ h
  | wskOpen _ _ _ _ => exact execWskOpen_keeps _ _ _ _ _ h
  | wskFire _ _ _ _ => exact execWskFire_keeps _ _ _ _ _ h
  | wskJoin _ _ _ _ => exact execWskJoin_keeps _ _ _ _ _ h
  | bucketFire _ _ => exact execBucketFire_keeps _ _ _ h
  | preludeUp _ => exact execPreludeUp_keeps _ _ h
  | preludeDown _ => exact execPreludeDown_keeps _ _ h
  | slotCheck _ _ => exact execSlotCheck_keeps _ _ _ h
  | dataPhaseStart _ _ => exact execDataPhaseStart_keeps _ _ _ h
  | credit _ => exact execCredit_keeps _ _ h
  | chunkSend _ _ => exact execChunkSend_keeps _ _ _ h
  | chunkData _ => exact execChunkData_keeps _ _ h
  | chunkAck _ => exact execChunkAck_keeps _ _ h
  | resend _ => exact execResend_keeps _ _ h
  | chunkTimeout _ _ _ => exact execChunkTimeout_keeps _ _ _ _ h
  | agreeUp _ => exact execAgreeUp_keeps _ _ h
  | release _ => exact execRelease_keeps _ _ h
  | abort _ => exact execAbort_keeps _ _ h
  | cack _ => exact execCack_keeps _ _ h
  | ctlRepeatTimeout _ _ _ => exact execCtlRepeatTimeout_keeps _ _ _ _ h
  | collTimeout _ _ => exact execCollTimeout_keeps _ _ _ h
  | abortRaise _ _ => exact execAbortRaise_keeps _ _ _ h
  | leaveRequest _ _ => exact execLeaveRequest_keeps _ _ _ h
  | leaveGrant _ => exact execLeaveGrant_keeps _ _ h
  | rampFall _ => exact execRampFall_keeps _ _ h
  | lveBook _ _ _ _ => exact execLveBook_keeps _ _ _ _ _ h
  | lveRelease _ _ _ _ => exact execLveRelease_keeps _ _ _ _ _ h
  | budgetRecompute _ _ => exact execBudgetRecompute_keeps _ _ _ h
  | sensorReading _ _ => exact execSensorReading_keeps _ _ _ h
  | slopeHoldEnd _ => exact execSlopeHoldEnd_keeps _ _ h
  | thermalThrottleStep _ => exact execThermalThrottleStep_keeps _ _ h
  | graceTimerExpiry _ => exact execGraceTimerExpiry_keeps _ _ h
  | hbmTempRead _ _ _ => exact execHbmTempRead_keeps _ _ _ _ h
  | diePwrOn _ _ => exact execDiePwrOn_keeps _ _ _ h
  | powerGood _ _ => exact execPowerGood_keeps _ _ _ h
  | thmCfg _ _ => exact execThmCfg_keeps _ _ _ h
  | fabFence _ _ => exact execFabFence_keeps _ _ _ h
  | registerWrite _ _ _ => exact execRegisterWrite_keeps _ _ _ _ h
  | statusGet _ _ => exact execStatusGet_keeps _ _ _ h
  | siteMapGet _ _ => exact execSiteMapGet_keeps _ _ _ h
  | fabricGet _ _ => exact execFabricGet_keeps _ _ _ h
  | hatchStatus _ _ => exact execHatchStatus_keeps _ _ _ h
  | attestGet _ _ => exact execAttestGet_keeps _ _ _ h
  | dieRead _ _ => exact execDieRead_keeps _ _ _ h
  | jobOpen _ => exact execJobOpen_keeps _ _ h
  | jobClose _ => exact execJobClose_keeps _ _ h
  | teardown _ => exact execTeardown_keeps _ _ h
  | evict _ => exact execEvict_keeps _ _ h
  | fabricPut _ => exact execFabricPut_keeps _ _ h
  | rankTablePut _ => exact execRankTablePut_keeps _ _ h
  | siteMapPut _ => exact execSiteMapPut_keeps _ _ h
  | powerLimitSet _ => exact execPowerLimitSet_keeps _ _ h
  | noticeRoute _ => exact execNoticeRoute_keeps _ _ h
  | katRun _ => exact execKatRun_keeps _ _ h
  | reset _ => exact execReset_keeps _ _ h
  | firmwarePut _ => exact execFirmwarePut_keeps _ _ h
  | firmwareActivate _ => exact execFirmwareActivate_keeps _ _ h
  | keysPut _ => exact execKeysPut_keeps _ _ h
  | bulkPut _ => exact execBulkPut_keeps _ _ h
  | bulkGet _ => exact execBulkGet_keeps _ _ h
  | regionPut _ => exact execRegionPut_keeps _ _ h
  | regionDelete _ => exact execRegionDelete_keeps _ _ h
  | menuLoad _ => exact execMenuLoad_keeps _ _ h
  | menuUnload _ => exact execMenuUnload_keeps _ _ h
  | launch _ => exact execLaunch_keeps _ _ h
  | collPlanPut _ => exact execCollPlanPut_keeps _ _ h
  | collPlanDelete _ => exact execCollPlanDelete_keeps _ _ h
  | queueFlush _ => exact execQueueFlush_keeps _ _ h
  | commandAccept _ => exact execCommandAccept_keeps _ _ h
  | commandExecuteStart _ => exact execCommandExecuteStart_keeps _ _ h
  | bulkData _ => exact execBulkData_keeps _ _ h
  | bulkAck _ => exact execBulkAck_keeps _ _ h
  | bulkAckTimer _ => exact execBulkAckTimer_keeps _ _ h
  | bulkAbandoned _ => exact execBulkAbandoned_keeps _ _ h
  | finishRepeat => exact execFinishRepeat_keeps _ h
  | noticeAck _ => exact execNoticeAck_keeps _ _ h
  | noticeResend => exact execNoticeResend_keeps _ h
  | lifelineStatus _ => exact execLifelineStatus_keeps _ _ h
  | journalRead _ => exact execJournalRead_keeps _ _ h
  | logDump _ => exact execLogDump_keeps _ _ h
  | laserOff _ => exact execLaserOff_keeps _ _ h
  | portOff _ => exact execPortOff_keeps _ _ h
  | diePowerOff _ => exact execDiePowerOff_keeps _ _ h
  | panelReset _ => exact execPanelReset_keeps _ _ h
  | powerDown _ => exact execPowerDown_keeps _ _ h
  | heartbeat _ => exact execHeartbeat_keeps _ _ h
  | heartbeatLoss _ => exact execHeartbeatLoss_keeps _ _ h
  | failLine _ => exact execFailLine_keeps _ _ h
  | firmwareWatchdog _ => exact execFirmwareWatchdog_keeps _ _ h
  | bridgeClaim _ _ => exact execBridgeClaim_keeps _ _ _ h
  | neighbourSolicitation => exact execNeighbourSolicitation_keeps _ h
  | ptpMessage _ => exact execPtpMessage_keeps _ _ h
  | katCheckpoint _ => exact execKatCheckpoint_keeps _ _ h
  | katDone _ _ _ _ _ => exact execKatDone_keeps _ _ _ _ _ _ h
  | accumulatorClose _ _ _ => exact execAccumulatorClose_keeps _ _ _ _ h
  | cntRead _ _ _ _ => exact execCntRead_keeps _ _ _ _ _ h
  | cntCtl _ _ _ _ => exact execCntCtl_keeps _ _ _ _ _ h
  | portWindowEnd _ => exact execPortWindowEnd_keeps _ _ h
  | sampleWindowEnd _ => exact execSampleWindowEnd_keeps _ _ h
  | slotTimerFire _ _ => exact execSlotTimerFire_keeps _ _ _ h
  | sbGp0Edge => exact execSbGp0Edge_keeps _ h
  | busbarDip _ => exact execBusbarDip_keeps _ _ h
  | busbarHigh _ => exact execBusbarHigh_keeps _ _ h
  | busbarLoss _ => exact execBusbarLoss_keeps _ _ h
  | busbarOvervoltage _ => exact execBusbarOvervoltage_keeps _ _ h
  | referenceClockRelease _ _ _ _ => exact execReferenceClockRelease_keeps _ _ _ _ _ h
  | bringUpStepDone _ _ _ => exact execBringUpStepDone_keeps _ _ _ _ h
  | takeoverComplete _ => exact execTakeoverComplete_keeps _ _ h
  | relockComplete _ _ _ => exact execRelockComplete_keeps _ _ _ _ h
  | callEnd _ _ => exact execCallEnd_keeps _ _ _ h
  | hostLinkChange _ => exact execHostLinkChange_keeps _ _ h

end Sys2Proof.Machine
end

