-- ==== Sys2Proof/WellFormed.lean ====
section
/-! DEFINITION. Well-formed commands: every number names a thing that the module has (R23, R24, R76, R89, R197, R212,
R229, R243, R250, R408). -/
namespace Sys2Proof

/-- The 52 die sites (R24). -/
def siteOk (n : Nat) : Bool := decide (n < 52)
/-- The two cores of a die (R76). -/
def coreOk (n : Nat) : Bool := decide (n < 2)
/-- The 16 threads of a core (R76). -/
def threadOk (n : Nat) : Bool := decide (n < 16)
/-- The four arrays of a die (R89). -/
def arrayOk (n : Nat) : Bool := decide (n < 4)
/-- The four ladle channels (R197). -/
def chanOk (n : Nat) : Bool := decide (n < 4)
/-- The four fibre pairs of a die (R229). -/
def pairOk (n : Nat) : Bool := decide (n < 4)
/-- The nine ports: 0 to 7 and HOST (R243). -/
def portOk (n : Nat) : Bool := decide (n < 9)
/-- The 12 laser bays (R250). -/
def bayOk (n : Nat) : Bool := decide (n < 12)
/-- The 16 hatches (R408). -/
def hatchOk (n : Nat) : Bool := decide (n < 16)
/-- The two hearths (R399). -/
def hearthOk (n : Nat) : Bool := decide (n < 2)
/-- The 1,024 queues (R215). -/
def queueOk (n : Nat) : Bool := decide (n < 1024)
/-- The 15 units that ask for leave (R376). -/
def unitOk (n : Nat) : Bool := decide (n < 15)
/-- The 30 power domains (R369). -/
def domainOk (n : Nat) : Bool := decide (n < 30)
/-- The four packet classes (R279). -/
def classOk (n : Nat) : Bool := decide (n < 4)
/-- The 16 lanes of a pair (R247). -/
def laneOk (n : Nat) : Bool := decide (n < 16)
/-- The 64 buckets of a die (R337). -/
def bucketOk (n : Nat) : Bool := decide (n < 64)
/-- The eight turn-slot timers (R482). -/
def timerOk (n : Nat) : Bool := decide (n < 8)
/-- The 127 groups of a die (R285). -/
def gatewayOk (n : Nat) : Bool := decide (n < 127)
/-- The 52 dies and the two hearths, whose sensors are read (R384). -/
def sensedOk (n : Nat) : Bool := decide (n < 54)

/-- A command is well formed. -/
def Instr.wf (i : Instr) : Bool :=
  match i with
  | .coldReset => true
  | .bringUpStart => true
  | .bothHearthsFailed => true
  | .dieResetRestart d => siteOk d.die && d.strap < 4 && d.links.all (fun l => siteOk l.1 && l.2 < 4)
  | .portResetEnd port => portOk port
  | .turnTick _ _ _ _ => true
  | .beaconSend d p _ => siteOk d && pairOk p
  | .turnLock => true
  | .turnHoldoverEntry => true
  | .turnHoldover => true
  | .turnMisaligned => true
  | .courseFetchDone d c => siteOk d && coreOk c
  | .courseStart d c _ => siteOk d && coreOk c
  | .menuAbort _ => true
  | .courseWatchdog d c => siteOk d && coreOk c
  | .nop d c t _ => siteOk d && coreOk c && threadOk t
  | .endThread d c t _ => siteOk d && coreOk c && threadOk t
  | .waitTag d c t _ => siteOk d && coreOk c && threadOk t
  | .waitTagSatisfied d c t => siteOk d && coreOk c && threadOk t
  | .waitQueue d c t _ => siteOk d && coreOk c && threadOk t
  | .waitQueueSatisfied d c t => siteOk d && coreOk c && threadOk t
  | .setCtr d c t _ => siteOk d && coreOk c && threadOk t
  | .addCtr d c t _ => siteOk d && coreOk c && threadOk t
  | .loop d c t _ => siteOk d && coreOk c && threadOk t
  | .branch d c t _ => siteOk d && coreOk c && threadOk t
  | .fork d c t _ => siteOk d && coreOk c && threadOk t
  | .tileAddr d c t _ => siteOk d && coreOk c && threadOk t
  | .tileShape d c t _ => siteOk d && coreOk c && threadOk t
  | .tileScale d c t _ => siteOk d && coreOk c && threadOk t
  | .tileTensor d c t _ => siteOk d && coreOk c && threadOk t
  | .tileOrigin d c t _ => siteOk d && coreOk c && threadOk t
  | .mode d c t _ => siteOk d && coreOk c && threadOk t
  | .modeTakeEffect d c => siteOk d && coreOk c
  | .loadW d c t _ => siteOk d && coreOk c && threadOk t
  | .loadWStart d a => siteOk d && arrayOk a
  | .loadWComplete d a => siteOk d && arrayOk a
  | .flip d c t _ => siteOk d && coreOk c && threadOk t
  | .flipTakeEffect d a => siteOk d && arrayOk a
  | .matmul d c t _ => siteOk d && coreOk c && threadOk t
  | .matmulStreamStart d a => siteOk d && arrayOk a
  | .matmulComplete d a _ => siteOk d && arrayOk a
  | .setParam d c t _ => siteOk d && coreOk c && threadOk t
  | .add d c t _ => siteOk d && coreOk c && threadOk t
  | .mul d c t _ => siteOk d && coreOk c && threadOk t
  | .fma d c t _ => siteOk d && coreOk c && threadOk t
  | .axpby d c t _ => siteOk d && coreOk c && threadOk t
  | .max d c t _ => siteOk d && coreOk c && threadOk t
  | .convert d c t _ => siteOk d && coreOk c && threadOk t
  | .relu d c t _ => siteOk d && coreOk c && threadOk t
  | .gelu d c t _ => siteOk d && coreOk c && threadOk t
  | .silu d c t _ => siteOk d && coreOk c && threadOk t
  | .swiglu d c t _ => siteOk d && coreOk c && threadOk t
  | .reluBwd d c t _ => siteOk d && coreOk c && threadOk t
  | .geluBwd d c t _ => siteOk d && coreOk c && threadOk t
  | .siluBwd d c t _ => siteOk d && coreOk c && threadOk t
  | .swigluBwd d c t _ => siteOk d && coreOk c && threadOk t
  | .rowSum d c t _ => siteOk d && coreOk c && threadOk t
  | .rowMax d c t _ => siteOk d && coreOk c && threadOk t
  | .rowSumsq d c t _ => siteOk d && coreOk c && threadOk t
  | .colSumAcc d c t _ => siteOk d && coreOk c && threadOk t
  | .rowArgmax d c t _ => siteOk d && coreOk c && threadOk t
  | .colDotAcc d c t _ => siteOk d && coreOk c && threadOk t
  | .layernorm d c t _ => siteOk d && coreOk c && threadOk t
  | .rmsnorm d c t _ => siteOk d && coreOk c && threadOk t
  | .layernormBwd d c t _ => siteOk d && coreOk c && threadOk t
  | .rmsnormBwd d c t _ => siteOk d && coreOk c && threadOk t
  | .softmax d c t _ => siteOk d && coreOk c && threadOk t
  | .softmaxBwd d c t _ => siteOk d && coreOk c && threadOk t
  | .normXhat d c t _ => siteOk d && coreOk c && threadOk t
  | .sgdMom d c t _ => siteOk d && coreOk c && threadOk t
  | .adamw d c t _ => siteOk d && coreOk c && threadOk t
  | .lion d c t _ => siteOk d && coreOk c && threadOk t
  | .ortho d c t _ => siteOk d && coreOk c && threadOk t
  | .digestFeed d c t _ => siteOk d && coreOk c && threadOk t
  | .vecCommandStart d c => siteOk d && coreOk c
  | .vecCommandComplete d c => siteOk d && coreOk c
  | .ldlRun d c t _ => siteOk d && coreOk c && threadOk t
  | .ldlDescFetch d ch => siteOk d && chanOk ch
  | .copy d ch => siteOk d && chanOk ch
  | .fill d ch => siteOk d && chanOk ch
  | .gather d ch => siteOk d && chanOk ch
  | .ldlDescComplete d ch => siteOk d && chanOk ch
  | .kilnWrite d _ => siteOk d
  | .glazeBlockRead d _ _ _ => siteOk d
  | .gatherGranuleRead d _ _ _ => siteOk d
  | .pantryRead d c _ _ => siteOk d && coreOk c
  | .qplItemComplete d q => siteOk d && queueOk q
  | .idleTimerFire d q => siteOk d && queueOk q
  | .flush d q => siteOk d && queueOk q
  | .pairGoDark d p => siteOk d && pairOk p
  | .pairEnterSafe d p _ => siteOk d && pairOk p
  | .call d p => siteOk d && pairOk p
  | .lightPresent d p => siteOk d && pairOk p
  | .answerHeard d p _ => siteOk d && pairOk p
  | .trainingComplete d p _ _ => siteOk d && pairOk p
  | .trainingTimeout d p => siteOk d && pairOk p
  | .lossOfLight d p => siteOk d && pairOk p
  | .linkReplayExhausted d p => siteOk d && pairOk p
  | .pauseStart d p => siteOk d && pairOk p
  | .pauseEnd d p => siteOk d && pairOk p
  | .presenceChange port _ => portOk port
  | .flitSend d p => siteOk d && pairOk p
  | .flitReceive d p _ _ _ => siteOk d && pairOk p
  | .idleFrameReceive d p _ _ => siteOk d && pairOk p
  | .replayTimeout d p => siteOk d && pairOk p
  | .nakResend d p => siteOk d && pairOk p
  | .laneMapChange d p _ => siteOk d && pairOk p
  | .laneDrop d p lane => siteOk d && pairOk p && laneOk lane
  | .switchoverWindowCheck port => portOk port
  | .sourceSwitch port => portOk port
  | .sourceSwitchDone port => portOk port
  | .lsmInsert bay _ => bayOk bay
  | .lsmQualified bay => bayOk bay
  | .lsmFailed bay _ => bayOk bay
  | .serviceButtonPress bay => bayOk bay
  | .packetInject d cls => siteOk d && classOk cls
  | .packetForward d => siteOk d
  | .packetEject d => siteOk d
  | .bounce d => siteOk d
  | .gatewayExclusionExpiry d g => siteOk d && gatewayOk g
  | .rankTableSwitch => true
  | .rateStep d => siteOk d
  | .raLo d c t _ => siteOk d && coreOk c && threadOk t
  | .raHi d c t _ => siteOk d && coreOk c && threadOk t
  | .raAdd d c t _ => siteOk d && coreOk c && threadOk t
  | .load d c t _ => siteOk d && coreOk c && threadOk t
  | .store d c t _ => siteOk d && coreOk c && threadOk t
  | .atomic d c t _ => siteOk d && coreOk c && threadOk t
  | .send d c t _ => siteOk d && coreOk c && threadOk t
  | .take d c t _ => siteOk d && coreOk c && threadOk t
  | .fence d c t _ => siteOk d && coreOk c && threadOk t
  | .fenceComplete d c t => siteOk d && coreOk c && threadOk t
  | .loadPacket d => siteOk d
  | .storePacket d => siteOk d
  | .atomicPacket d => siteOk d
  | .sendPacket d => siteOk d
  | .blockRead d => siteOk d
  | .ack d => siteOk d
  | .data d => siteOk d
  | .result d => siteOk d
  | .busy d => siteOk d
  | .retransmitTimeout d _ => siteOk d
  | .targetLost d _ => siteOk d
  | .sourceSessionRelease d _ => siteOk d
  | .targetSessionExpiry d _ => siteOk d
  | .sessionQuietEnd d => siteOk d
  | .wskOpen d c t _ => siteOk d && coreOk c && threadOk t
  | .wskFire d c t _ => siteOk d && coreOk c && threadOk t
  | .wskJoin d c t _ => siteOk d && coreOk c && threadOk t
  | .bucketFire d b => siteOk d && bucketOk b
  | .preludeUp d => siteOk d
  | .preludeDown d => siteOk d
  | .slotCheck d b => siteOk d && bucketOk b
  | .dataPhaseStart d b => siteOk d && bucketOk b
  | .credit d => siteOk d
  | .chunkSend d b => siteOk d && bucketOk b
  | .chunkData d => siteOk d
  | .chunkAck d => siteOk d
  | .resend d => siteOk d
  | .chunkTimeout d b _ => siteOk d && bucketOk b
  | .agreeUp d => siteOk d
  | .release d => siteOk d
  | .abort d => siteOk d
  | .cack d => siteOk d
  | .ctlRepeatTimeout d _ _ => siteOk d
  | .collTimeout d b => siteOk d && bucketOk b
  | .abortRaise d b => siteOk d && bucketOk b
  | .leaveRequest d unit => siteOk d && unitOk unit
  | .leaveGrant d => siteOk d
  | .rampFall d => siteOk d
  | .lveBook d c t _ => siteOk d && coreOk c && threadOk t
  | .lveRelease d c t _ => siteOk d && coreOk c && threadOk t
  | .budgetRecompute _ _ => true
  | .sensorReading d _ => sensedOk d
  | .slopeHoldEnd d => siteOk d
  | .thermalThrottleStep d => siteOk d
  | .graceTimerExpiry d => siteOk d
  | .hbmTempRead d _ _ => siteOk d
  | .diePwrOn d _ => siteOk d
  | .powerGood d dom => siteOk d && domainOk dom
  | .thmCfg d _ => siteOk d
  | .fabFence d _ => siteOk d
  | .registerWrite d _ _ => siteOk d
  | .statusGet h _ => hatchOk h
  | .siteMapGet h _ => hatchOk h
  | .fabricGet h _ => hatchOk h
  | .hatchStatus h _ => hatchOk h
  | .attestGet h _ => hatchOk h
  | .dieRead h _ => hatchOk h
  | .jobOpen h => hatchOk h
  | .jobClose h => hatchOk h
  | .teardown h => hatchOk h
  | .evict h => hatchOk h
  | .fabricPut h => hatchOk h
  | .rankTablePut h => hatchOk h
  | .siteMapPut h => hatchOk h
  | .powerLimitSet h => hatchOk h
  | .noticeRoute h => hatchOk h
  | .katRun h => hatchOk h
  | .reset h => hatchOk h
  | .firmwarePut h => hatchOk h
  | .firmwareActivate h => hatchOk h
  | .keysPut h => hatchOk h
  | .bulkPut h => hatchOk h
  | .bulkGet h => hatchOk h
  | .regionPut h => hatchOk h
  | .regionDelete h => hatchOk h
  | .menuLoad h => hatchOk h
  | .menuUnload h => hatchOk h
  | .launch h => hatchOk h
  | .collPlanPut h => hatchOk h
  | .collPlanDelete h => hatchOk h
  | .queueFlush h => hatchOk h
  | .commandAccept _ => true
  | .commandExecuteStart h => hatchOk h
  | .bulkData _ => true
  | .bulkAck _ => true
  | .bulkAckTimer h => hatchOk h
  | .bulkAbandoned h => hatchOk h
  | .finishRepeat => true
  | .noticeAck _ => true
  | .noticeResend => true
  | .lifelineStatus _ => true
  | .journalRead _ => true
  | .logDump _ => true
  | .laserOff _ => true
  | .portOff _ => true
  | .diePowerOff _ => true
  | .panelReset _ => true
  | .powerDown _ => true
  | .heartbeat k => hearthOk k
  | .heartbeatLoss k => hearthOk k
  | .failLine k => hearthOk k
  | .firmwareWatchdog k => hearthOk k
  | .bridgeClaim k _ => hearthOk k
  | .neighbourSolicitation => true
  | .ptpMessage _ => true
  | .katCheckpoint d => siteOk d
  | .katDone d _ _ _ _ => siteOk d
  | .accumulatorClose d c _ => siteOk d && coreOk c
  | .cntRead d c t _ => siteOk d && coreOk c && threadOk t
  | .cntCtl d c t _ => siteOk d && coreOk c && threadOk t
  | .portWindowEnd d => siteOk d
  | .sampleWindowEnd d => siteOk d
  | .slotTimerFire d k => siteOk d && timerOk k
  | .sbGp0Edge => true
  | .busbarDip _ => true
  | .busbarHigh _ => true
  | .busbarLoss _ => true
  | .busbarOvervoltage _ => true
  | .referenceClockRelease _ _ _ _ => true
  | .bringUpStepDone _ _ _ => true
  | .takeoverComplete k => hearthOk k
  | .relockComplete d p _ => siteOk d && pairOk p
  | .callEnd d p => siteOk d && pairOk p
  | .hostLinkChange _ => true

end Sys2Proof
end

