-- ==== Sys2Proof/Tests/Slice0.lean ====
section
/-! SUPPORT. Tests of our own: checks of well-formedness, small facts with values from the spec, and for every statement a
concrete state and operands that meet all of its hypotheses together. -/
namespace Sys2Proof.Tests

set_option Elab.async false
open Sys2Proof Sys2Proof.Machine Sys2Proof.Laws

/-- A course word: UNIT, OP, TAG, and values at bit positions. -/
def wd (unit op tag : Nat) (fs : List (Nat × Nat)) : W64 :=
  BitVec.ofNat 64 (unit * 2 ^ 60 + op * 2 ^ 54 + tag * 2 ^ 50 + (fs.map (fun f => f.1 * 2 ^ f.2)).sum)

/-- A state whose die 0 runs a course on core 0 with the word at thread 0, the die changed by `f`. -/
def one (w : W64) (f : Die → Die := id) : State :=
  { dies := [(0, f { seqs := [(0, { menu := some 0, running := true, words := [w, 0], threads := [(0, { started := true })] })] })]
    menus := [{ state := .running }] }

/-- A state with only die 0. -/
def oneDie (x : Die) : State := { dies := [(0, x)] }

/-- An image of 512 bytes with little-endian fields (offset, width, value). -/
def pk (fs : List (Nat × Nat × Nat)) : Bytes :=
  fs.foldl (fun b f => patch b [(f.1, leBytes f.2.1 f.2.2)]) (List.replicate 512 0)

/-- A menu package of one course for die 0, with one turn a round, and its resource plan at 0x140 (R67). -/
def mpk (fs : List (Nat × Nat × Nat)) : Bytes :=
  pk ([(0x14, 4, 1), (0x18, 8, 1), (0x20, 4, 1), (0x28, 8, 0x80), (0x30, 8, 0x100), (0x38, 8, 0x120), (0x40, 8, 0x140)] ++ fs)

/-- An FP8 operand tile at 0 and an FP32 tile at 1,024 (R127). -/
def tileX : Tile := { stride := 64, rows := 2, cols := 4, fmt := 8, addrSet := true, shapeSet := true }
def tileY : Tile := { tileX with base := 1024, fmt := 10 }

def tileTwo (x : Die) : Die := { x with tiles := [(0, tileX), (1, tileY)] }

/-- `one` on a Skillet core (R163), its streams as given. -/
def skone (w : W64) (g : Gang := {}) : State :=
  { one w (fun x => { tileTwo x with gangs := [(0, g)] }) with menus := [{ pkg := mpk [(4, 4, 2)], state := .running }] }

/-- Every thread of `one w f` waits for nothing. -/
theorem one_ready (w : W64) (f : Die → Die) (hf : ∀ x, (f x).seqs = x.seqs) (c t : Nat) :
    ((((one w f).die 0).seq c).thread t).wait = .ready := by
  have h : ((one w f).die 0).seqs = [(0, { menu := some 0, running := true, words := [w, 0], threads := [(0, { started := true })] })] :=
    hf _
  unfold Die.seq
  rw [h]
  by_cases hc : 0 = c
  · subst hc
    by_cases ht : 0 = t
    · subst ht; rfl
    · simp [Tab.getD, Tab.find, Seq.thread, ht]
  · simp [Tab.getD, Tab.find, Seq.thread, hc]

/-- A pair in RUN with a full replay buffer. -/
theorem kept_full (l : List KeptFlit) (h : 8192 ≤ l.length) :
    (({ dies := [(0, { pairs := [(0, { state := .run, kept := l })] })] } : State).pair 0 0).state = .run ∧
    (({ dies := [(0, { pairs := [(0, { state := .run, kept := l })] })] } : State).pair 0 0).resend = none ∧
    8192 ≤ (({ dies := [(0, { pairs := [(0, { state := .run, kept := l })] })] } : State).pair 0 0).kept.length := ⟨rfl, rfl, h⟩

/-- A plan of ranks 0 and 1 on die 0 with FP32 on the wire (R334): KIND and other fields are zero but for `fs`. -/
def wplan (fs : List (Nat × Bytes)) : Bytes := patch (List.replicate 72 0) ([(0x18, [1]), (0x40, [3]), (3, [2])] ++ fs)

/-- A menu that binds bucket 5 to plan 7 on die 0, with one slot (R337, R340). -/
def wmenu : Menu :=
  { pkg := mpk [(0x150, 8, 0x180), (0x180, 2, 1), (0x184, 4, 1), (0x188, 1, 5), (0x18A, 2, 7), (0x18C, 4, 400), (0x1CD, 1, 5)]
    state := .running, n := 2 }

/-- The fabric of rank `r` of two. -/
def wfab (r : Nat) : Fabric := { selfValid := true, rank := r, ranks := [(0, 0x8000), (1, 0x8000)] }

/-- Bucket 5 with plan 7. -/
def wbind (fs : List (Nat × Bytes) := []) : Bind := { bucket := 5, planId := 7, size := 400, plan := wplan fs }

/-- Die 0 of rank `r` with an instance of bucket 5 and packets that wait. -/
def wdie (r : Nat) (i : Inst) (q : List Packet := []) : State :=
  { dies := [(0, { standsFor := 0, fab := wfab r, whisk := { insts := [(5, i)] }, rem := { rx := q }, seqs := [(0, { menu := some 0 })] })]
    menus := [wmenu] }

/-- A core of die 0 that runs a word of the whisk. -/
def wone (w : W64) (i : Inst) : State :=
  { one w (fun x => { x with standsFor := 0, whisk := { insts := [(5, i)] }, fab := wfab 0 }) with
    menus := [wmenu], panel := { plans := [(7, wplan [])] } }

/-- A whisk packet of instance 0 of plan 7 from rank 1. -/
def wpkt (kind index phase stage : Nat) (payload : Bytes) : Packet :=
  { srcRank := 1, cls := clsCtl, trans := wskTrans kind 0 7 0 0 index phase stage 0 0, payload := payload }

/-- A panel that serves Gwyntu over the HOST link; both hearths run from slot 0. -/
def srv : Panel :=
  { bring := { step := 13 }, hearths := [(0, { role := .primary, booted := some 0 }), (1, { role := .partner, booted := some 0 })]
    ports := [(8, { up := true })], hatches := [(0, { key := some 0 }), (1, { key := some 0 }), (15, { key := some 0 })]
    job := some {} }

/-- The entry of the first command of a hatch, which executes. -/
def ent (h op : Nat) (pl : Bytes) : Entry := { hatch := h, seq := 1, state := .executing, opcode := op, payload := pl }

/-- A state that executes a command of hatch `h`. -/
def cmd (h op : Nat) (pl : Bytes) (f : Panel → Panel := id) : State := { panel := f { srv with journal := [ent h op pl] } }

/-- Zeros of a length with little-endian fields (offset, width, value). -/
def pz (n : Nat) (fs : List (Nat × Nat × Nat) := []) : Bytes := patch (List.replicate n 0) (fs.map (fun f => (f.1, leBytes f.2.1 f.2.2)))

/-- The first 48 bytes of a datagram's header (R406) with `n` bytes of payload. -/
def dgh (fs : List (Nat × Nat × Nat)) (n : Nat) : Bytes :=
  pz 48 ([(0, 4, 0x47574E59), (4, 1, 1), (0x20, 8, 1), (0x16, 2, n)] ++ fs)

/-- A header, its TAG under key 0, and a payload. -/
def withTag (h pl : Bytes) : Bytes := h ++ (Sm3.hmac (leBytes 32 0) (h ++ List.replicate 16 0 ++ pl)).take 16 ++ pl

def dgm (fs : List (Nat × Nat × Nat)) (pl : Bytes) : Bytes := withTag (dgh fs pl.length) pl

/-- Site 0 serves logical die 0. -/
def live0 : Tab SiteEntry := [(0, { state := .active, standsFor := 0 })]

/-- Pair 0 of die 0 of a panel whose port X+ is enabled, seated and fed (R244). -/
def lit (k : Pair) (f : Die → Die := id) : State :=
  { dies := [(0, f { power := { good := 0x3FFFFFFF }, pairs := [(0, k)] })]
    live := [(0, {})], panel := { ports := [(0, { state := 2, contact := true, feed := some 0 })] } }

/-- A region of one block of HBM (R186). -/
def regionOne : Region := { base := 5, valid := true, tensor := 3 }

/-- Such a datagram is authentic. -/
theorem withTag_authentic (p : Panel) (h pl : Bytes) (hl : h.length = 48)
    (hg : let g := GwHeader.parse (withTag h pl)
      (g.magic = 0x47574E59 ∧ g.version = 1 ∧ g.serial = p.serial ∧ g.typ ≠ 2 ∧ g.typ ≠ 3) ∧ (p.hatch g.hatch).key = some 0) :
    p.authentic (withTag h pl) = true := by
  obtain ⟨⟨h1, h2, h3, h4, h5⟩, hk⟩ := hg
  have hn : 64 ≤ (withTag h pl).length := by simp [withTag, Sm3.hmac, hl]; omega
  have ht : tagOf 0 (withTag h pl) = sliceAt (withTag h pl) 48 16 := tagOf_append 0 h pl hl
  unfold Panel.authentic
  simp only [hk, h1, h2, h3, ht]
  simp [h4, h5, hn]

theorem withTag_length (h pl : Bytes) (hl : h.length = 48) : (withTag h pl).length = 64 + pl.length := by
  simp [withTag, Sm3.hmac, hl]; omega

theorem find_map (f : Nat → Die) (l : List Nat) (k : Nat) (h : k ∉ l) : Tab.find (l.map (fun d => (d, f d))) k = none := by
  induction l with
  | nil => rfl
  | cons a l ih =>
    simp only [List.mem_cons, not_or] at h
    simp [Tab.find, ih h.2, Ne.symm h.1]

theorem memOk_reset : State.reset.MemOk := by
  intro d
  by_cases h : d < 52
  · revert d; decide +kernel
  · have : State.reset.die d = {} := by
      unfold State.die Tab.getD
      rw [show State.reset.dies.find d = none from find_map _ _ d (by simpa using h)]
    rw [this]; rfl

/-- A rank table whose only entry is rank 0 at coordinates 0. -/
theorem table_none_odd : (rankEntries [(0, [0, 0x80])]).any (fun e => bitAt e.2 14) = false := by
  rw [List.any_eq_false]
  intro e he
  simp only [rankEntries, List.mem_map, List.mem_range] at he
  obtain ⟨r, hr, rfl⟩ := he
  by_cases h : r = 0
  · subst h; decide
  · by_cases h2 : r / 2048 = 0
    · have h3 : r % 2048 = r := Nat.mod_eq_of_lt (by omega)
      have h4 : ([0, 0x80] : Bytes).drop (2 * r) = [] := List.drop_eq_nil_of_le (by simp; omega)
      simp only [Tab.getD, Tab.find, h2, leAt, h3, if_true, h4]; decide
    · simp [Tab.getD, Tab.find, Ne.symm h2, leAt, leNat, bitAt]

theorem table_ok (s : State) (rank epoch turn : Nat) (h1 : s.panel.job.isNone = false)
    (h2 : (! bitAt ((rankEntries [(0, [0, 0x80])]).getD rank 0) 15 || ! s.panel.fabric.coordValid ||
      (rankEntries [(0, [0, 0x80])]).getD rank 0 % 2 ^ 14 ≠ s.panel.fabric.coord) = false)
    (h3 : s.panel.fabric.inForce = none) (h4 : s.tooLate turn = false) :
    s.tableCode rank epoch turn (rankEntries [(0, [0, 0x80])]) = 0 := by
  unfold State.tableCode
  simp only [h1, h2, h3, h4, table_none_odd]
  simp

theorem withTag_drop (h pl : Bytes) (hl : h.length = 48) : (withTag h pl).drop 64 = pl := by
  rw [show 64 = (h ++ (Sm3.hmac (leBytes 32 0) (h ++ List.replicate 16 0 ++ pl)).take 16).length by simp [hl, Sm3.hmac], withTag, List.drop_left]

/-- A bitmap of pages 0 and 1. -/
theorem bitmap_two : bitmapPages 0 ((3 : Byte) :: List.replicate 511 0) = [0, 1] := by
  unfold bitmapPages
  rw [show 4096 = 8 + 4088 from rfl, List.range_add, List.filter_append, List.filter_eq_nil_iff (l := List.map _ _) |>.mpr]
  · decide +kernel
  · intro j hj
    obtain ⟨i, _, rfl⟩ := List.mem_map.mp hj
    rw [show byteAt ((3 : Byte) :: List.replicate 511 0) ((8 + i) / 8) = 0 from leAt_zeros [3] 511 _ 1 (by simp)]
    simp

/-- A BULK_ACK that holds pages 0 and 1. -/
def ackDg : Bytes := dgm [(5, 1, 6), (6, 1, 1), (8, 6, 1)] ((3 : Byte) :: List.replicate 511 0)

theorem ack_held (b : Bulk) (h : [0, 1].foldl (fun l k => insertNat k l) b.held = [0, 1]) (hn : b.next = 2) (hp : b.pages = 2) :
    ((((bitmapPages (GwHeader.parse ackDg).arg (ackDg.drop 64)).filter (fun k => decide (k < b.next))).foldl
      (fun l k => insertNat k l) b.held).length = b.pages) := by
  have h1 : (GwHeader.parse ackDg).arg = 0 := by decide +kernel
  have h2 : ackDg.drop 64 = (3 : Byte) :: List.replicate 511 0 := withTag_drop _ _ (by decide +kernel)
  rw [h1, h2, bitmap_two, hn, hp]
  exact congrArg List.length h

/-- A frame with its CRC is good, and its NAK is read. -/
theorem idle_some (e : Bytes) (h : e.length = 508) (h0 : leAt (e ++ leBytes 4 (crc32 e)) 0 2 = 1) :
    let b := e ++ leBytes 4 (crc32 e)
    IdleFrame.decode b = some ((IdleFrame.decode b).getD {}) ∧ ((IdleFrame.decode b).getD {}).nak = bitAt (leAt b 8 4) 0 := by
  have h1 : (e ++ leBytes 4 (crc32 e)).take 508 = e := by rw [← h, List.take_left]
  have h2 : leAt (e ++ leBytes 4 (crc32 e)) 508 4 = crc32 e := by
    rw [← h, leAt_append, ← List.append_nil (leBytes 4 _), leNat_leBytes_of_lt (crc32_lt e)]
  unfold IdleFrame.decode
  simp [h1, h2, h, h0]

theorem fabric_ok (a : Bytes) (ha : a.length = 40) (h : let pl := a ++ List.replicate 1016 0
      (leAt pl 0 8 < 16 && leAt pl 8 8 < 2 ^ 17 && ! bitAt (leAt pl 8 8) 14 && leAt pl 0x10 8 < 256 && leAt pl 0x10 8 % 8 = 0 &&
        ! bitAt (leAt pl 0x20 8) 63) = true) : fabricOk (a ++ List.replicate 1016 0) = true := by
  have hl : (a ++ List.replicate 1016 0).length = 1056 := by rw [List.length_append, ha, List.length_replicate]
  have hz : (List.range 508).all (fun e => bits (leAt (a ++ List.replicate 1016 0) (0x28 + 2 * e) 2) 13 8 = 0) = true := by
    rw [List.all_eq_true]
    intro e _
    rw [leAt_zeros a 1016 _ 2 (by omega)]
    rfl
  unfold fabricOk
  revert h hl hz
  generalize a ++ List.replicate 1016 0 = pl
  intro h hl hz
  simp only [Bool.and_eq_true] at h ⊢
  obtain ⟨⟨⟨⟨⟨h1, h2⟩, h3⟩, h4⟩, h5⟩, h6⟩ := h
  exact ⟨⟨⟨⟨⟨⟨⟨decide_eq_true hl, h1⟩, h2⟩, h3⟩, h4⟩, h5⟩, h6⟩, hz⟩

theorem inl_of_isLeft (z : Bytes ⊕ Nat) (h : z.isLeft = true) : z = .inl (z.getLeft?.getD []) := by
  cases z with
  | inl a => rfl
  | inr b => cases h

theorem find_all {α : Type} (q : α → Prop) (l : Tab α) (h : ∀ e ∈ l, q e.2) (d : α) (hd : q d) (k : Nat) : q (Tab.getD l k d) := by
  induction l with
  | nil => exact hd
  | cons e l ih =>
    obtain ⟨i, v⟩ := e
    have ht := ih (fun e he => h e (List.mem_cons_of_mem _ he))
    have hv : q v := h (i, v) (List.mem_cons_self ..)
    unfold Tab.getD at ht ⊢
    unfold Tab.find
    by_cases hi : i = k
    · rw [if_pos hi]; exact hv
    · rw [if_neg hi]; exact ht

theorem unpressed (s : State) (h : ∀ e ∈ s.panel.bays, e.2.pressed = false) (b : Nat) : (s.bay b).pressed = false :=
  find_all (fun (y : Bay) => y.pressed = false) _ h _ rfl b

theorem no_switch (s : State) (h : ∀ e ∈ s.panel.ports, e.2.switching = none) (n : Nat) (w : Switchover) :
    (s.port n).switching ≠ some w := by
  rw [show (s.port n).switching = none from find_all (fun (p : Port) => p.switching = none) _ h _ rfl n]; exact fun h => nomatch h

/-! ### Well-formed commands: the first number past each range is refused -/

theorem test_wf_site : (Instr.loadWStart 51 0).wf = true ∧ (Instr.loadWStart 52 0).wf = false := by decide
theorem test_wf_core : (Instr.courseFetchDone 0 1).wf = true ∧ (Instr.courseFetchDone 0 2).wf = false := by decide
theorem test_wf_thread : (Instr.nop 0 0 15 0).wf = true ∧ (Instr.nop 0 0 16 0).wf = false := by decide
theorem test_wf_array : (Instr.loadWStart 0 3).wf = true ∧ (Instr.loadWStart 0 4).wf = false := by decide
theorem test_wf_channel : (Instr.ldlDescFetch 0 3).wf = true ∧ (Instr.ldlDescFetch 0 4).wf = false := by decide
theorem test_wf_pair : (Instr.beaconSend 0 3 0).wf = true ∧ (Instr.beaconSend 0 4 0).wf = false := by decide
theorem test_wf_port : (Instr.portResetEnd 8).wf = true ∧ (Instr.portResetEnd 9).wf = false := by decide
theorem test_wf_bay : (Instr.lsmInsert 11 false).wf = true ∧ (Instr.lsmInsert 12 false).wf = false := by decide
theorem test_wf_hatch : (Instr.statusGet 15 []).wf = true ∧ (Instr.statusGet 16 []).wf = false := by decide
theorem test_wf_hearth : (Instr.heartbeat 1).wf = true ∧ (Instr.heartbeat 2).wf = false := by decide
theorem test_wf_queue : (Instr.qplItemComplete 0 1023).wf = true ∧ (Instr.qplItemComplete 0 1024).wf = false := by decide
theorem test_wf_unit : (Instr.leaveRequest 0 14).wf = true ∧ (Instr.leaveRequest 0 15).wf = false := by decide
theorem test_wf_domain : (Instr.powerGood 0 29).wf = true ∧ (Instr.powerGood 0 30).wf = false := by decide
theorem test_wf_class : (Instr.packetInject 0 3).wf = true ∧ (Instr.packetInject 0 4).wf = false := by decide
theorem test_wf_lane : (Instr.laneDrop 0 0 15).wf = true ∧ (Instr.laneDrop 0 0 16).wf = false := by decide
theorem test_wf_bucket : (Instr.bucketFire 0 63).wf = true ∧ (Instr.bucketFire 0 64).wf = false := by decide
theorem test_wf_timer : (Instr.slotTimerFire 0 7).wf = true ∧ (Instr.slotTimerFire 0 8).wf = false := by decide
theorem test_wf_gateway : (Instr.gatewayExclusionExpiry 0 126).wf = true ∧ (Instr.gatewayExclusionExpiry 0 127).wf = false := by decide
theorem test_wf_strap : (Instr.dieResetRestart ⟨0, 3, true, [(0, 3)], true⟩).wf = true ∧ (Instr.dieResetRestart ⟨0, 4, true, [], true⟩).wf = false ∧
    (Instr.dieResetRestart ⟨0, 0, true, [(0, 4)], true⟩).wf = false := by decide
theorem test_wf_sensed : (Instr.sensorReading 53 []).wf = true ∧ (Instr.sensorReading 54 []).wf = false := by decide

/-! ### Values from the spec's worked examples -/

/-- "One output block in MXFP8": 500.0, 300.0, −3.3 and 0.013 become 0x7E, 0x79, 0xC5 and 0x07 under the scale 0x7F. -/
theorem test_mx_block : narrowBlock 2 [0x43FA0000, 0x43960000, 0xC0533333, 0x3C54FDF4] (fun _ => none) = (0x7F, [0x7E, 0x79, 0xC5, 0x07]) := by
  decide +kernel

/-- The same example: a block whose largest magnitude is 0.003 has the scale 0x6E and the code 0x7C. -/
theorem test_mx_small : narrowBlock 2 [0x3B449BA6] (fun _ => none) = (0x6E, [0x7C]) := by decide +kernel

/-- The same example: 300.0 rounds up to 320 exactly from the random value 10,485,760 on. -/
theorem test_mx_stochastic :
    narrowBlock 2 [0x43FA0000, 0x43960000] (fun _ => some 10485759) = (0x7F, [0x7E, 0x79]) ∧
    (narrowBlock 2 [0x43FA0000, 0x43960000] (fun _ => some 10485760)).2.getD 1 0 = 0x7A := by decide +kernel

/-- R290: with S1_05 FAILED, the route from S1_04 to S2_12 turns at S2_04 and takes 9 hops. -/
theorem test_mesh_route : meshVia (fun d => d ≠ 18) 17 38 = some (some 30) ∧ meshHops (fun d => d ≠ 18) 17 38 = some 9 := by decide +kernel

/-- "A failed die replaced by its spare": S1_05 owns pair 8 of X+ and pair 9 of Y+, Z− and G1; S2_12 owns pair 25 of each. -/
theorem test_pair_numbers :
    ([0, 2, 5, 7] : List Nat).map (pairNumber 18) = [8, 9, 9, 9] ∧ ([0, 2, 5, 7] : List Nat).map (pairNumber 38) = [25, 25, 25, 25] := by
  decide +kernel

/-- The same example: S2_12 samples ORIENT_MIR = 1 and ORIENT_ROT = 0. -/
theorem test_straps : strapsOf 38 = 2 := by decide

/-- "A 32 MiB bucket": the agreed byte 120 with HEADROOM 3 gives E = −12, and 0.0123 is sent as 0x65. -/
theorem test_wire : (wbind [(5, [3])]).wireExp 120 = -12 ∧ wireOut 120 (-12) 0x3C4985F0 = (0x65, false) := by decide +kernel

/-- "A mailbox past its reservation": with 60 cells held of MIN_RES 64, an item of 6 cells takes 2 shared cells. -/
theorem test_mailbox :
    let q : Queue := { enable := true, minRes := 64, max := 192, maxItemM1 := 7, items := List.replicate 10 { cells := List.range 6 } }
    let p : Pool := { queues := [(22, q), (30, { items := [{ cells := [0] }], parts := [{ cells := List.range (65536 - 64 - 20 - 1) }] })] }
    p.free - p.ru = 20 ∧ (p.admission 22 6 (0, 0) 0).2 = .admitted ∧ (p.admission 22 6 (0, 0) 0).1.free - (p.admission 22 6 (0, 0) 0).1.ru = 18 := by
  decide +kernel

/-! ### Published check values -/

/-- SM3 of "abc" as GB/T 32905 gives it. -/
theorem test_sm3_abc : leNat 32 (Sm3.digest [0x61, 0x62, 0x63]).reverse = 0x66C7F0F462EEEDD9D1F2D46BDC10E4E24167C4875CF2F7A2297DA02B8F4BA8E0 := by
  decide +kernel

/-- The CRCs of "123456789". -/
theorem test_crcs :
    let b : Bytes := [0x31, 0x32, 0x33, 0x34, 0x35, 0x36, 0x37, 0x38, 0x39]
    crc32 b = 0xCBF43926 ∧ crc32c b = 0xE3069283 ∧ crc16 b = 0x29B1 ∧ crc64 b = 0x6C40DF5F0B497347 := by decide +kernel

/-! ### Witnesses: states and operands that meet the hypotheses of the statements, clause by clause -/

theorem wit_sequencer_words_complete :
  (let d : Nat := 0; let c : Nat := 0; let t : Nat := 0; let w : W64 := wd 0 0 1 []; let s : State := one (wd 0 0 1 []);
    s.issues d c t w 0 0 = true ∧ badSeqWord w 0 = false) ∧
  (let d : Nat := 0; let c : Nat := 0; let t : Nat := 0; let w : W64 := wd 0 4 2 [(7, 43), (0xFFFFFFFF, 0)]; let s : State := one w;
    s.issues d c t w 0 4 = true ∧ badSeqWord w (maskOf 45 43 + maskOf 31 0) = false) ∧
  (let d : Nat := 0; let c : Nat := 0; let t : Nat := 0; let w : W64 := wd 0 5 0 [(1, 43), (5, 0)]; let s : State := one w;
    s.issues d c t w 0 5 = true ∧ badSeqWord w (maskOf 45 43 + maskOf 31 0) = false) ∧
  (let d : Nat := 0; let c : Nat := 0; let t : Nat := 0; let w : W64 := wd 0 6 0 [(1, 43), (1, 0)]; let goal : Nat := 1;
    let s : State := one w; s.issues d c t w 0 6 = true ∧ badSeqWord w (maskOf 45 43 + maskOf 15 0) = false ∧
    ((s.die d).seq c).target (s.originOf d c t w) w = some goal) ∧
  (let d : Nat := 0; let c : Nat := 0; let t : Nat := 0; let w : W64 := wd 0 7 0 [(1, 43), (6, 40), (1, 0)]; let goal : Nat := 1;
    let s : State := one w; s.issues d c t w 0 7 = true ∧ badSeqWord w (maskOf 45 40 + maskOf 15 0) = false ∧ wField w 42 40 ≠ 7 ∧
    ((s.die d).seq c).target (s.originOf d c t w) w = some goal) ∧
  (let d : Nat := 0; let c : Nat := 0; let t : Nat := 0; let w : W64 := wd 0 8 0 [(15, 42), (1, 0)]; let goal : Nat := 1;
    let s : State := one w; s.issues d c t w 0 8 = true ∧ badSeqWord w (maskOf 45 42 + maskOf 15 0) = false ∧
    ((s.die d).seq c).target (s.originOf d c t w) w = some goal ∧ (((s.die d).seq c).thread (wField w 45 42)).started = false) := by and_intros <;> decide +kernel

theorem wit_waits_and_end_complete :
  (let d : Nat := 0; let c : Nat := 0; let t : Nat := 0; let w : W64 := wd 0 2 1 [(15, 42), (1, 32)]; let s : State := one w;
    s.issues d c t w 0 2 = true ∧ badSeqWord w (maskOf 45 32) = false ∧ wField w 45 42 ≠ 0 ∧ wField w 41 32 ≠ 0) ∧
  (let d : Nat := 0; let c : Nat := 0; let t : Nat := 0; let k : Nat := 3; let n : Nat := 1; let own : Nat := 2;
    let s : State := oneDie { seqs := [(0, { threads := [(0, { started := true, wait := .tag 3 1 2, tags := [(3, 1)] })] })] };
    (((s.die d).seq c).thread t).wait = .tag k n own ∧ n ≤ (((s.die d).seq c).thread t).tags.getD k 0) ∧
  (let d : Nat := 0; let c : Nat := 0; let t : Nat := 0; let w : W64 := wd 0 3 1 [(64, 32), (2, 16)];
    let m : Menu := { state := .running, pkg := mpk [(0x148, 8, 0x180), (0x180, 4, 1), (0x186, 2, 64)] };
    let s : State := { one w (fun x => { x with standsFor := 0, pool := { queues := [(64, { max := 2 })] } }) with menus := [m] };
    s.issues d c t w 0 3 = true ∧ badSeqWord w (maskOf 45 16) = false ∧ wField w 31 16 ≠ 0 ∧ s.menuAt d c = some m ∧
    m.threadQueue (s.die d).standsFor (wField w 45 32) = true ∧ 4 ≤ wField w 45 32 ∧ wField w 45 32 < 1024 ∧
    wField w 31 16 ≤ ((s.die d).queue (wField w 45 32)).max) ∧
  (let d : Nat := 0; let c : Nat := 0; let t : Nat := 0; let q : Nat := 64; let n : Nat := 1; let own : Nat := 2;
    let s : State := oneDie { seqs := [(0, { threads := [(0, { started := true, wait := .queue 64 1 2 })] })], pool := { queues := [(64, { items := [{ data := [1] }] })] } };
    (((s.die d).seq c).thread t).wait = .queue q n own ∧ n ≤ ((s.die d).queue q).depth) ∧
  (let d : Nat := 0; let c : Nat := 0; let t : Nat := 1; let w : W64 := wd 0 1 1 []; let e : Nat := 0;
    let s : State := oneDie { seqs := [(0, { running := true, words := [w, 0], threads := [(0, { started := true }), (1, { started := true })], last := 0 })] };
    s.issues d c t w 0 1 = true ∧ badSeqWord w 0 = false ∧ (((s.die d).seq c).threads.map Prod.fst).Pairwise (· < ·) ∧ e ≠ t ∧
    (((s.die d).seq c).threads.find e).isSome = true ∧ (((s.die d).seq c).thread e).started = true) ∧
  (let d : Nat := 0; let c : Nat := 0; let t : Nat := 0; let w : W64 := wd 0 1 1 []; let id := 0;
    let m : Menu := { state := .running, n := 1 }; let s : State := { one w with menus := [m] }; s.issues d c t w 0 1 = true ∧
    badSeqWord w 0 = false ∧ (((s.die d).seq c).threads.map Prod.fst).Pairwise (· < ·) ∧
    (∀ p ∈ ((s.die d).seq c).threads, p.1 ≠ t → p.2.started = false) ∧ ((s.die d).seq c).menu = some id ∧ s.menu id = some m) := by and_intros <;> decide +kernel

theorem wit_course_rows_complete :
  (let d : Nat := 0; let c : Nat := 0; let m : Menu := { pkg := mpk [], state := .running, n := 2 }; let k : Nat := 0;
    let s : State := { dies := [(0, { standsFor := 0, seqs := [(0, { menu := some 0 })] })], menus := [{ pkg := mpk [], state := .running, n := 2 }] };
    s.menuAt d c = some m ∧ (s.die d).standsFor ≠ 0x3F ∧
    k = (if ((s.die d).seq c).running then ((s.die d).seq c).off + 1 else ((s.die d).seq c).off) ∧ m.active = true ∧
    ((s.die d).seq c).stopped = false ∧ ((s.die d).seq c).next = none ∧ k < m.offsets ∧ m.idleAt (s.die d).standsFor c k = false) ∧
  (let d : Nat := 0; let c : Nat := 0; let m : Menu := { pkg := mpk [], state := .running, n := 2 };
    let f : Fetched := { words := [wd 0 1 0 []] };
    let s : State := { dies := [(0, { standsFor := 0, seqs := [(0, { menu := some 0, next := some f })] })], menus := [{ pkg := mpk [], state := .running, n := 2 }] };
    s.menuAt d c = some m ∧ (s.die d).standsFor ≠ 0x3F ∧ m.state = .running ∧ ((s.die d).seq c).running = false ∧
    ((s.die d).seq c).stopped = false ∧ ((s.die d).seq c).off < m.offsets ∧
    ((s.die d).seq c).off ≤ turnsSince ((s.die d).seq c).start s.turn ∧ s.awaitsTest m d c = false ∧ s.panel.kats.find d = none ∧
    m.idleAt (s.die d).standsFor c ((s.die d).seq c).off = false ∧ ((s.die d).seq c).next = some f ∧ f.off = ((s.die d).seq c).off ∧
    f.failed = none) ∧
  (let d : Nat := 0; let c : Nat := 0; let m : Menu := { pkg := mpk [(0x100, 2, 0x7FFF)], state := .running, n := 2 };
    let s : State := { dies := [(0, { standsFor := 0, seqs := [(0, { menu := some 0 })] })], menus := [m] }; s.menuAt d c = some m ∧
    (s.die d).standsFor ≠ 0x3F ∧ m.state = .running ∧ ((s.die d).seq c).running = false ∧ ((s.die d).seq c).stopped = false ∧
    ((s.die d).seq c).off < m.offsets ∧ ((s.die d).seq c).off ≤ turnsSince ((s.die d).seq c).start s.turn ∧ s.awaitsTest m d c = false ∧
    s.panel.kats.find d = none ∧ m.idleAt (s.die d).standsFor c ((s.die d).seq c).off = true) ∧
  (let d : Nat := 0; let c : Nat := 0; let m : Menu := { pkg := mpk [], state := .running, n := 2 };
    let s : State := { dies := [(0, { standsFor := 0, seqs := [(0, { menu := some 0, running := true })] })], menus := [{ pkg := mpk [], state := .running, n := 2 }], turn := 1024 };
    s.menuAt d c = some m ∧ (s.die d).standsFor ≠ 0x3F ∧ m.active = true ∧ ((s.die d).seq c).running = true ∧
    ((s.die d).seq c).off + m.watchdog ≤ turnsSince ((s.die d).seq c).start s.turn) ∧
  (let d : Nat := 0; let c : Nat := 0; let m : Menu := { pkg := mpk [(0x100, 2, 0x8000), (0x102, 2, 0x8000)], state := .running, n := 2 };
    let s : State := { dies := [(0, { standsFor := 0, seqs := [(0, { menu := some 0, off := 1 }), (1, { menu := some 0, off := 1 })] })], menus := [m] };
    s.menuAt d c = some m ∧ (s.die d).standsFor ≠ 0x3F ∧ c = 0 ∧ m.state = .running ∧ ((s.die d).seq 0).off = ((s.die d).seq 1).off ∧
    ((s.die d).seq 0).running = false ∧ ((s.die d).seq 1).running = false ∧ s.awaitsTest m d 0 = true ∧ s.panel.kats.find d = none ∧
    (∀ a, a < 4 → ((s.die d).arr a).idle = true) ∧ (∀ v, v < 2 → ((s.die d).vec v).queue = [] ∧ ((s.die d).vec v).running = none) ∧
    (∀ ch, ch < 4 → ((s.die d).chan ch).cq = [] ∧ ((s.die d).chan ch).dq = [] ∧ ((s.die d).chan ch).active = [])) ∧
  (let id : Nat := 0; let e : CourseErr := { code := 0x104 }; let m : Menu := { pkg := mpk [], state := .running, n := 2, err := some e };
    let s : State := { menus := [m] }; s.menu id = some m ∧ m.err = some e ∧ m.active = true ∧ e.code ≠ 0 ∧ s.panel.hears = false) ∧
  (let id : Nat := 0; let e : CourseErr := { code := 0x104 }; let m : Menu := { pkg := mpk [], state := .running, n := 2, err := some e };
    let s : State := { menus := [m], panel := srv }; s.menu id = some m ∧ m.err = some e ∧ m.active = true ∧ e.code ≠ 0 ∧
    s.panel.hears = true) := by and_intros <;> decide +kernel

theorem wit_tile_and_mode_words_complete :
  (let d : Nat := 0; let c : Nat := 0; let t : Nat := 0; let w : W64 := wd 1 1 1 [(31, 41), (0x17FFFF, 20), (1, 0)]; let s : State := one w;
    wTicket w = 0 ∧ (c = 1 → dieWide ((s.die d).gang 1).mode = false) ∧ s.issues d c t w 1 1 = true ∧
    bodyOk w (maskOf 45 20 ||| maskOf 15 0) = true ∧ wField w 40 20 ≤ 0x17FFFF ∧ wField w 15 0 ≠ 0) ∧
  (let d : Nat := 0; let c : Nat := 0; let t : Nat := 0; let w : W64 := wd 1 2 1 [(1, 41), (2047, 30), (0, 19), (11, 15)];
    let s : State := one w; wTicket w = 0 ∧ (c = 1 → dieWide ((s.die d).gang 1).mode = false) ∧ s.issues d c t w 1 2 = true ∧
    bodyOk w (maskOf 45 15) = true ∧ wField w 18 15 < 0xC) ∧
  (let d : Nat := 0; let c : Nat := 0; let t : Nat := 0; let w : W64 := wd 1 3 1 [(1, 41), (0x17FFFF, 20), (255, 12)];
    let s : State := one w; wTicket w = 0 ∧ (c = 1 → dieWide ((s.die d).gang 1).mode = false) ∧ s.issues d c t w 1 3 = true ∧
    bodyOk w (maskOf 45 12) = true ∧ wField w 40 20 ≤ 0x17FFFF ∧ wField w 19 12 ≠ 0) ∧
  (let d : Nat := 0; let c : Nat := 0; let t : Nat := 0; let w : W64 := wd 1 4 1 [(1, 41), (0xFFFFFFFF, 0)]; let s : State := one w;
    wTicket w = 0 ∧ (c = 1 → dieWide ((s.die d).gang 1).mode = false) ∧ s.issues d c t w 1 4 = true ∧
    bodyOk w (maskOf 45 41 ||| maskOf 31 0) = true) ∧
  (let d : Nat := 0; let c : Nat := 0; let t : Nat := 0; let w : W64 := wd 1 5 1 [(1, 41), (0xFFFFF, 20), (1, 0)]; let s : State := one w;
    wTicket w = 0 ∧ (c = 1 → dieWide ((s.die d).gang 1).mode = false) ∧ s.issues d c t w 1 5 = true ∧
    bodyOk w (maskOf 45 41 ||| maskOf 39 0) = true) ∧
  (let d : Nat := 0; let c : Nat := 1; let g : Nat := 1; let o : Origin := { core := 1, tag := 2 };
    let s : State := oneDie { gangs := [(1, { pending := some (g, { core := 1, tag := 2 }) })] }; c < 2 ∧
    ((s.die d).gang c).pending = some (g, o) ∧ (s.die d).modeDue c = true ∧ dieWide ((s.die d).gang c).mode = false ∧ dieWide g = false) ∧
  (let d : Nat := 0; let c : Nat := 1; let g : Nat := 5; let o : Origin := { core := 1 }; let g2 := 5; let o2 := { core := 0 };
    let s : State := oneDie { gangs := [(0, { pending := some (5, { core := 0 }) }), (1, { pending := some (5, { core := 1 }) })] }; c < 2 ∧
    ((s.die d).gang c).pending = some (g, o) ∧ ((s.die d).gang (1 - c)).pending = some (g2, o2) ∧ (s.die d).modeDue c = true ∧
    (dieWide ((s.die d).gang c).mode = true ∨ dieWide g = true)) := by and_intros <;> decide +kernel

theorem wit_tile_and_mode_words_complete_1 :
  (let d : Nat := 0; let c : Nat := 0; let t : Nat := 0; let w : W64 := wd 1 8 1 [(3, 43)]; let s : State := one w;
    s.issues d c t w 1 8 = true ∧ bodyOk w (maskOf 45 43) = true ∧ wTicket w = 0 ∧ wField w 45 43 < 6 ∧
    (s.skilletOn d c = true → wField w 45 43 = 0) ∧
    (dieWide (wField w 45 43) = true → ∀ h : Nat, ((s.die d).gang (1 - c)).mode = h ∨ (s.die d).pendingMode (1 - c) = some h → dieWide h = true → wField w 45 43 = h)) := by
  intro d c t w s
  have h1 : ((s.die d).gang (1 - c)).mode = 0 := by decide +kernel
  have h2 : (s.die d).pendingMode (1 - c) = none := by decide +kernel
  refine ⟨?_, ?_, ?_, ?_, ?_, fun _ h hh hd => ?_⟩
  iterate 5 decide +kernel
  rcases hh with hh | hh
  · rw [h1] at hh; subst hh; exact absurd hd (by decide)
  · rw [h2] at hh; cases hh

theorem wit_array_words_enter_queues :
  (let d : Nat := 0; let c : Nat := 0; let t : Nat := 0; let w : W64 := wd 1 0x10 1 []; let s : State := one w (tileTwo);
    s.skilletOn d c = false ∧ s.issues d c t w 1 0x10 = true ∧ lowestCode (s.loadWBroken d c w) = none) ∧
  (let d : Nat := 0; let c : Nat := 0; let t : Nat := 0; let w : W64 := wd 1 0x11 1 []; let s : State := one w; s.skilletOn d c = false ∧
    s.issues d c t w 1 0x11 = true ∧ lowestCode (s.flipBroken d c w) = none) ∧
  (let d : Nat := 0; let c : Nat := 0; let t : Nat := 0; let w : W64 := wd 1 0x18 1 [(1, 34)]; let s : State := one w (tileTwo);
    s.skilletOn d c = false ∧ s.issues d c t w 1 0x18 = true ∧ lowestCode (s.matmulBroken d c w) = none) ∧
  (let d : Nat := 0; let c : Nat := 0; let t : Nat := 0; let w : W64 := wd 1 0x10 1 []; let a := 0; let s : State := skone w;
    s.skilletOn d c = true ∧ s.issues d c t w 1 0x10 = true ∧ lowestCode (s.loadWBroken d c w) = none ∧
    ((s.die d).gang c).bindTo (wField w 45 44 % 2) = some a) ∧
  (let d : Nat := 0; let c : Nat := 0; let t : Nat := 0; let w : W64 := wd 1 0x11 1 []; let a := 0;
    let s : State := skone w { streamF := { array := some 0, loads := 1 } }; s.skilletOn d c = true ∧
    (((s.die d).gang c).stream (wField w 45 44 % 2)).array = some a ∧ s.issues d c t w 1 0x11 = true ∧
    lowestCode (s.flipBroken d c w) = none) ∧
  (let d : Nat := 0; let c : Nat := 0; let t : Nat := 0; let w : W64 := wd 1 0x18 1 [(1, 34)]; let a := 0;
    let s : State := skone w { streamF := { array := some 0, loads := 1, flipped := true } }; s.skilletOn d c = true ∧
    (((s.die d).gang c).stream (wField w 45 44 % 2)).array = some a ∧ s.issues d c t w 1 0x18 = true ∧
    lowestCode (s.matmulBroken d c w) = none) := by and_intros <;> decide +kernel

theorem wit_array_events_complete :
  (let d : Nat := 0; let a : Nat := 1; let t : Tile := tileX; let tr : Bool := false;
    let k : ArrCmd := { lead := 1, arrays := [1], op := .loadW t tr, target := true };
    let s : State := oneDie { arrs := [(1, { wq := [k] })] }; ((s.die d).arr a).wq.head? = some k ∧ k.op = .loadW t tr ∧ k.lead = a ∧
    k.arrays.Nodup ∧ (s.die d).headsWeights k = true ∧ (s.die d).shadowFree k = true ∧
    (k.heavy = false ∨ (s.die d).leave.granted (2 + 2 * a) k.key = true)) ∧
  (let d : Nat := 0; let a : Nat := 1; let t : Tile := tileX; let tr : Bool := false;
    let k : ArrCmd := { lead := 1, arrays := [1], op := .loadW t tr, target := true };
    let s : State := oneDie { arrs := [(1, { loading := some k })] }; ((s.die d).arr a).loading = some k ∧ k.op = .loadW t tr ∧ k.lead = a ∧
    k.arrays.Nodup ∧ (∀ b ∈ k.arrays, ((s.die d).arr b).loading.map ArrCmd.target = some (! ((s.die d).arr b).gen))) ∧
  (let d : Nat := 0; let a : Nat := 1; let n : Nat := 1; let k : ArrCmd := { op := .flip n };
    let s : State := oneDie { arrs := [(1, { sq := [k], loadsDone := 1 })] }; ((s.die d).arr a).sq.head? = some k ∧ k.op = .flip n ∧
    n ≤ ((s.die d).arr a).loadsDone) ∧
  (let d : Nat := 0; let a : Nat := 1;
    let k : ArrCmd := { lead := 1, arrays := [1], op := .matmul tileX tileY {} false false false false false false false };
    let s : State := oneDie { arrs := [(1, { sq := [k] })] }; ((s.die d).arr a).sq.head? = some k ∧ k.op.isMatmul = true ∧ k.lead = a ∧
    k.arrays.Nodup ∧ (s.die d).headsStreams k = true ∧ (s.skilletOn d k.org.core = false ∨ (s.die d).skilletHazard k = false) ∧
    (s.die d).teeReady k = true ∧ (k.heavy = false ∨ (s.die d).leave.granted (1 + 2 * a) k.key = true)) ∧
  (let d : Nat := 0; let a : Nat := 1; let rest : List Flight := []; let xt : Tile := tileX; let y : Tile := tileY; let sd : Tile := {};
    let tr : Bool := false; let seed : Bool := false; let acc : Bool := false; let tee : Bool := false; let dig : Bool := false;
    let sr : Bool := false; let sat : Bool := false;
    let f : Flight := { cmd := { lead := 1, arrays := [1], op := .matmul xt y sd tr seed acc tee dig sr sat }, regs := [{ fmt := 8, rows := List.replicate 4 (List.replicate 4 (0x38, 127)) }] };
    let s : State := oneDie { arrs := [(1, { flights := f :: rest })] }; ((s.die d).arr a).flights = f :: rest ∧
    f.cmd.op = .matmul xt y sd tr seed acc tee dig sr sat ∧ (s.die d).teeDone f.cmd = true ∧ y.rows = (if tr then xt.cols else xt.rows) ∧
    y.inPantry = true ∧ (y.fmt = 11 → acc = true) ∧ (isMX y.fmt = true → y.cols % 32 = 0)) := by and_intros <;> decide +kernel

theorem wit_vector_words_enter_queue :
  (let d : Nat := 0; let c : Nat := 0; let t : Nat := 0; let w : W64 := wd 2 0x14 1 [(1, 26)]; let i : Instr := .relu d c t w;
    let op : Nat := 0x14; let s : State := one w (fun x => { x with tiles := [(0, tileX), (1, { tileX with base := 1024 })] });
    (i, op) ∈ ([(.add d c t w, 0x08), (.mul d c t w, 0x09), (.fma d c t w, 0x0A), (.axpby d c t w, 0x0B), (.max d c t w, 0x0C), (.convert d c t w, 0x10), (.relu d c t w, 0x14), (.gelu d c t w, 0x15), (.silu d c t w, 0x16), (.swiglu d c t w, 0x17), (.reluBwd d c t w, 0x1C), (.geluBwd d c t w, 0x1D), (.siluBwd d c t w, 0x1E), (.swigluBwd d c t w, 0x1F), (.rowSum d c t w, 0x20), (.rowMax d c t w, 0x21), (.rowSumsq d c t w, 0x22), (.colSumAcc d c t w, 0x23), (.rowArgmax d c t w, 0x24), (.colDotAcc d c t w, 0x25), (.layernorm d c t w, 0x28), (.rmsnorm d c t w, 0x29), (.layernormBwd d c t w, 0x2A), (.rmsnormBwd d c t w, 0x2B), (.softmax d c t w, 0x2C), (.softmaxBwd d c t w, 0x2D), (.normXhat d c t w, 0x2E), (.sgdMom d c t w, 0x30), (.adamw d c t w, 0x31), (.lion d c t w, 0x32), (.ortho d c t w, 0x34), (.digestFeed d c t w, 0x38)] : List (Instr × Nat)) ∧
    s.issues d c t w 2 op = true ∧ lowestCode (s.vecBroken d c w op) = none) := by decide +kernel

theorem wit_vector_events_complete :
  (let d : Nat := 0; let c : Nat := 1; let k : VecCmd := { op := 0x14, a := tileX, y := { tileX with base := 1024 } };
    let ofWhisk : Bool := false; let s : State := oneDie { vecs := [(1, { queue := [k] })] }; ((s.die d).vec c).running = none ∧
    ((s.die d).vec c).nextCmd = some (k, ofWhisk) ∧ (k.heavy = false ∨ (s.die d).leave.granted (9 + c) k.key = true) ∧
    (ofWhisk = true → s.panel.kats.find d = none)) ∧
  (let d : Nat := 0; let c : Nat := 1; let b := 5; let k : VecCmd := { op := 0x32, a := tileX, b := tileX, y := tileX, bucket := some b };
    let s : State := oneDie { vecs := [(1, { running := some k })] }; ((s.die d).vec c).running = some k ∧ k.bucket = some b) ∧
  (let d : Nat := 0; let c : Nat := 0; let t : Nat := 0; let w : W64 := wd 2 1 1 [(63, 40), (0xFFFFFFFF, 0)]; let s : State := one w;
    s.issues d c t w 2 1 = true ∧ bodyOk w (maskOf 45 40 ||| maskOf 31 0) = true ∧ wTicket w = 0) := by and_intros <;> decide +kernel

theorem wit_vector_events_complete_1 :
  (let d : Nat := 0; let c : Nat := 1; let k : VecCmd := { op := 0x14, a := tileX, y := { tileX with base := 1024 } };
    let s : State := oneDie { vecs := [(1, { running := some k })] }; let out := k.compute (s.die d).mem.cells;
    ((s.die d).vec c).running = some k ∧ k.bucket = none ∧ k.compute (s.die d).mem.cells = out) := ⟨by decide +kernel, by decide +kernel, rfl⟩

theorem wit_runs_reach_the_ladle :
  (let d : Nat := 0; let c : Nat := 0; let t : Nat := 0; let w : W64 := wd 3 1 1 [(1, 44), (4096, 12), (0, 12)];
    let s : State := one w (fun x => { x with ladle := { descCount := 4097 } }); s.issues d c t w 3 1 = true ∧
    bodyOk w (maskOf 45 8) = true ∧ wField w 43 24 + (wField w 23 12 + 1) ≤ (s.die d).ladle.descCount) ∧
  (let d : Nat := 0; let ch : Nat := 1; let r : LdlRun := { first := 0, count := 1 };
    let s : State := oneDie { ladle := { descCount := 1, chans := [(1, { cq := [r] })] } }; ch < 4 ∧ ((s.die d).chan ch).toFetch = some r ∧
    ((s.die d).queue ch).cells < 32 ∧ ((s.die d).pool.admission ch 1 (r.key, r.first + r.fetched) s.fresh.1).2 = .admitted) := by and_intros <;> decide +kernel

theorem wit_descriptors_run :
  (let d : Nat := 0; let ch : Nat := 1; let k : Nat := 1; let i : Instr := .fill d ch; let f : LdlFetched := { run := 5, index := 0 };
    let run : LdlRun := { key := 5, first := 0, count := 1, fetched := 1 };
    let b : Desc := (patch (List.replicate 64 0) [(0, leBytes 8 0x1122334455667788), (8, leBytes 8 0x4000000008), (0x10, leBytes 4 1), (0x14, leBytes 4 8)]);
    let s : State := oneDie { ladle := { descCount := 1, chans := [(1, { cq := [run], head := some { entry := f, desc := b } })] }, mem := { cells := [(0x4000000040, 7)] } };
    (i, k) ∈ [(Instr.copy d ch, 0), (Instr.fill d ch, 1), (Instr.gather d ch, 2)] ∧ (s.die d).headDesc ch = some (f, run, b) ∧
    f.failCode = 0 ∧ b.kind = k ∧ lowestCode ((s.die d).descRules b run.v) = none ∧ (b.order = true → ((s.die d).chan ch).active = []) ∧
    (∀ a ∈ ((s.die d).chan ch).active, a.walked = true ∧ a.key ≠ descKey f.run f.index) ∧
    ((s.die d).descHeavy b run.v = false ∨ (s.die d).leave.granted (11 + ch) (descKey f.run f.index) = true)) ∧
  (let d : Nat := 0; let ch : Nat := 1; let a : LdlActive := { run := 5, walked := true }; let rest : List LdlActive := [];
    let r : LdlRun := { key := 5, count := 1, org := { tag := 3 } };
    let s : State := oneDie { ladle := { chans := [(1, { cq := [r], active := a :: rest })] } }; ((s.die d).chan ch).active = a :: rest ∧
    a.walked = true ∧ a.kilnWrites = 0 ∧ a.requests = 0 ∧ ((s.die d).chan ch).cq.find? (fun q => q.key = a.run) = some r) := by and_intros <;> decide +kernel

theorem wit_pantry_rows_land :
  (let d : Nat := 0; let ch : Nat := 1; let dst : Nat := 0x4000000008; let f : LdlFetched := { run := 5, index := 0 };
    let run : LdlRun := { key := 5, first := 0, count := 1, fetched := 1 };
    let b : Desc := (patch (List.replicate 64 0) [(0, leBytes 8 0x1122334455667788), (8, leBytes 8 0x4000000008), (0x10, leBytes 4 1), (0x14, leBytes 4 8)]);
    let s : State := oneDie { ladle := { descCount := 1, chans := [(1, { cq := [run], head := some { entry := f, desc := b } })] }, mem := { cells := [(0x4000000040, 7)] } };
    (s.die d).headDesc ch = some (f, run, b) ∧ f.failCode = 0 ∧ lowestCode ((s.die d).descRules b run.v) = none ∧
    ((s.die d).chan ch).active = [] ∧ b.len1m1 = 0 ∧ b.len2m1 = 0 ∧ b.len3m1 = 0 ∧ 0 < b.len0 ∧
    ((s.die d).sideOf b run.v false).isGlobal = false ∧ ((s.die d).sideOf b run.v false).start = (dst : Int) ∧
    spanPlace dst b.len0 = some .pantry ∧ b.kind = 1) ∧
  (let d : Nat := 0; let ch : Nat := 1; let src : Nat := 0x4000000040; let dst : Nat := 0x4000000008;
    let f : LdlFetched := { run := 5, index := 0 }; let run : LdlRun := { key := 5, first := 0, count := 1, fetched := 1 };
    let b : Desc := (patch (List.replicate 64 0) [(0, leBytes 8 0x4000000040), (8, leBytes 8 0x4000000008), (0x10, leBytes 4 0), (0x14, leBytes 4 8)]);
    let s : State := oneDie { ladle := { descCount := 1, chans := [(1, { cq := [run], head := some { entry := f, desc := b } })] }, mem := { cells := [(0x4000000040, 7)] } };
    (s.die d).headDesc ch = some (f, run, b) ∧ f.failCode = 0 ∧ lowestCode ((s.die d).descRules b run.v) = none ∧
    ((s.die d).chan ch).active = [] ∧ b.len1m1 = 0 ∧ b.len2m1 = 0 ∧ b.len3m1 = 0 ∧ 0 < b.len0 ∧
    ((s.die d).sideOf b run.v false).isGlobal = false ∧ ((s.die d).sideOf b run.v false).start = (dst : Int) ∧
    spanPlace dst b.len0 = some .pantry ∧ b.kind = 0 ∧ ((s.die d).sideOf b run.v true).isGlobal = false ∧
    ((s.die d).sideOf b run.v true).start = (src : Int) ∧ spanPlace src b.len0 = some .pantry ∧ src % 4096 + b.len0 ≤ 4096) := by and_intros <;> decide +kernel

theorem wit_memory_keeps_its_blocks :
  (let m : Mem := [(5, 1), (9, 2)]; m.wf = true) ∧
  (let d : Nat := 0; let larder : Bool := false; let q : KilnReq := { owner := .sieve, block := 0, pieces := [(8, [1, 2])] };
    let rest : List KilnReq := []; let r : Region := { base := 0, blocksM1 := 0, valid := true };
    let s : State := oneDie { mem := { hbmKiln := [q], regions := [(0, r)] } }; (s.die d).mem.kiln larder = q :: rest ∧
    (s.die d).mem.regionOf q.block 4096 = some r ∧ r.gather = false) ∧
  (let d : Nat := 0; let c : Nat := 1; let addr : Nat := 0; let r : Region := { base := 0, blocksM1 := 0, valid := true };
    let s : State := oneDie { mem := { regions := [(0, r)] } }; (s.die d).mem.regionOf addr 4096 = some r ∧ addr % 4096 = 0 ∧
    placeOf addr ≠ .pantry ∧ r.gather = false ∧ (s.die d).mem.failCount (.sequencer c) addr < 3) ∧
  (let d : Nat := 0; let addr : Nat := 0x2000000020;
    let r : Region := { base := 0x2000000, blocksM1 := 0, valid := true, gather := true, crcBase := 0x2000001 };
    let s : State := oneDie { mem := { regions := [(0, r)] } }; (s.die d).mem.regionOf addr 32 = some r ∧ addr % 32 = 0 ∧
    placeOf addr ≠ .pantry ∧ r.gather = true ∧ (s.die d).mem.failCount .fabric addr < 3) ∧
  (let d : Nat := 0; let addr := 0x4000000000; let s : State := oneDie {}; placeOf addr = .pantry ∧ (s.die d).mem.panSingle = [] ∧
    (s.die d).mem.panBad = []) ∧
  (let d : Nat := 0; let addr := 0x4005FFFFFF; let s : State := oneDie {}; placeOf addr = .pantry ∧ (s.die d).mem.panSingle = [] ∧
    (s.die d).mem.panBad = []) ∧
  (let d : Nat := 0; let addr := 0x4000000000; let s : State := oneDie {}; placeOf addr = .pantry ∧ (s.die d).mem.panSingle = [] ∧
    (s.die d).mem.panBad = []) := by and_intros <;> decide +kernel

theorem wit_queue_rows_complete :
  (let d : Nat := 0; let q : Nat := 64;
    let s : State := oneDie { pool := { queues := [(64, { idleTo := 5, items := [{ data := [1] }] })] } }; d < 52 ∧
    ((s.die d).queue q).idleTo ≠ 0 ∧ ((s.die d).queue q).items ≠ [] ∧ ((s.die d).queue q).fired = false) ∧
  (let q : Nat := 1023; (q < 36 ∨ (64 ≤ q ∧ q < 1024))) ∧
  (let q : Nat := 36; 36 ≤ q ∧ q < 64) := by and_intros <;> decide +kernel

theorem wit_queue_rows_complete_1 :
  (let d : Nat := 0; let q : Nat := 64; let i : QItem := { cells := [4, 5], data := [1, 2] }; let rest : List QItem := [];
    let s : State := oneDie { pool := { queues := [(64, { consumer := 0, written := i :: rest })] } }; 4 ≤ q ∧
    ((s.die d).queue q).written = i :: rest ∧ (∀ c t pan n own word, (((s.die d).seq c).thread t).wait ≠ .take q pan n own word)) := ⟨by decide, by decide +kernel, fun _ _ _ _ _ _ h => nomatch h⟩

theorem wit_admission_keeps_pool_1 :
  ((({} : Pool).admission 0 1 (0, 0) 0).2 = .admitted ∧ ({} : Pool).Ok) := ⟨by decide +kernel, by unfold Pool.Ok; decide +kernel⟩

theorem wit_pair_transitions :
  (let d : Nat := 0; let p : Nat := 0;
    let s : State := { dies := [(0, { power := { good := 0x3FFFFFFF }, pairs := [(0, { state := .run, kept := [{}] })] })], live := [(0, {})], panel := { ports := [(0, {})] } };
    s.darkens d p = true ∧ (s.pair d p).state ≠ .dark) ∧
  (let d : Nat := 0; let p : Nat := 0; let s : State := lit {}; s.darkens d p = false ∧ (s.pair d p).state = .dark) ∧
  (let d : Nat := 0; let p : Nat := 0; let s : State := lit { state := .safe }; s.darkens d p = false ∧ (s.pair d p).state = .safe ∧
    (s.pair d p).emission = .none) ∧
  (let d : Nat := 0; let p : Nat := 0; let s : State := lit { state := .safe, emission := .call }; (s.pair d p).emission = .call) ∧
  (let d : Nat := 0; let p : Nat := 0; let s : State := lit { state := .safe }; s.darkens d p = false ∧ (s.pair d p).state = .safe) ∧
  (let d : Nat := 0; let p : Nat := 0; let full : Bool := true;
    let s : State := lit { state := .safe, emission := .answer, answered := true }; s.darkens d p = false ∧ (s.pair d p).state = .safe ∧
    (if full then (s.pair d p).answered = true else (s.pair d p).emission ≠ .none)) ∧
  (let d : Nat := 0; let p : Nat := 0; let tx : Nat := 0xFFFF; let rx : Nat := 1;
    let s : State := lit { state := .light, asked := some 0xFFFF, trained := some 1, rxWant := some 3 }; s.darkens d p = false ∧
    (s.pair d p).state = .light ∧ tx < 65536 ∧ rx < 65536 ∧ tx ≠ 0 ∧ rx ≠ 0 ∧ tx &&& (s.port (portOf d p)).retired = 0 ∧
    (s.pair d p).asked = some tx ∧ (s.pair d p).trained = some rx ∧ rx &&& (s.pair d p).rxWant.getD 0 = rx) ∧
  (let d : Nat := 0; let p : Nat := 0; let s : State := lit { state := .light, trainFails := 2 }; s.darkens d p = false ∧
    (s.pair d p).state = .light) ∧
  (let d : Nat := 0; let p : Nat := 0; let s : State := lit { state := .run, light := true, kept := [{}] }; s.darkens d p = false ∧
    ((s.pair d p).state = .light ∨ (s.pair d p).lit = true)) ∧
  (let d : Nat := 0; let p : Nat := 0; let s : State := lit { state := .run, light := true, kept := [{}], replays := 8 };
    s.darkens d p = false ∧ (s.pair d p).state = .run ∧ 8 ≤ (s.pair d p).replays) := by and_intros <;> decide +kernel

theorem wit_quiet_windows_and_lanes :
  (let d : Nat := 0; let p : Nat := 0; let s : State := lit { state := .run, windows := [(0, 1, true)] }; s.darkens d p = false ∧
    (s.pair d p).state = .run ∧ (s.pair d p).quiet s.turn = true) ∧
  (let d : Nat := 0; let p : Nat := 0;
    let s : State := { lit { state := .paused, windows := [(5, 5, false)], txSet := [(3, 4)] } with turn := 10 }; s.darkens d p = false ∧
    (s.pair d p).state = .paused ∧ (s.pair d p).quiet s.turn = false ∧ (s.pair d p).unlocked = false) ∧
  (let d : Nat := 0; let p : Nat := 0;
    let s : State := { lit { state := .paused, windows := [(5, 5, true)], unlocked := true } with turn := 10 }; s.darkens d p = false ∧
    (s.pair d p).state = .paused ∧ (s.pair d p).quiet s.turn = false ∧ (s.pair d p).unlocked = true) ∧
  (let d : Nat := 0; let p : Nat := 0; let s : State := lit { state := .paused, kept := [{}], unlocked := true }; s.darkens d p = false ∧
    (s.pair d p).lit = true) ∧
  (let d : Nat := 0; let p : Nat := 0; let s : State := lit { state := .run, rxSet := [(7, 0), (3, 9)] }; s.darkens d p = false ∧
    (s.pair d p).state = .run) ∧
  (let d : Nat := 0; let p : Nat := 0; let lane : Nat := 14; let m : Nat := 0x3FFF;
    let s : State := lit { state := .run, rxLanes := 0xFFFF, rxWant := some 0x7FFF }; s.darkens d p = false ∧ (s.pair d p).lit = true ∧
    (s.pair d p).rxLanes.testBit lane = true ∧
    m = setBit ((s.pair d p).rxWant.getD (lastMap (s.pair d p).rxSet (s.pair d p).rxLanes)) lane false ∧ m ≠ 0) := by and_intros <;> decide +kernel

theorem wit_flit_send_numbers_and_keeps :
  (let d : Nat := 0; let p : Nat := 0; let s : State := lit { state := .paused };
    (s.pair d p).state = .light ∨ (s.pair d p).state = .paused ∧ (s.port (portOf d p)).gap = false) ∧
  (let d : Nat := 0; let p : Nat := 0; let s : State := lit { state := .run }; (s.pair d p).state = .run ∧
    (1024 ≤ (s.pair d p).sinceIdle ∨ ((s.pair d p).resend = none ∧ 8192 ≤ (s.pair d p).kept.length) ∨ ((s.pair d p).resend = none ∧
    ((s.die d).eligible d p = [] ∨ s.carries d = false ∨ (s.port (portOf d p)).faces = false) ∧ (s.pair d p).oweShared = 0 ∧
    (s.pair d p).owe.any (fun e => e.2 ≠ 0) = false))) ∧
  (let d : Nat := 0; let p : Nat := 0; let i : Nat := 0; let f : KeptFlit := { seq := 4 };
    let s : State := lit { state := .run, resend := some i, kept := [f] }; (s.pair d p).state = .run ∧ (s.pair d p).sinceIdle < 1024 ∧
    (s.pair d p).resend = some i ∧ (s.pair d p).kept[i]? = some f) ∧
  (let d : Nat := 0; let p : Nat := 0; let c : Nat := 0; let left : Nat := 1; let i : Nat := 0;
    let h : Held := { route := some { exit := 0, site := 0 } };
    let s : State := lit { state := .run } (fun x => { x with standsFor := 0, fab := { held := [h] } }); s.carries d = true ∧
    (s.port (portOf d p)).faces = true ∧ (s.pair d p).state = .run ∧ (s.pair d p).sinceIdle < 1024 ∧ (s.pair d p).resend = none ∧
    (s.pair d p).kept.length < 8192 ∧
    arbClass (s.die d).fab.weight (fun c => ((s.die d).eligible d p).any (fun h => h.2.pkt.cls = c)) 5 ((s.die d).fab.arb.getD p (0, (s.die d).fab.weight 0)).1 ((s.die d).fab.arb.getD p (0, (s.die d).fab.weight 0)).2 = some (c, left) ∧
    pickWithin (fun h => h.outV % 8) ((s.die d).fab.exitRr.getD (100 + 4 * p + c) 0) (((s.die d).eligible d p).filter (fun h => h.2.pkt.cls = c)) = some (i, h) ∧
    (tooOld s.turn h.pkt = false ∨ h.from_ = .inject)) ∧
  (let d : Nat := 0; let p : Nat := 0; let c : Nat := 0; let left : Nat := 1; let i : Nat := 0;
    let h : Held := { pkt := { trans := [5] }, port := 1, from_ := .pair 1 0 true, route := some { exit := 0, site := 0 } };
    let s : State := { lit { state := .run } (fun x => { x with standsFor := 0, fab := { held := [h] } }) with turn := 100 };
    s.carries d = true ∧ (s.port (portOf d p)).faces = true ∧ (s.pair d p).state = .run ∧ (s.pair d p).sinceIdle < 1024 ∧
    (s.pair d p).resend = none ∧ (s.pair d p).kept.length < 8192 ∧
    arbClass (s.die d).fab.weight (fun c => ((s.die d).eligible d p).any (fun h => h.2.pkt.cls = c)) 5 ((s.die d).fab.arb.getD p (0, (s.die d).fab.weight 0)).1 ((s.die d).fab.arb.getD p (0, (s.die d).fab.weight 0)).2 = some (c, left) ∧
    pickWithin (fun h => h.outV % 8) ((s.die d).fab.exitRr.getD (100 + 4 * p + c) 0) (((s.die d).eligible d p).filter (fun h => h.2.pkt.cls = c)) = some (i, h) ∧
    tooOld s.turn h.pkt = true ∧ h.from_ ≠ .inject) ∧
  (let d : Nat := 0; let p : Nat := 0; let s : State := lit { state := .run, oweShared := 70 }; (s.pair d p).state = .run ∧
    (s.pair d p).sinceIdle < 1024 ∧ (s.pair d p).resend = none ∧ (s.pair d p).kept.length < 8192 ∧ (s.die d).eligible d p = [] ∧
    (s.pair d p).oweShared ≠ 0) := by and_intros <;> decide +kernel

theorem wit_flit_send_numbers_and_keeps_1 :
  (∃ s : State, (s.pair 0 0).state = .run ∧ (s.pair 0 0).resend = none ∧ 8192 ≤ (s.pair 0 0).kept.length) := ⟨_, kept_full (List.replicate 8192 {}) (Nat.le_of_eq List.length_replicate.symm)⟩

theorem wit_link_delivers_once :
  (let d : Nat := 0; let p : Nat := 0; let uncorrectable : Nat := 0;
    let flit : Bytes := List.replicate 252 0 ++ leBytes 4 (flitCrc 0 (List.replicate 252 0)); let s : State := lit { state := .run };
    (s.pair d p).lit = true ∧ flit.length = 256 ∧ (s.pair d p).discarding = false ∧ (s.pair d p).skip = 0 ∧ (s.pair d p).expected < 65536 ∧
    uncorrectable = 0 ∧ leAt flit 252 4 = flitCrc (s.pair d p).expected (flit.take 252) ∧ (LinkWord.decode (leAt flit 0 4)).isNull = false ∧
    (Packet.decode ((flit.take 252).drop 4)).odd = false ∧ s.carries d = false) ∧
  (let d : Nat := 0; let p : Nat := 0; let uncorrectable : Nat := 0;
    let flit : Bytes := List.replicate 252 0 ++ leBytes 4 (flitCrc 0 (List.replicate 252 0));
    let s : State := lit { state := .run } (fun x => { x with standsFor := 0 }); (s.pair d p).lit = true ∧ flit.length = 256 ∧
    (s.pair d p).discarding = false ∧ (s.pair d p).skip = 0 ∧ (s.pair d p).expected < 65536 ∧ uncorrectable = 0 ∧
    leAt flit 252 4 = flitCrc (s.pair d p).expected (flit.take 252) ∧ (LinkWord.decode (leAt flit 0 4)).isNull = false ∧
    (Packet.decode ((flit.take 252).drop 4)).odd = false ∧ s.carries d = true) ∧
  (let d : Nat := 0; let p : Nat := 0; let uncorrectable : Nat := 0; let flit : Bytes := List.replicate 256 0;
    let s : State := lit { state := .run }; (s.pair d p).lit = true ∧ flit.length = 256 ∧ (s.pair d p).discarding = false ∧
    (s.pair d p).skip = 0 ∧ (s.pair d p).expected < 65536 ∧
    (uncorrectable ≠ 0 ∨ leAt flit 252 4 ≠ flitCrc (s.pair d p).expected (flit.take 252))) ∧
  (let d : Nat := 0; let p : Nat := 0; let frame : Bytes := []; let s : State := lit { state := .run, discarding := true };
    (s.pair d p).lit = true ∧ IdleFrame.decode frame = none) ∧
  (let d : Nat := 0; let p : Nat := 0; let f : KeptFlit := { seq := 9 }; let rest : List KeptFlit := [];
    let s : State := lit { state := .run, kept := f :: rest }; (s.pair d p).state = .run ∧ (s.pair d p).kept = f :: rest) ∧
  (let d : Nat := 0; let p : Nat := 0; let s : State := lit { state := .run, discarding := true }; (s.pair d p).lit = true ∧
    (s.pair d p).discarding = true) := by and_intros <;> decide +kernel

theorem wit_link_delivers_once_1 :
  (let d : Nat := 0; let p : Nat := 0;
    let frame : Bytes := (fun (b : Bytes) => b ++ leBytes 4 (crc32 b)) (IdleFrame.encode { hasBeacon := true, replay := true, txNext := 65535 });
    let f : IdleFrame := (IdleFrame.decode frame).getD {}; let s : State := lit { state := .run, discarding := true };
    (s.pair d p).lit = true ∧ IdleFrame.decode frame = some f ∧ f.nak = false) := ⟨by decide +kernel, (idle_some _ (by decide +kernel) (by decide +kernel)).1, (idle_some _ (by decide +kernel) (by decide +kernel)).2.trans (by decide +kernel)⟩

theorem wit_link_delivers_once_2 :
  (let d : Nat := 0; let p : Nat := 0;
    let frame : Bytes := (fun (b : Bytes) => b ++ leBytes 4 (crc32 b)) (IdleFrame.encode { nak := true, nakSeq := 0 });
    let f : IdleFrame := (IdleFrame.decode frame).getD {}; let s : State := lit { state := .run }; (s.pair d p).state = .run ∧
    IdleFrame.decode frame = some f ∧ f.nak = true) := ⟨by decide +kernel, (idle_some _ (by decide +kernel) (by decide +kernel)).1, (idle_some _ (by decide +kernel) (by decide +kernel)).2.trans (by decide +kernel)⟩

theorem wit_laser_sources_complete :
  (let port : Nat := 0; let w : Switchover := { spare := 8, turn := 5 };
    let s : State := { panel := { ports := [(0, { switching := some w })], bays := [] }, turn := 4 }; (s.port port).switching = some w ∧
    w.stands = false ∧ w.forced = false ∧ turnCome w.turn (turnPlus s.turn 2) = true ∧
    ((pairsOf port).filter (fun q => (s.pair q.1 q.2).lit && (s.pair q.1 q.2).pauseMine)).all (fun q => (s.pair q.1 q.2).pauseAgreed) = true) ∧
  (let port : Nat := 0; let w : Switchover := { spare := 8, turn := 5 };
    let s : State := { dies := [(0, { pairs := [(0, { state := .run, pauseMine := true })] })], panel := { ports := [(0, { switching := some w })] }, turn := 4 };
    (s.port port).switching = some w ∧ w.stands = false ∧ w.forced = false ∧ turnCome w.turn (turnPlus s.turn 2) = true ∧
    ((pairsOf port).filter (fun q => (s.pair q.1 q.2).lit && (s.pair q.1 q.2).pauseMine)).all (fun q => (s.pair q.1 q.2).pauseAgreed) = false) ∧
  (let port : Nat := 0; let w : Switchover := { spare := 8, forced := true };
    let s : State := { panel := { ports := [(0, { switching := some w })], bays := [] }, turn := 4 }; (s.port port).switching = some w ∧
    (w.stands = true ∧ turnCome (turnPlus w.turn 1) s.turn = true) ∨ w.forced = true) ∧
  (let port : Nat := 0; let s : State := {}; (∀ q ∈ pairsOf port, (s.pair q.1 q.2).state = .dark)) ∧
  (let bay : Nat := 11; let s : State := {}; (s.bay bay).seated = false ∧ bay < 12) ∧
  (let bay : Nat := 7; let s : State := { panel := { ports := [], bays := [(7, { state := 1, typeOk := true, seated := true })] } };
    (s.bay bay).state = 1 ∧ (s.bay bay).typeOk = true ∧ bay < 8 ∧ (s.port bay).feed = none ∧ (s.port bay).switching = none) ∧
  (let bay : Nat := 9;
    let s : State := { panel := { ports := [(0, { feed := some 0 }), (1, { feed := some 1 }), (2, { feed := some 2 }), (3, { feed := some 3 }), (4, { feed := some 4 }), (5, { feed := some 5 }), (6, { feed := some 6 }), (7, { feed := some 7 })], bays := [(9, { state := 1, typeOk := true, seated := true })] } };
    (s.bay bay).state = 1 ∧ (s.bay bay).typeOk = true ∧ (bay = 8 ∨ bay = 9) ∧ (∀ n, n < 8 → (s.port n).feed ≠ none)) ∧
  (let bay : Nat := 9; let s : State := { panel := { ports := [], bays := [(9, { state := 2, seated := true })] } };
    s.baySwitching bay = false ∧ s.panel.laserOff = false ∧ (s.bay bay).state = 2) ∧
  (let s : State := { panel := { ports := [(8, { enabled := true, contact := true, feed := some 10 })], bays := [] } };
    (s.port 8).enabled = true ∧ (s.port 8).contact = true ∧ (s.port 8).feed ≠ none ∧ s.panel.laserOff = false) := by and_intros <;> decide +kernel

theorem wit_laser_sources_complete_1 :
  (let port : Nat := 0; let w : Switchover := { spare := 8, forced := true }; let o : Nat := 0;
    let s : State := { panel := { ports := [(0, { switching := some w, gap := true, feed := some o })], bays := [(8, { state := 2, seated := true })] } };
    (s.port port).switching = some w ∧ (s.port port).gap = true ∧ (s.port port).feed = some o ∧ o ≠ w.spare ∧ (s.bay w.spare).state = 2 ∧
    (∀ b, (s.bay b).pressed = false) ∧ (s.bay (if port = 8 then 10 else port)).state ≠ 2 ∧
    ((s.port port).feed = some (if port = 8 then 10 else port) → w.service = true ∨ w.keepOld = false)) := by
  intros
  refine ⟨?_, ?_, ?_, ?_, ?_, unpressed _ (by decide +kernel), ?_, ?_⟩ <;> decide +kernel

theorem wit_laser_sources_complete_2 :
  (let bay : Nat := 9; let s : State := { panel := { ports := [], bays := [(9, { state := 2, seated := true })] } };
    (s.bay bay).seated = true ∧ (s.bay bay).state ≠ 0 ∧ (s.bay bay).state ≠ 4 ∧ (∀ n, n < 9 → (s.port n).feed ≠ some bay) ∧
    (∀ n w, n < 8 → (s.port n).switching = some w → w.spare ≠ bay)) := by
  intros
  refine ⟨?_, ?_, ?_, ?_, fun _ _ _ h => absurd h (no_switch _ (by decide +kernel) _ _)⟩ <;> decide +kernel

theorem wit_laser_sources_complete_3 :
  (let bay : Nat := 0; let port : Nat := 0; let b : Nat := 8;
    let s : State := { panel := { ports := [(0, { feed := some 0 })], bays := [(0, { state := 3, seated := true }), (8, { state := 2, typeOk := true, seated := true })] } };
    (s.bay bay).seated = true ∧ (s.bay bay).state = 3 ∧ port < 9 ∧ (s.port port).feed = some bay ∧
    (∀ n, n < 9 → (s.port n).feed = some bay → n = port) ∧ (∀ n w, n < 8 → (s.port n).switching = some w → w.spare ≠ bay) ∧
    (∀ b, (s.bay b).pressed = false) ∧ s.freeSpare port = some b ∧ b ≠ bay) := by
  intros
  refine ⟨?_, ?_, ?_, ?_, ?_, fun _ _ _ h => absurd h (no_switch _ (by decide +kernel) _ _), unpressed _ (by decide +kernel), ?_, ?_⟩ <;> decide +kernel

theorem wit_laser_sources_complete_4 :
  (let bay : Nat := 0; let port : Nat := 0;
    let s : State := { panel := { ports := [(0, { feed := some 0 })], bays := [(0, { state := 3, seated := true })] } };
    (s.bay bay).seated = true ∧ (s.bay bay).state = 3 ∧ port < 9 ∧ (s.port port).feed = some bay ∧
    (∀ n, n < 9 → (s.port n).feed = some bay → n = port) ∧ (∀ n w, n < 8 → (s.port n).switching = some w → w.spare ≠ bay) ∧
    (∀ b, (s.bay b).pressed = false) ∧ (∀ b, b < 12 → (s.bay b).state ≠ 2)) := by
  intros
  refine ⟨?_, ?_, ?_, ?_, ?_, fun _ _ _ h => absurd h (no_switch _ (by decide +kernel) _ _), unpressed _ (by decide +kernel), ?_⟩ <;> decide +kernel

theorem wit_injection_and_ejection :
  (let d : Nat := 0; let cls : Nat := 3; let rank : Nat := 2; let die : Nat := 5; let c : Nat := 3; let tr : Bytes := [0, 1];
    let pl : Bytes := [7];
    let s : State := oneDie { standsFor := 0, fab := { selfValid := true, rank := 1, coord := 0, coordValid := true, ring := 0, ranks := [(1, 0x8000), (2, 0x8000)], handoff := [.pkt rank die c tr pl] } };
    (s.die d).fab.handoff.find? (fun h => h.cls = cls && (s.die d).mayInject h) = some (.pkt rank die c tr pl) ∧
    (s.die d).fab.rankOk rank = true ∧ (rank ≠ (s.die d).fab.rank ∨ die ≠ (s.die d).standsFor)) ∧
  (let d : Nat := 0; let cls : Nat := clsReq; let i : Nat := 4; let bs : Bytes := [1];
    let r : Req := { id := 4, rank := 2, fixed := some bs };
    let s : State := oneDie { standsFor := 0, fab := { selfValid := true, rank := 1, coord := 0, coordValid := true, ring := 0, ranks := [(1, 0x8000), (2, 0x8000)], handoff := [.req i] }, rem := { reqs := [r] } };
    (s.die d).fab.handoff.find? (fun h => h.cls = cls && (s.die d).mayInject h) = some (.req i) ∧
    (s.die d).rem.reqs.find? (fun r => r.id = i) = some r ∧ (s.die d).fab.rankOk r.rank = true ∧ r.sent = false ∧ r.numbered = false ∧
    r.kind ≠ .send ∧ r.fixed = some bs ∧ (r.rank ≠ (s.die d).fab.rank ∨ r.die ≠ (s.die d).standsFor)) ∧
  (let d : Nat := 0; let i : Nat := 0; let h : Held := { route := some { exit := 8, site := 0 } };
    let s : State := oneDie { standsFor := 0, fab := { selfValid := true, rank := 1, coord := 0, coordValid := true, ring := 0, ranks := [(1, 0x8000), (2, 0x8000)], held := [h] } };
    (s.die d).fab.held.zipIdx.find? (fun e => match e.1.route with | some r => r.exit = 8 && r.site = d && s.carries d | none => false) = some (h, i)) := by and_intros <;> decide +kernel

theorem wit_forwarding_routes_and_hops :
  (let d : Nat := 0; let s : State := { }; s.carries d = false) ∧
  (let d : Nat := 0; let i : Nat := 0; let h : Held := { pkt := { dstCoord := 0x20 } }; let first : Option (Held × Nat) := some (h, i);
    let e : Nat := 0; let ph : Nat := 0; let t : Nat := 0;
    let s : State := { dies := [(0, { standsFor := 0, power := { good := 0x3FFFFFFF }, pairs := [(0, { state := .run })], fab := { selfValid := true, rank := 1, coord := 0, coordValid := true, ring := 0, ranks := [(1, 0x8000), (2, 0x8000)], held := [h] } })], live := [(0, {})] };
    s.carries d = true ∧
    first = (s.die d).fab.held.zipIdx.find? (fun e => match e.1.route with | none => s.transit || e.1.from_ = .inject | some r => s.exitGone r) ∧
    first = some (h, i) ∧ (tooOld s.turn h.pkt = false ∨ h.from_ = .inject) ∧ (s.die d).fab.hop h.pkt h.port = .port e ph ∧
    s.exitDie d e = some t) ∧
  (let d : Nat := 0; let i : Nat := 0; let h : Held := { pkt := { dstCoord := 0 } }; let first : Option (Held × Nat) := some (h, i);
    let t : Nat := 0; let v : Option Nat := none;
    let s : State := { dies := [(0, { standsFor := 0, power := { good := 0x3FFFFFFF }, pairs := [(0, { state := .run })], fab := { selfValid := true, rank := 1, coord := 0, coordValid := true, ring := 0, ranks := [(1, 0x8000), (2, 0x8000)], held := [h] } })], live := [(0, { standsFor := 0 })] };
    s.carries d = true ∧
    first = (s.die d).fab.held.zipIdx.find? (fun e => match e.1.route with | none => s.transit || e.1.from_ = .inject | some r => s.exitGone r) ∧
    first = some (h, i) ∧ (tooOld s.turn h.pkt = false ∨ h.from_ = .inject) ∧ (s.die d).fab.hop h.pkt h.port = .eject ∧
    s.siteOf h.pkt.dstDie = some t ∧ s.meshSite t = true ∧ meshVia s.meshSite d t = some v) ∧
  (let d : Nat := 0; let i : Nat := 0; let h : Held := { pkt := { ttl := 0 }, port := 0 }; let first : Option (Held × Nat) := some (h, i);
    let s : State := { dies := [(0, { standsFor := 0, power := { good := 0x3FFFFFFF }, pairs := [(0, { state := .run })], fab := { selfValid := true, rank := 1, coord := 0, coordValid := true, ring := 0, ranks := [(1, 0x8000), (2, 0x8000)], held := [h] } })], live := [(0, {})] };
    s.carries d = true ∧
    first = (s.die d).fab.held.zipIdx.find? (fun e => match e.1.route with | none => s.transit || e.1.from_ = .inject | some r => s.exitGone r) ∧
    first = some (h, i) ∧ (tooOld s.turn h.pkt = false ∨ h.from_ = .inject) ∧ (s.die d).fab.hop h.pkt h.port = .unroutable) ∧
  (let d : Nat := 0; let i : Nat := 0; let h : Held := { pkt := { trans := [5] }, from_ := .pair 0 0 false };
    let first : Option (Held × Nat) := some (h, i);
    let s : State := { ({ dies := [(0, { standsFor := 0, power := { good := 0x3FFFFFFF }, pairs := [(0, { state := .run })], fab := { selfValid := true, rank := 1, coord := 0, coordValid := true, ring := 0, ranks := [(1, 0x8000), (2, 0x8000)], held := [h] } })], live := [(0, {})] } : State) with turn := 100, panel := { bring := { step := 13 } } };
    s.carries d = true ∧
    first = (s.die d).fab.held.zipIdx.find? (fun e => match e.1.route with | none => s.transit || e.1.from_ = .inject | some r => s.exitGone r) ∧
    first = some (h, i) ∧ tooOld s.turn h.pkt = true ∧ h.from_ ≠ .inject) ∧
  (let d : Nat := 0; let i : Nat := 0; let first : Option (Held × Nat) := none; let j : Nat := 0; let n : Nat := 1; let c : Nat := 0;
    let left : Nat := 1; let r : Route := { exit := 8, site := 1 }; let h : Held := { route := some r }; let g : Held := h;
    let sh : Bool := false;
    let s : State := { dies := [(0, { standsFor := 0, power := { good := 0x3FFFFFFF }, pairs := [(0, { state := .run })], fab := { selfValid := true, rank := 1, coord := 0, coordValid := true, ring := 0, ranks := [(1, 0x8000), (2, 0x8000)], held := [h] } }), (1, { standsFor := 0, power := { good := 0x3FFFFFFF } })], live := [(0, {}), (1, { standsFor := 1 })] };
    s.carries d = true ∧
    first = (s.die d).fab.held.zipIdx.find? (fun e => match e.1.route with | none => s.transit || e.1.from_ = .inject | some r => s.exitGone r) ∧
    first = none ∧
    (s.die d).fab.held.zipIdx.find? (fun e => (s.die d).headsQueue e.2 e.1 && (match e.1.route with | some r => s.canHop d e.1 r | none => false)) = some (g, j) ∧
    n = ((g.route.getD {}).next d).1 ∧ n ≠ d ∧
    arbClass (s.die d).fab.weight (fun c => (s.meshEligible d n).any (fun e => e.2.pkt.cls = c)) 5 ((s.die d).fab.arb.getD (16 + sideOf n d) (0, (s.die d).fab.weight 0)).1 ((s.die d).fab.arb.getD (16 + sideOf n d) (0, (s.die d).fab.weight 0)).2 = some (c, left) ∧
    pickWithin (fun e => e.pkt.phase) ((s.die d).fab.exitRr.getD (100 + 4 * (16 + sideOf n d) + c) 0) ((s.meshEligible d n).filter (fun e => e.2.pkt.cls = c)) = some (i, h) ∧
    h.route = some r ∧ (tooOld s.turn h.pkt = false ∨ h.from_ = .inject) ∧
    (s.die n).meshRoom (sideOf d n) (64 * r.exit + 32 * (r.next d).2.leg + (8 * h.pkt.cls + h.pkt.phase)) = some sh) := by and_intros <;> decide +kernel

theorem wit_fabric_control_complete :
  (let d : Nat := 0; let q : Packet := { trans := [0, 1, 0x80, 0] }; let s : State := oneDie { rem := { rx := [q] } };
    (s.die d).rem.rx.find? (fun q => q.owner = 0) = some q ∧ byteAt q.trans 1 = 1 ∧
    cGroup (leAt q.trans 2 2 % 2 ^ 14) ≠ cGroup (s.die d).fab.coord ∧
    (s.die d).fab.viaExcluded.find (cGroup (leAt q.trans 2 2 % 2 ^ 14)) = none) ∧
  (let d : Nat := 0; let q : Packet := { trans := [0, 1, 0, 0, 1, 0] }; let g : Nat := 1; let e : Nat := 0;
    let s : State := oneDie { fab := { coord := 0, coordValid := true, gw := [(1, 0x8000)] }, rem := { rx := [q] } };
    (s.die d).rem.rx.find? (fun q => q.owner = 0) = some q ∧ byteAt q.trans 1 = 1 ∧
    cGroup (leAt q.trans 2 2 % 2 ^ 14) = cGroup (s.die d).fab.coord ∧ g = byteAt q.trans 4 ∧
    ([0, 1, 2, 3] : List Nat).find? (fun e => bitAt (gwEntry ((s.die d).fab.gw.getD g 0) e) 15 && gwCoord (cGroup (leAt q.trans 2 2 % 2 ^ 14)) (gwEntry ((s.die d).fab.gw.getD g 0) e) = leAt q.trans 2 2 % 2 ^ 14 && gwEntry ((s.die d).fab.gw.getD g 0) e % 2 = byteAt q.trans 5 % 2 && ((s.die d).fab.gwExcluded.find (4 * g + e)).isNone) = some e) ∧
  (let t : RankTable := { rank := 3 };
    let s : State := { panel := { fabric := { pendingTables := [t] }, job := some {} }, live := [(0, {})] };
    s.panel.fabric.pendingTables.find? (fun t => turnCome t.turn s.turn) = some t ∧ s.panel.job.isSome = true) ∧
  (let d : Nat := 0; let s : State := oneDie { fab := { t2Hi := 0, held := [{ pkt := { cls := clsReq } }] } };
    (s.die d).fab.t2Hi < (s.die d).injectDepth) ∧
  (let d : Nat := 0; let s : State := oneDie { fab := { rate := 4 } }; (s.die d).injectDepth ≤ (s.die d).fab.t2Hi ∧
    (s.die d).fab.rate < 16 ∧ ((s.die d).fab.relaxing = true ∨ (s.die d).injectDepth < (s.die d).fab.t2Lo)) := by and_intros <;> decide +kernel

theorem wit_address_and_queue_words :
  (let d : Nat := 0; let c : Nat := 0; let t : Nat := 0; let w : W64 := wd 5 1 1 [(15, 42), (0xFFFFFFFF, 0)]; let s : State := one w;
    badRemote w (maskOf 45 42 + maskOf 31 0) = false ∧ s.issues d c t w 5 1 = true) ∧
  (let d : Nat := 0; let c : Nat := 0; let t : Nat := 0; let w : W64 := wd 5 2 1 [(15, 42), (0xFFFFFFFF, 0)]; let s : State := one w;
    badRemote w (maskOf 45 42 + maskOf 31 0) = false ∧ s.issues d c t w 5 2 = true) ∧
  (let d : Nat := 0; let c : Nat := 0; let t : Nat := 0; let w : W64 := wd 5 3 1 [(15, 42), (0xFFFFFFFB, 0)];
    let s : State := one w (fun x => x.modSeq 0 (fun q => { q with raddr := [(15, 5)] }));
    badRemote w (maskOf 45 42 + maskOf 31 0) = false ∧ s.issues d c t w 5 3 = true ∧
    0 ≤ (((s.die d).raOf c w % 2 ^ 40 : Nat) : Int) + signed 32 (wField w 31 0) ∧
    (((s.die d).raOf c w % 2 ^ 40 : Nat) : Int) + signed 32 (wField w 31 0) < 2 ^ 40) ∧
  (let d : Nat := 0; let c : Nat := 0; let t : Nat := 0; let w : W64 := wd 5 0x10 1 [(1, 41)]; let s : State := one w;
    s.issues d c t w 5 0x10 = true ∧ badRemote w (maskOf 45 41) = false ∧ (wBit w 41 = true ∨ badGlobal ((s.die d).raOf c w) = false)) ∧
  (let d : Nat := 0; let c : Nat := 0; let t : Nat := 0; let rank : Nat := 1; let die : Nat := 2; let all : Bool := false;
    let own : Nat := 3; let s : State := oneDie { seqs := [(0, { threads := [(0, { wait := .fence rank die all own })] })] };
    (((s.die d).seq c).thread t).wait = .fence rank die all own ∧ (s.die d).fenceHeld c rank die all = false) := by and_intros <;> decide +kernel

theorem wit_address_and_queue_words_1 :
  (let d : Nat := 0; let c : Nat := 0; let t : Nat := 0; let w : W64 := wd 5 0xC 1 [(64, 36)]; let i : QItem := { data := [1] };
    let rest : List QItem := [];
    let s : State := { one w (fun x => { x with standsFor := 0, pool := { queues := [(64, { enable := true, consumer := 0, items := [{ data := [1] }] })] } }) with menus := [{ state := .running, pkg := mpk [(0x148, 8, 0x180), (0x180, 4, 1), (0x186, 2, 64)] }] };
    c < 2 ∧ s.issues d c t w 5 0xC = true ∧ badRemote w (maskOf 45 8) = false ∧
    spanPlace (pantryBase + 64 * wField w 35 15) (64 * (wField w 14 8 + 1)) = some .pantry ∧ queueNamed (wField w 45 36) = true ∧
    s.plansQueue d c (wField w 45 36) = true ∧
    (∀ e k pan n own word, (((s.die d).seq e).thread k).wait ≠ .take (wField w 45 36) pan n own word) ∧
    ((s.die d).queue (wField w 45 36)).items = i :: rest ∧ i.data ≠ [] ∧ i.data.length ≤ 64 * (wField w 14 8 + 1) ∧
    (s.die d).mem.frozen (pantryBase + 64 * wField w 35 15) i.data.length = false) := by
  intro d c t w i rest s
  refine ⟨?_, ?_, ?_, ?_, ?_, ?_, fun e k _ _ _ _ h => ?_, ?_, ?_, ?_, ?_⟩
  case refine_7 =>
    have h0 := one_ready (wd 5 0xC 1 [(64, 36)]) (fun x => { x with standsFor := 0, pool := { queues := [(64, { enable := true, consumer := 0, items := [{ data := [1] }] })] } }) (fun _ => rfl) e k;
    exact absurd (h0.symm.trans h) (fun h => nomatch h)
  all_goals decide +kernel

theorem wit_address_and_queue_words_2 :
  (let d : Nat := 0; let c : Nat := 0; let t : Nat := 0; let w : W64 := wd 5 0xC 1 [(64, 36)];
    let s : State := { one w (fun x => { x with standsFor := 0, pool := { queues := [(64, { enable := true, consumer := 0, items := [] })] } }) with menus := [{ state := .running, pkg := mpk [(0x148, 8, 0x180), (0x180, 4, 1), (0x186, 2, 64)] }] };
    c < 2 ∧ s.issues d c t w 5 0xC = true ∧ badRemote w (maskOf 45 8) = false ∧
    spanPlace (pantryBase + 64 * wField w 35 15) (64 * (wField w 14 8 + 1)) = some .pantry ∧ queueNamed (wField w 45 36) = true ∧
    s.plansQueue d c (wField w 45 36) = true ∧
    (∀ e k pan n own word, (((s.die d).seq e).thread k).wait ≠ .take (wField w 45 36) pan n own word) ∧
    ((s.die d).queue (wField w 45 36)).items = []) := by
  intro d c t w s
  refine ⟨?_, ?_, ?_, ?_, ?_, ?_, fun e k _ _ _ _ h => ?_, ?_⟩
  case refine_7 =>
    have h0 := one_ready (wd 5 0xC 1 [(64, 36)]) (fun x => { x with standsFor := 0, pool := { queues := [(64, { enable := true, consumer := 0, items := [] })] } }) (fun _ => rfl) e k;
    exact absurd (h0.symm.trans h) (fun h => nomatch h)
  all_goals decide +kernel

theorem wit_remote_words_become_requests :
  (let d : Nat := 0; let c : Nat := 0; let t : Nat := 0; let w : W64 := wd 5 8 1 [(7, 9)];
    let s : State := one w (fun x => { x.modSeq 0 (fun q => { q with raddr := [(0, 2 * 2 ^ 50 + 64)] }) with fab := { selfValid := true, rank := 1, ranks := [(2, 0x8000)] } });
    (s.die d).fab.rankOk (gRank ((s.die d).raOf c w)) = true ∧ s.issues d c t w 5 8 = true ∧ badRemote w (maskOf 45 9) = false ∧
    badTarget ((s.die d).raOf c w) (wField w 20 9 + 1) (panOf w) (wField w 20 9 + 1) 0 = false) ∧
  (let d : Nat := 0; let c : Nat := 0; let t : Nat := 0; let w : W64 := wd 5 9 1 [(220, 9)];
    let s : State := one w (fun x => { x.modSeq 0 (fun q => { q with raddr := [(0, 2 * 2 ^ 50 + 64)] }) with fab := { selfValid := true, rank := 1, ranks := [(2, 0x8000)] } });
    (s.die d).fab.rankOk (gRank ((s.die d).raOf c w)) = true ∧ s.issues d c t w 5 9 = true ∧ badRemote w (maskOf 45 8) = false ∧
    (wBit w 8 = true → wField w 20 9 + 1 ≤ 216) ∧
    badTarget ((s.die d).raOf c w) (wField w 20 9 + 1) (panOf w) (wField w 20 9 + 1) 0 = false) ∧
  (let d : Nat := 0; let c : Nat := 0; let t : Nat := 0; let w : W64 := wd 5 0xA 1 [(7, 17), (1, 16)];
    let s : State := one w (fun x => { x.modSeq 0 (fun q => { q with raddr := [(0, 2 * 2 ^ 50 + 64)] }) with fab := { selfValid := true, rank := 1, ranks := [(2, 0x8000)] } });
    (s.die d).fab.rankOk (gRank ((s.die d).raOf c w)) = true ∧ s.issues d c t w 5 0xA = true ∧ badRemote w (maskOf 45 16) = false ∧
    wField w 20 17 < 8 ∧ badTarget ((s.die d).raOf c w) (if wBit w 16 then 8 else 4) (panOf w) 32 0 = false ∧
    gOffset ((s.die d).raOf c w) % (if wBit w 16 then 8 else 4) = 0) ∧
  (let d : Nat := 0; let c : Nat := 0; let t : Nat := 0; let w : W64 := wd 5 0xB 1 [(216, 9)];
    let s : State := one w (fun x => { x.modSeq 0 (fun q => { q with raddr := [(0, 2 * 2 ^ 50 + 2 ^ 40 + 64)] }) with fab := { selfValid := true, rank := 1, ranks := [(2, 0x8000)] } });
    (s.die d).fab.rankOk (gRank ((s.die d).raOf c w)) = true ∧ s.issues d c t w 5 0xB = true ∧ badRemote w (maskOf 45 9) = false ∧
    badTarget ((s.die d).raOf c w) 0 (panOf w) (wField w 20 9 + 1) 1 = false ∧ (s.die d).servedLocally ((s.die d).raOf c w) = false ∧
    (s.die d).sendRefused c t w = false) ∧
  (let d : Nat := 0; let c : Nat := 0; let t : Nat := 0; let w : W64 := wd 5 0xB 1 [(99, 9)]; let q : Nat := 64; let n : Nat := 100;
    let s : State := one w (fun x => { x.modSeq 0 (fun q => { q with raddr := [(0, 2 * 2 ^ 50 + 2 ^ 40 + 64)] }) with standsFor := 0, fab := { selfValid := true, rank := 2, ranks := [(2, 0x8000)] }, pool := { queues := [(64, { enable := true, consumer := 0, maxItemM1 := 7, max := 64 })] } });
    let key : Nat × Nat := (2 ^ 32 + (s.die d).freshKey.1, 0); (s.die d).fab.rankOk (gRank ((s.die d).raOf c w)) = true ∧
    q = gOffset ((s.die d).raOf c w) ∧ n = wField w 20 9 + 1 ∧ key = (2 ^ 32 + (s.die d).freshKey.1, 0) ∧ s.issues d c t w 5 0xB = true ∧
    badRemote w (maskOf 45 9) = false ∧ badTarget ((s.die d).raOf c w) 0 (panOf w) n 1 = false ∧
    (s.die d).servedLocally ((s.die d).raOf c w) = true ∧ (s.die d).sendRefused c t w = false ∧ queueNamed q = true ∧
    ((s.die d).pool.admission q ((n + 63) / 64) key s.fresh.1).2 = .admitted ∧ (∀ p ∈ ((s.die d).queue q).parts, p.key ≠ key)) := by and_intros <;> decide +kernel

theorem wit_requests_end :
  (let d : Nat := 0; let q : Packet := { trans := raTrans 9 false false false 0 0 0, payload := [1, 2, 3, 4] };
    let r : Req := { id := 1, cmd := 1, sent := true, kind := .load, src := pantryBase + 64, len := 4 };
    let s : State := oneDie { rem := { rx := [q], reqs := [r] } }; let x : Die := (((s.die d).takeRx 5 [9]).getD ({}, {})).2;
    (s.die d).takeRx 5 [9] = some (q, x) ∧ x.reqFor q = some r ∧ r.answered = false ∧ r.kind = .load ∧ q.addr % 4096 = 0 ∧ 0 < r.len ∧
    r.len ≤ 220 ∧ q.payload.length = r.len ∧ r.got = [] ∧ (s.die d).mem.frozen r.src r.len = false) ∧
  (let d : Nat := 0; let q : Packet := { trans := raTrans 10 false false false 0 0 0, payload := List.replicate 10 0 };
    let r : Req := { id := 1, cmd := 1, sent := true, kind := .atomic, src := pantryBase + 64, len := 4 };
    let s : State := oneDie { rem := { rx := [q], reqs := [r] } }; let x : Die := (((s.die d).takeRx 5 [10]).getD ({}, {})).2;
    (s.die d).takeRx 5 [10] = some (q, x) ∧ x.reqFor q = some r ∧ r.answered = false ∧ r.kind = .atomic ∧ leAt q.payload 8 2 = 0 ∧
    (s.die d).mem.frozen (r.src + 16) 8 = false) ∧
  (let d : Nat := 0; let q : Packet := { trans := raTrans 8 false false false 0 0 0, payload := [0, 0] };
    let r : Req := { id := 1, cmd := 1, sent := true, kind := .store, src := pantryBase + 64, len := 4 };
    let s : State := oneDie { rem := { rx := [q], reqs := [r] } }; let x : Die := (((s.die d).takeRx 5 [8]).getD ({}, {})).2;
    (s.die d).takeRx 5 [8] = some (q, x) ∧ x.reqFor q = some r ∧ r.answered = false ∧ (r.kind = .store ∨ r.kind = .send) ∧
    leAt q.payload 0 2 = 0) ∧
  (let d : Nat := 0; let q : Packet := { trans := raTrans 11 false false false 0 0 0, payload := [0] };
    let r : Req := { id := 1, cmd := 1, sent := true, kind := .load, src := pantryBase + 64, len := 4 };
    let s : State := oneDie { rem := { rx := [q], reqs := [r] }, fab := { handoff := [.req 1] } };
    let x : Die := (((s.die d).takeRx 5 [11]).getD ({}, {})).2; (s.die d).takeRx 5 [11] = some (q, x) ∧ x.reqFor q = some r) ∧
  (let d : Nat := 0; let req : Nat := 1;
    let r : Req := { id := 1, cmd := 1, sent := true, kind := .load, src := pantryBase + 64, len := 4 };
    let s : State := oneDie { rem := { reqs := [r] } }; (s.die d).rem.reqs.find? (fun r => r.id = req) = some r ∧
    (s.die d).timerRuns r = true ∧ (s.die d).fab.handoff.contains (.req req) = false) ∧
  (let d : Nat := 0; let req : Nat := 1;
    let r : Req := { id := 1, cmd := 1, sent := true, kind := .load, src := pantryBase + 64, len := 4 };
    let s : State := oneDie { rem := { reqs := [r] } }; (s.die d).rem.reqs.find? (fun r => r.id = req) = some r ∧
    (s.die d).timerRuns r = true) ∧
  (let d : Nat := 0; let key : Nat := 5; let e : SrcSession := { idle := 140 }; let s : State := oneDie { rem := { src := [(key, e)] } };
    (s.die d).rem.src.find key = some e ∧ 140 ≤ e.idle ∧ (∀ r ∈ (s.die d).rem.reqs, r.key = key → r.sent = false ∧ r.numbered = false)) ∧
  (let d : Nat := 0; let key : Nat := 5; let e : TgtSession := { idle := 128 }; let s : State := oneDie { rem := { tgt := [(key, e)] } };
    (s.die d).rem.tgt.find key = some e ∧ 128 ≤ e.idle) ∧
  (let d : Nat := 0; let s : State := oneDie { rem := { quiet := 1 } }; (s.die d).rem.quiet = 1) := by and_intros <;> decide +kernel

theorem wit_marked_numbers_stay_done :
  (let t : TgtSession := { base := 0xFFFFFF, applied := [4000] }; let seq : Nat := 0xFFFFFF; t.base < 2 ^ 24 ∧ seq < 2 ^ 24 ∧
    t.dist seq < 4096) := by decide +kernel

theorem wit_target_serves_requests :
  (let d : Nat := 0; let q : Packet := { trans := raTrans 1 false false true 0 0x4000000000 0, payload := [3, 0] };
    let bs : Bytes := List.replicate 4 0; let s : State := oneDie { rem := { rx := [q] } };
    let x : Die := (((s.die d).takeRx 5 [1]).getD ({}, {})).2; let y : Die := (x.take q s.turn).1; (s.die d).takeRx 5 [1] = some (q, x) ∧
    x.take q s.turn = (y, .fresh) ∧ (y.loadBytes q).2 = .inl bs) ∧
  (let d : Nat := 0; let q : Packet := { trans := raTrans 2 false false true 0 0x4000000040 0, payload := [1, 2] };
    let s : State := oneDie { rem := { rx := [q] } }; let x : Die := (((s.die d).takeRx 5 [2]).getD ({}, {})).2;
    let y : Die := (x.take q s.turn).1; (s.die d).takeRx 5 [2] = some (q, x) ∧ x.take q s.turn = (y, .fresh) ∧ q.flag = false ∧
    (y.tgt q.srcKey).flags = [] ∧ y.mem.targetCheck (targetOf q) (storeData q).length true = 0 ∧ placeOf (targetOf q) = .pantry ∧
    storeData q ≠ []) ∧
  (let d : Nat := 0; let q : Packet := { trans := raTrans 2 false false true 0 0x4000000040 0, payload := [1, 2] };
    let s : State := oneDie { rem := { rx := [q], tgt := [(0, { applied := [0] })] } };
    let x : Die := (((s.die d).takeRx 5 [2]).getD ({}, {})).2; let y : Die := (x.take q s.turn).1; (s.die d).takeRx 5 [2] = some (q, x) ∧
    x.take q s.turn = (y, .again)) ∧
  (let d : Nat := 0;
    let q : Packet := { trans := raTrans 3 false false true 0 0x4000000040 0, payload := leBytes 4 16 ++ leBytes 4 0 ++ leBytes 8 5 ++ leBytes 8 0 };
    let n : Nat := 8; let s : State := oneDie { rem := { rx := [q] } }; let x : Die := (((s.die d).takeRx 5 [3]).getD ({}, {})).2;
    let y : Die := (x.take q s.turn).1; n = (if bitAt (byteAt q.payload 0) 4 then 8 else 4) ∧ (s.die d).takeRx 5 [3] = some (q, x) ∧
    x.mem.pendingTouches (targetOf q) n = false ∧ x.take q s.turn = (y, .fresh) ∧ (y.tgt q.srcKey).replayRoom s.turn = true ∧
    y.mem.targetCheck (targetOf q) n true = 0 ∧ placeOf (targetOf q) = .pantry) ∧
  (let d : Nat := 0;
    let q : Packet := { trans := raTrans 3 false false true 0 0x4000000040 0, payload := leBytes 4 16 ++ leBytes 4 0 ++ leBytes 8 5 ++ leBytes 8 0 };
    let s : State := oneDie { rem := { rx := [q], tgt := [(0, { applied := [0] })] } };
    let x : Die := (((s.die d).takeRx 5 [3]).getD ({}, {})).2; let y : Die := (x.take q s.turn).1; (s.die d).takeRx 5 [3] = some (q, x) ∧
    x.mem.pendingTouches (targetOf q) (if bitAt (byteAt q.payload 0) 4 then 8 else 4) = false ∧ x.take q s.turn = (y, .again)) := by and_intros <;> decide +kernel

theorem wit_target_serves_requests_1 :
  (let d : Nat := 0; let q : Packet := { trans := raTrans 5 false false true 0 0x4000000000 0, payload := [] };
    let s : State := oneDie { rem := { rx := [q] } }; let x : Die := (((s.die d).takeRx 5 [5]).getD ({}, {})).2;
    let y : Die := (x.take q s.turn).1; let bs : Bytes := (((y.blockBytes q).2.getLeft?).getD []); (s.die d).takeRx 5 [5] = some (q, x) ∧
    x.take q s.turn = (y, .fresh) ∧ (y.blockBytes q).2 = .inl bs) := ⟨by decide +kernel, by decide +kernel, inl_of_isLeft _ (by decide +kernel)⟩

theorem wit_send_packet_fills_item :
  (let d : Nat := 0;
    let q : Packet := { trans := raTrans 4 false false true 0 (2 ^ 40 + 64) 0, payload := leBytes 2 2 ++ leBytes 2 0 ++ [1, 2, 3] };
    let s : State := oneDie { rem := { rx := [q] }, pool := { queues := [(64, { enable := true, max := 4 })] } };
    let x : Die := (((s.die d).takeRx 5 [4]).getD ({}, {})).2; let y : Die := (x.take q s.turn).1; (s.die d).takeRx 5 [4] = some (q, x) ∧
    x.take q s.turn = (y, .fresh) ∧ leAt q.payload 2 2 = 0 ∧ leAt q.payload 0 2 + 1 ≤ 216 ∧ (∀ m ∈ (y.tgt q.srcKey).msgs, m.seq0 ≠ q.seq) ∧
    q.seq < 2 ^ 24 ∧ (targetOf q) / 2 ^ 40 = 1 ∧ queueNamed (targetOf q % 2 ^ 40) = true ∧ (y.tgt q.srcKey).msgs.length < 8 ∧
    (y.pool.admission (targetOf q % 2 ^ 40) ((leAt q.payload 0 2 + 64) / 64) (q.srcKey, q.seq) s.fresh.1).2 = .admitted ∧
    (∀ p ∈ ((s.die d).queue (targetOf q % 2 ^ 40)).parts, p.key ≠ (q.srcKey, q.seq))) := by decide +kernel

theorem wit_whisk_words_complete :
  (let d : Nat := 0; let c : Nat := 0; let t : Nat := 0; let w : W64 := wd 4 1 1 [(5, 40)]; let m : Menu := wmenu;
    let bd : Bind := bindOf (m.bindBytes 0) (wplan []); let k : Nat := 0; let s : State := wone w {}; s.issues d c t w 4 1 = true ∧
    bodyOk w (maskOf 45 40) = true ∧ s.bindFor d c (wField w 45 40) = some (m, bd) ∧ (s.inst d (wField w 45 40)).live = false ∧
    k = (if (s.inst d (wField w 45 40)).opened then (s.inst d (wField w 45 40)).number + 1 else 0)) ∧
  (let d : Nat := 0; let c : Nat := 0; let t : Nat := 0; let w : W64 := wd 4 2 1 [(5, 40)];
    let s : State := wone w { state := 1, bind := wbind }; s.issues d c t w 4 2 = true ∧ bodyOk w (maskOf 45 40) = true ∧ wTicket w = 0 ∧
    s.bindFor d c (wField w 45 40) ≠ none ∧ (s.inst d (wField w 45 40)).state = 1) ∧
  (let d : Nat := 0; let b : Nat := 5; let s : State := wone 0 { state := 1, bind := wbind, count := 400 }; (s.inst d b).state = 1 ∧
    (s.inst d b).bind.fire = false ∧ (s.inst d b).bind.size ≤ (s.inst d b).count) ∧
  (let d : Nat := 0; let c : Nat := 0; let t : Nat := 0; let w : W64 := wd 4 3 1 [(5, 40)]; let m : Menu := wmenu;
    let bd : Bind := bindOf (m.bindBytes 0) (wplan []); let s : State := wone w { state := 1, bind := wbind, opened := true };
    s.issues d c t w 4 3 = true ∧ bodyOk w (maskOf 45 26) = true ∧ wTicket w = 0 ∧ s.bindFor d c (wField w 45 40) = some (m, bd) ∧
    wField w 39 26 ≤ bd.chunks ∧ (s.inst d (wField w 45 40)).opened = true) := by and_intros <;> decide +kernel

theorem wit_control_rows_act_once :
  (let d : Nat := 0; let kind : Nat := 4; let i : Instr := .credit d; let q : Packet := wpkt 4 0 1 0 [4, 0]; let b := 5; let peer := 1;
    let s : State := wdie 0 { bind := wbind, state := 4 } [q]; let x : Die := (((s.die d).takeRx 4 [4]).getD ({}, {})).2;
    (i, kind) ∈ [(Instr.preludeUp d, 2), (Instr.preludeDown d, 3), (Instr.credit d, 4), (Instr.chunkAck d, 5), (Instr.resend d, 6), (Instr.agreeUp d, 7), (Instr.release d, 8), (Instr.abort d, 9)] ∧
    (s.die d).takeRx 4 [kind] = some (q, x) ∧ x.bucketOf q = some b ∧ (s.team d b).find q.srcRank q.srcDie = some peer ∧
    (s.inst d b).ctlSeen.contains (peer, wIndex q) = false) ∧
  (let d : Nat := 0; let kind : Nat := 4; let i : Instr := .credit d; let q : Packet := wpkt 4 0 1 0 [4, 0]; let b := 5; let peer := 1;
    let s : State := wdie 0 { bind := wbind, state := 4, ctlSeen := [(1, 0)] } [q];
    let x : Die := (((s.die d).takeRx 4 [4]).getD ({}, {})).2;
    (i, kind) ∈ [(Instr.preludeUp d, 2), (Instr.preludeDown d, 3), (Instr.credit d, 4), (Instr.chunkAck d, 5), (Instr.resend d, 6), (Instr.agreeUp d, 7), (Instr.release d, 8), (Instr.abort d, 9)] ∧
    (s.die d).takeRx 4 [kind] = some (q, x) ∧ x.bucketOf q = some b ∧ (s.team d b).find q.srcRank q.srcDie = some peer ∧
    (s.inst d b).ctlSeen.contains (peer, wIndex q) = true) ∧
  (let d : Nat := 0; let kind : Nat := 4; let i : Instr := .credit d; let q : Packet := wpkt 4 0 1 0 [4, 0]; let s : State := wdie 0 {} [q];
    let x : Die := (((s.die d).takeRx 4 [4]).getD ({}, {})).2;
    (i, kind) ∈ [(Instr.preludeUp d, 2), (Instr.preludeDown d, 3), (Instr.credit d, 4), (Instr.chunkAck d, 5), (Instr.resend d, 6), (Instr.agreeUp d, 7), (Instr.release d, 8), (Instr.abort d, 9)] ∧
    (s.die d).takeRx 4 [kind] = some (q, x) ∧ x.bucketOf q = none ∧
    (x.pastInstance q || x.whisk.pending.any (fun p => p.srcRank = q.srcRank && p.srcDie = q.srcDie && wIndex p = wIndex q && wPlan p = wPlan q && wInstance p = wInstance q)) = false) ∧
  (let d : Nat := 0; let kind : Nat := 4; let i : Instr := .credit d; let q : Packet := wpkt 4 0 1 0 [4, 0];
    let s : State := wdie 0 { bind := wbind, number := 5 } [q]; let x : Die := (((s.die d).takeRx 4 [4]).getD ({}, {})).2;
    (i, kind) ∈ [(Instr.preludeUp d, 2), (Instr.preludeDown d, 3), (Instr.credit d, 4), (Instr.chunkAck d, 5), (Instr.resend d, 6), (Instr.agreeUp d, 7), (Instr.release d, 8), (Instr.abort d, 9)] ∧
    (s.die d).takeRx 4 [kind] = some (q, x) ∧ x.bucketOf q = none ∧ x.pastInstance q = true) := by and_intros <;> decide +kernel

theorem wit_control_packets_take_effect :
  (let d : Nat := 0; let b : Nat := 5; let peer : Nat := 1; let q : Packet := wpkt 4 0 1 1 [4, 0];
    let s : State := wdie 0 { bind := wbind, state := 4 } [q]; s.ctlFirst d 4 b peer q = true) ∧
  (let d : Nat := 0; let b : Nat := 5; let peer : Nat := 1; let q : Packet := wpkt 5 0 1 1 [];
    let s : State := wdie 0 { bind := wbind, state := 4, hold := [{ id := wChunkId q peer }] } [q]; s.ctlFirst d 5 b peer q = true) ∧
  (let d : Nat := 0; let b : Nat := 5; let peer : Nat := 1; let q : Packet := wpkt 6 0 1 1 [];
    let h : HoldChunk := { id := wChunkId q peer, data := [1] }; let s : State := wdie 0 { bind := wbind, state := 4, hold := [h] } [q];
    s.ctlFirst d 6 b peer q = true ∧ (s.inst d b).hold.find? (fun h => h.id = wChunkId q peer) = some h ∧
    (s.die d).fab.rankOk ((s.team d b).at_ peer).1 = true) ∧
  (let d : Nat := 0; let b : Nat := 5; let peer : Nat := 1; let q : Packet := wpkt 7 0 1 1 [1];
    let s : State := wdie 0 { bind := wbind, state := 5 } [q]; s.ctlFirst d 7 b peer q = true) ∧
  (let d : Nat := 0; let b : Nat := 5; let peer : Nat := 1; let q : Packet := wpkt 8 0 1 1 [0];
    let s : State := wdie 0 { bind := wbind, state := 5 } [q]; s.ctlFirst d 8 b peer q = true ∧ byteAt q.payload 0 = 0 ∧
    (s.inst d b).state = 5) ∧
  (let d : Nat := 0; let b : Nat := 5; let peer : Nat := 1; let q : Packet := wpkt 8 0 1 1 [1];
    let s : State := wdie 0 { bind := wbind, state := 7 } [q]; s.ctlFirst d 8 b peer q = true ∧ byteAt q.payload 0 ≠ 0 ∧
    (s.inst d b).state = 7) ∧
  (let d : Nat := 0; let b : Nat := 5; let peer : Nat := 1; let q : Packet := wpkt 9 0 1 1 [1, 7];
    let s : State := wdie 0 { bind := wbind, state := 4 } [q]; s.ctlFirst d 9 b peer q = true ∧ (s.inst d b).live = true) ∧
  (let d : Nat := 0; let b : Nat := 5; let peer : Nat := 1; let q : Packet := wpkt 9 0 1 1 [1, 7];
    let s : State := wdie 0 { bind := wbind, state := 9, codes := [0x702] } [q]; s.ctlFirst d 9 b peer q = true ∧ (s.inst d b).state = 9 ∧
    (s.inst d b).codes.contains (leAt q.payload 0 2) = false) ∧
  (let d : Nat := 0; let b : Nat := 5; let peer : Nat := 1; let q : Packet := wpkt 2 0 1 1 ((Sm3.digest (wplan [])).take 8);
    let s : State := wdie 0 { bind := wbind, state := 2 } [q]; s.ctlFirst d 2 b peer q = true ∧ (s.inst d b).live = true ∧
    (s.team d b).kids.contains peer = true ∧ q.payload.take 8 = (Sm3.digest (s.inst d b).bind.plan).take 8 ∧
    (s.inst d b).preludeParts.all (fun c => c = wChunk q || (s.inst d b).partUp.contains (peer, c)) = true) ∧
  (let d : Nat := 0; let b : Nat := 5; let peer : Nat := 1; let q : Packet := wpkt 2 0 1 1 [];
    let s : State := wdie 0 { bind := wbind, state := 2 } [q]; s.ctlFirst d 2 b peer q = true ∧ (s.inst d b).live = true ∧
    (s.inst d b).state ≠ 7 ∧ (s.team d b).kids.contains peer = true ∧ q.payload.take 8 ≠ (Sm3.digest (s.inst d b).bind.plan).take 8) ∧
  (let d : Nat := 0; let b : Nat := 5; let peer : Nat := 1; let q : Packet := wpkt 3 0 1 1 [9, 0, 0, 0, 0, 0, 3, 1];
    let s : State := wdie 0 { bind := wbind, state := 2 } [q]; s.ctlFirst d 3 b peer q = true ∧ (s.inst d b).state = 2 ∧
    (s.inst d b).preludeParts.all (fun c => c = wChunk q || (s.inst d b).downParts.contains c) = true) ∧
  (let d : Nat := 0; let b : Nat := 5; let q : Packet := wpkt 3 0 1 1 []; let m : Menu := wmenu;
    let s : State := wdie 0 { bind := wbind, state := 1 } [q]; (s.inst d b).state = 1 ∨ (s.inst d b).state = 2 ∧
    (s.inst d b).upComplete = false ∧ (s.team d b).me = 0 ∧ turnCome (s.inst d b).slotTurn s.turn = true ∧
    ((s.die d).seq (s.inst d b).org.core).menu.bind s.menu = some m) := by and_intros <;> decide +kernel

theorem wit_chunks_complete :
  (let d : Nat := 0; let b : Nat := 5;
    let s : State := { wdie 0 {} with dies := [(0, { standsFor := 0, fab := wfab 0, whisk := { insts := [(5, { bind := wbind, state := 3 })] }, leave := { grants := [{ unit := 0 }] } })] };
    (s.die d).dataDue b s.turn = true ∧ (s.die d).leave.grants.any (fun g => g.unit = 0) = true) ∧
  (let d : Nat := 0; let b : Nat := 5; let q : Packet := wpkt 1 0 1 1 (List.replicate 220 0); let peer : Nat := 1;
    let id : ChunkId := wChunkId q peer; let r : RxChunk := { id := id }; let r1 : RxChunk := { r with pieces := [(0, q.payload)] };
    let n : Nat := 400; let total : Nat := 2; let s : State := wdie 0 { bind := { wbind with size := 400 }, state := 4, rxRes := 16 } [q];
    let x : Die := (((s.die d).takeRx 4 [1]).getD ({}, {})).2; (s.die d).takeRx 4 [1] = some (q, x) ∧ x.bucketOf q = some b ∧
    (s.team d b).find q.srcRank q.srcDie = some peer ∧ id = wChunkId q peer ∧ (s.inst d b).live = true ∧
    id.chunk < (s.inst d b).bind.chunks ∧
    (((s.team d b).sumsIn id.chunk).contains id || ((s.team d b).outIn id.chunk).toList.contains id) = true ∧
    n = (s.inst d b).bind.bytesOf id.phase id.chunk ∧ total = (n + 8 + 219) / 220 ∧ wIndex q < total ∧
    r = ((s.inst d b).rx.find? (fun r => r.id = id)).getD { id := id } ∧ r.verified = false ∧ wAttempt q = r.attempt ∧
    (r.pieces.find (wIndex q)).isSome = false ∧ r1 = { r with pieces := r.pieces.put (wIndex q) q.payload } ∧
    ((s.inst d b).rx.find? (fun r => r.id = id) = none → (s.inst d b).rxUsed + (s.inst d b).bind.buffers id.phase id.chunk ≤ (s.inst d b).rxRes) ∧
    r1.pieces.length < total) ∧
  (let d : Nat := 0; let b : Nat := 5; let q : Packet := wpkt 1 0 1 1 ([0, 0, 0, 0] ++ chunkTag 7 0 0 [0, 0, 0, 0]); let peer : Nat := 1;
    let id : ChunkId := wChunkId q peer; let r : RxChunk := { id := id }; let r1 : RxChunk := { r with pieces := [(0, q.payload)] };
    let n : Nat := 4; let total : Nat := 1; let all : Bytes := (r1.pieces.map Prod.snd).flatten;
    let s : State := wdie 0 { bind := { wbind with size := 4 }, state := 4, rxRes := 16 } [q];
    let x : Die := (((s.die d).takeRx 4 [1]).getD ({}, {})).2; (s.die d).takeRx 4 [1] = some (q, x) ∧ x.bucketOf q = some b ∧
    (s.team d b).find q.srcRank q.srcDie = some peer ∧ id = wChunkId q peer ∧ (s.inst d b).live = true ∧
    id.chunk < (s.inst d b).bind.chunks ∧
    (((s.team d b).sumsIn id.chunk).contains id || ((s.team d b).outIn id.chunk).toList.contains id) = true ∧
    n = (s.inst d b).bind.bytesOf id.phase id.chunk ∧ total = (n + 8 + 219) / 220 ∧ wIndex q < total ∧
    r = ((s.inst d b).rx.find? (fun r => r.id = id)).getD { id := id } ∧ r.verified = false ∧ wAttempt q = r.attempt ∧
    (r.pieces.find (wIndex q)).isSome = false ∧ r1 = { r with pieces := r.pieces.put (wIndex q) q.payload } ∧
    ((s.inst d b).rx.find? (fun r => r.id = id) = none → (s.inst d b).rxUsed + (s.inst d b).bind.buffers id.phase id.chunk ≤ (s.inst d b).rxRes) ∧
    total ≤ r1.pieces.length ∧ all = (r1.pieces.map Prod.snd).flatten ∧ all.length = n + 8 ∧
    (all.drop n == chunkTag (s.inst d b).bind.planId (s.inst d b).number id.chunk (all.take n)) = true) ∧
  (let d : Nat := 0; let b : Nat := 5; let q : Packet := wpkt 1 0 1 1 (List.replicate 12 1); let peer : Nat := 1;
    let id : ChunkId := wChunkId q peer; let r : RxChunk := { id := id }; let r1 : RxChunk := { r with pieces := [(0, q.payload)] };
    let n : Nat := 4; let total : Nat := 1; let all : Bytes := (r1.pieces.map Prod.snd).flatten;
    let s : State := wdie 0 { bind := { wbind with size := 4 }, state := 4, rxRes := 16 } [q];
    let x : Die := (((s.die d).takeRx 4 [1]).getD ({}, {})).2; (s.die d).takeRx 4 [1] = some (q, x) ∧ x.bucketOf q = some b ∧
    (s.team d b).find q.srcRank q.srcDie = some peer ∧ id = wChunkId q peer ∧ (s.inst d b).live = true ∧
    id.chunk < (s.inst d b).bind.chunks ∧
    (((s.team d b).sumsIn id.chunk).contains id || ((s.team d b).outIn id.chunk).toList.contains id) = true ∧
    n = (s.inst d b).bind.bytesOf id.phase id.chunk ∧ total = (n + 8 + 219) / 220 ∧ wIndex q < total ∧
    r = ((s.inst d b).rx.find? (fun r => r.id = id)).getD { id := id } ∧ r.verified = false ∧ wAttempt q = r.attempt ∧
    (r.pieces.find (wIndex q)).isSome = false ∧ r1 = { r with pieces := r.pieces.put (wIndex q) q.payload } ∧
    ((s.inst d b).rx.find? (fun r => r.id = id) = none → (s.inst d b).rxUsed + (s.inst d b).bind.buffers id.phase id.chunk ≤ (s.inst d b).rxRes) ∧
    total ≤ r1.pieces.length ∧ all = (r1.pieces.map Prod.snd).flatten ∧
    (all.drop n == chunkTag (s.inst d b).bind.planId (s.inst d b).number id.chunk (all.take n)) = false ∧ r.attempt < 2 ∧
    (s.die d).fab.rankOk ((s.team d b).at_ peer).1 = true) ∧
  (let d : Nat := 0; let b : Nat := 5; let key : Nat := 0; let r : RxChunk := { id := { stage := 1, peer := 1 }, attempt := 1 };
    let s : State := wdie 0 { bind := wbind, state := 4, rx := [r] }; (s.inst d b).rx[key]? = some r ∧ (s.inst d b).live = true ∧
    r.verified = false ∧ r.attempt < 2 ∧ (s.die d).fab.rankOk ((s.team d b).at_ r.id.peer).1 = true) ∧
  (let d : Nat := 0; let b : Nat := 5; let key : Nat := 0; let r : RxChunk := { id := { stage := 1, peer := 1 }, attempt := 2 };
    let s : State := wdie 0 { bind := wbind, state := 4, rx := [r] }; (s.inst d b).rx[key]? = some r ∧ (s.inst d b).live = true ∧
    (s.inst d b).state ≠ 7 ∧ r.verified = false ∧ 2 ≤ r.attempt) := by and_intros <;> decide +kernel

theorem wit_chunks_complete_1 :
  (let d : Nat := 0; let b : Nat := 5; let id : ChunkId := { stage := 1 };
    let s : State := wdie 1 { bind := wbind, state := 4, credits := [(0, 4)], holdRes := 16, work := [(0, { acc := [1] })] };
    let v : State := (if id.phase = 1 then s.takeSource d b id.chunk else s); (s.inst d b).nextSend (s.team d b) = some id ∧
    (s.die d).fab.rankOk ((s.team d b).at_ id.peer).1 = true ∧ v = (if id.phase = 1 then s.takeSource d b id.chunk else s) ∧
    (v.inst d b).live = true) := ⟨by decide +kernel, by decide +kernel, rfl, by decide +kernel⟩

theorem wit_whisk_timers_complete :
  (let d : Nat := 0; let b : Nat := 5; let q : Packet := wpkt 10 0 3 0 []; let peer : Nat := 1;
    let s : State := wdie 0 { bind := wbind, ctlSent := [{ peer := 1 }] } [q]; let x : Die := (((s.die d).takeRx 4 [10]).getD ({}, {})).2;
    (s.die d).takeRx 4 [10] = some (q, x) ∧ x.bucketOf q = some b ∧ (s.team d b).find q.srcRank q.srcDie = some peer) ∧
  (let d : Nat := 0; let b : Nat := 5; let key : Nat := 0; let c : CtlSent := { peer := 1 };
    let s : State := wdie 0 { bind := wbind, ctlSent := [c] }; (s.inst d b).ctlSent[key]? = some c ∧
    (s.die d).fab.rankOk ((s.team d b).at_ c.peer).1 = true) ∧
  (let d : Nat := 0; let b : Nat := 5; let s : State := { wdie 0 { bind := wbind, state := 4, timerRuns := true } with turn := 64 };
    (s.inst d b).live = true ∧ (s.inst d b).state ≠ 7 ∧ (s.inst d b).timerRuns = true ∧
    turnCome (turnPlus (s.inst d b).timerFrom (s.inst d b).bind.timeout) s.turn = true) ∧
  (let d : Nat := 0; let b : Nat := 5; let t0 : Nat := 0;
    let i : Inst := { bind := wbind, state := 9, abortTurn := some t0, codes := [0x702, 0x701] };
    let s : State := { wdie 0 i with turn := 24 }; ((s.die d).whisk.insts.map Prod.fst).Pairwise (· < ·) ∧ b < 64 ∧
    (s.die d).whisk.insts.find b = some i ∧ i.bind.bucket = b ∧ (∀ e ∈ (s.die d).whisk.insts, e.2.bind.bucket = b → e.1 = b) ∧
    i.abortDue = true ∧ i.abortTurn = some t0 ∧ turnCome (turnPlus t0 24) s.turn = true) ∧
  (let d : Nat := 0; let b : Nat := 5; let k : Nat := 69;
    let i : Inst := { bind := wbind, state := 9, abortTurn := some 0, codes := [0x702] };
    let s : State := { oneDie { whisk := { insts := [(k, i)] } } with turn := 24 }; ((s.die d).whisk.insts.map Prod.fst).Pairwise (· < ·) ∧
    (s.die d).whisk.insts.find? (fun e => decide (64 ≤ e.1) && e.2.bind.bucket = b && e.2.abortDue && e.2.abortTurn.any (fun t0 => turnCome (turnPlus t0 24) s.turn)) = some (k, i)) := by and_intros <;> decide +kernel

theorem wit_leave_stays_within_budget :
  (let d : Nat := 0; let unit : Nat := 0; let key : Nat := 5; let cost : Nat := 20; let ticket : Nat := 2;
    let s : State := oneDie { whisk := { insts := [(5, { state := 3, ticket := 2 })] } };
    (s.die d).heavyAt unit s.turn = some (key, cost, ticket) ∧ (s.die d).leave.waiting unit key = false ∧
    (s.die d).leave.granted unit key = false) ∧
  (let d : Nat := 0; let unit : Nat := 1; let k : Kat := { trigger := 2 }; let s : State := { panel := { kats := [(0, k)] } };
    (s.die d).heavyAt unit s.turn = none ∧ s.panel.kats.find d = some k ∧ 1 ≤ unit ∧ unit ≤ 14 ∧
    (s.die d).leave.waiting unit katLeaveKey = false) ∧
  (let d : Nat := 0; let r : LvReq := { unit := 9, key := 3, cost := 12 }; let p : Nat × Nat := (0, 12);
    let s : State := oneDie { leave := { reqs := [r], ramp := 0 } };
    (s.die d).leave.firstGrant s.turn (s.die d).leave.reqs false = some (r, p)) ∧
  (let d : Nat := 0; let c : Nat := 0; let t : Nat := 0; let w : W64 := wd 6 1 1 [(15, 42), (420, 0)]; let s : State := one w;
    wTicket w = 0 ∧ wField w 45 42 ≠ 0 ∧ s.issues d c t w 6 1 = true ∧ bodyOk w (maskOf 45 42 + maskOf 8 0) = true ∧ wField w 8 0 ≤ 420) ∧
  (let d : Nat := 0; let c : Nat := 0; let t : Nat := 0; let w : W64 := wd 6 2 1 [(15, 42)]; let s : State := one w; wTicket w = 0 ∧
    wField w 45 42 ≠ 0 ∧ s.issues d c t w 6 2 = true ∧ bodyOk w (maskOf 45 42) = true) := by and_intros <;> decide +kernel

theorem wit_leave_stays_within_budget_1 :
  (({} : Leave).Ok) := by unfold Leave.Ok; decide +kernel

theorem wit_budgets_are_shared :
  (let s : State := { State.reset with turn := 10 }; 10 ≤ turnsSince s.panel.budgetTurn s.turn) := by decide +kernel

theorem wit_thermal_rows_complete :
  (let d : Nat := 0; let counts : List Nat := 2800 :: List.replicate 15 2500; d < 52 ∧ counts.length = 16) ∧
  (let d : Nat := 53; let counts : List Nat := List.replicate 4 2500; let s : State := oneDie {}; (d = 52 ∨ d = 53) ∧ counts.length = 4 ∧
    (s.panel.hearth (d - 52)).fail = false) ∧
  (let d : Nat := 0; let s : State := oneDie { thermal := { slope := true } }; (s.die d).thermal.sensors.any (fun e => e.2.rises) = false) ∧
  (let d : Nat := 0; let s : State := { dies := [(0, { thermal := { state := .throttle, tmax := 1700 } })], turn := 10 };
    (s.die d).thermal.state = .throttle ∧ 10 ≤ turnsSince (s.die d).thermal.throttleTurn s.turn) ∧
  (let d : Nat := 0; let s : State := { dies := [(0, { thermal := { hbmState := .throttle, hbmTemp := [(0, 900)] } })], turn := 10 };
    (s.die d).thermal.hbmState = .throttle ∧ 10 ≤ turnsSince (s.die d).thermal.hbmTurn s.turn) ∧
  (let d : Nat := 0; let s : State := oneDie { thermal := { state := .grace } }; (s.die d).thermal.state = .grace) ∧
  (let d : Nat := 0; let t0 : Int := 96; let t1 : Int := 20; let hot : Int := 96;
    let s : State := oneDie { power := { good := 0x3FFFFFFF } }; hot = max t0 t1 ∧ (s.die d).power.good.testBit 20 = true ∧
    (s.die d).power.good.testBit 21 = true) := by and_intros <;> decide +kernel

theorem wit_die_registers_write :
  (let d : Nat := 0; let v : Nat := 0x3F; let on : Nat := 0x20000004; let good : Nat := 0x20000000;
    let s : State := { dies := [(0, { power := { on := on, good := good } })], panel := { bring := { step := 13 }, hearths := [(0, { role := .primary }), (1, { role := .partner })] }, live := live0 };
    let m : Nat := (bits v 28 0 &&& (if s.mayPower d then s.domainsOf d else 0) ||| (if s.dieBusy d then on else 0));
    s.panel.busbar ≠ .lost ∧ s.reaches d = true ∧
    m = (bits v 28 0 &&& (if s.mayPower d then s.domainsOf d else 0) ||| (if s.dieBusy d then on else 0)) ∧ on = (s.die d).power.on ∧
    good = (s.die d).power.good ∧ good &&& on = good) ∧
  (let d : Nat := 0; let dom : Nat := 2; let s : State := oneDie { power := { on := 0x20000004 } }; dom < 30 ∧
    (s.die d).power.on.testBit dom = true ∧ (s.die d).power.good.testBit dom = false) ∧
  (let d : Nat := 0;
    let s : State := { dies := [(0, { thermal := { state := .grace } })], panel := { bring := { step := 13 }, hearths := [(0, { role := .primary }), (1, { role := .partner })] }, live := live0 };
    s.reaches d = true) ∧
  (let d : Nat := 0;
    let s : State := { dies := [(0, { fab := { selfValid := true, fenced := true } })], panel := { bring := { step := 13 }, hearths := [(0, { role := .primary }), (1, { role := .partner })] }, live := live0 };
    s.reaches d = true) ∧
  (let d : Nat := 0;
    let s : State := { dies := [(0, { power := { on := 0x20000000, good := 0x20000000 } })], panel := { bring := { step := 13 }, hearths := [(0, { role := .primary }), (1, { role := .partner })] }, live := live0 };
    s.reaches d = true ∧ (s.die d).power.good.testBit 29 = true) ∧
  (let d : Nat := 0; let off : Nat := 0x90000;
    let s : State := { dies := [(0, {  })], panel := { bring := { step := 13 }, hearths := [(0, { role := .primary }), (1, { role := .partner })] }, live := live0 };
    off ≠ 0x28 ∧ off ≠ 0xD0028 ∧ off / 0x10000 ≠ 0xE ∧ (s.die d).power.good.testBit (regDomain off) = false) ∧
  (let d : Nat := 0; let s : State := oneDie {}; s.reaches d = false) := by and_intros <;> decide +kernel

theorem wit_cold_reset_keeps_mram :
  (let mv : Nat := 47999; mv < 48000) ∧
  (let mv : Nat := 59001; 59000 < mv) ∧
  (let mv : Nat := 40000; let s : State := State.reset; s.panel.busbar ≠ .lost ∧ 40000 ≤ mv ∧ mv < 48000) ∧
  (let mv : Nat := 58001; let s : State := State.reset; s.panel.busbar ≠ .lost ∧ 58000 < mv) := by and_intros <;> decide +kernel

theorem wit_resets_and_bring_up_complete :
  (let s : State := { dies := [(0, { seed := 5, mem := { cells := [(7, 1)] } })], panel := { hearths := [(0, { fail := true }), (1, { fail := true })] } };
    (s.panel.hearths.getD 0 {}).fail = true ∧ (s.panel.hearths.getD 1 {}).fail = true) ∧
  (let s : State := { panel := { bring := { step := 0 }, hearths := [(0, { role := .primary }), (1, { role := .partner })] } };
    s.panel.bring.step = 0) ∧
  (let mv : Nat := 58000; let inlet : Int := 640; let flow : Nat := 1500; let s : State := State.reset; s.panel.bring.step = 1 ∧
    s.panel.busbar ≠ .lost ∧ 48000 ≤ mv ∧ mv ≤ 58000 ∧ 1500 ≤ flow ∧ inlet ≤ 640) ∧
  (let d : Nat := 0; let r : Restart := {}; let strap : Nat := 0; let power : Bool := true; let links : List (Nat × Nat) := [(0, 2)];
    let mem : Bool := true;
    let s : State := { live := [(0, { standsFor := 0 }), (1, { standsFor := 1 })], panel := { restarts := [(0, r)] } };
    let blamed : List Nat := linkBlame (links.filter (fun f => touches d f && s.linkTrains d f)); s.panel.restarts.find d = some r ∧
    r.waiting = true ∧ s.panel.out.contains d = false ∧ blamed = linkBlame (links.filter (fun f => touches d f && s.linkTrains d f)) ∧
    strap % 4 = strapsOf d ∧ power = true ∧ blamed = [] ∧ mem = true) ∧
  (let d : Nat := 0; let r : Restart := {}; let strap : Nat := 0; let power : Bool := true; let links : List (Nat × Nat) := [(0, 1)];
    let mem : Bool := true;
    let s : State := { live := [(0, { standsFor := 0 }), (1, { standsFor := 1 })], panel := { restarts := [(0, r)] } };
    let blamed : List Nat := linkBlame (links.filter (fun f => touches d f && s.linkTrains d f)); s.panel.restarts.find d = some r ∧
    r.waiting = true ∧ s.panel.out.contains d = false ∧ blamed = linkBlame (links.filter (fun f => touches d f && s.linkTrains d f)) ∧
    strap % 4 = strapsOf d ∧ (power = false ∨ d ∈ blamed ∨ mem = false)) ∧
  (let d : Nat := 0; let r : Restart := {}; let strap : Nat := 7; let links : List (Nat × Nat) := [(0, 2)];
    let s : State := { live := [(0, { standsFor := 0 }), (1, { standsFor := 1 })], panel := { restarts := [(0, r)] } };
    let blamed : List Nat := linkBlame (links.filter (fun f => touches d f && s.linkTrains d f)); s.panel.restarts.find d = some r ∧
    r.waiting = true ∧ s.panel.out.contains d = false ∧ blamed = linkBlame (links.filter (fun f => touches d f && s.linkTrains d f)) ∧
    strap % 4 ≠ strapsOf d) ∧
  (let d : Nat := 0; let r : Restart := {};
    let s : State := { live := [(0, { standsFor := 0 })], panel := { out := [0], restarts := [(0, r)] } };
    s.panel.restarts.find d = some r ∧ r.waiting = true ∧ s.panel.out.contains d = true) ∧
  (let port : Nat := 3; let s : State := { panel := { ports := [(3, { state := 1 })] } }; (s.port port).state = 1) ∧
  (let s : State := { panel := { bring := { step := 2 }, hearths := [(0, { role := .primary }), (1, { role := .partner })] } };
    s.panel.bring.step = 2) ∧
  (let s : State := { State.reset with panel := { State.reset.panel with bring := { step := 4 } } }; s.panel.bring.step = 4 ∧
    (s.panel.compatClass = 1 ∨ s.panel.compatClass = 2)) ∧
  (let s : State := { State.reset with panel := { State.reset.panel with bring := { step := 5 } } }; s.panel.bring.step = 5) ∧
  (let s : State := { State.reset with panel := { State.reset.panel with bring := { step := 6, cold := false } } };
    s.panel.bring.step = 6) ∧
  (let s : State := { State.reset with panel := { State.reset.panel with bring := { step := 7 } } }; s.panel.bring.step = 7) ∧
  (let s : State := { State.reset with panel := { State.reset.panel with bring := { step := 8 } } }; s.panel.bring.step = 8) ∧
  (let s : State := { State.reset with panel := { State.reset.panel with bring := { step := 9 } } }; s.panel.bring.step = 9) ∧
  (let s : State := { State.reset with panel := { State.reset.panel with bring := { step := 10 } } }; s.panel.bring.step = 10 ∧
    s.panel.kats.any (fun k => k.2.trigger = 0 && (s.panel.restarts.find k.1).isNone) = false) ∧
  (let s : State := { State.reset with panel := { State.reset.panel with bring := { step := 11 } } }; s.panel.bring.step = 11) ∧
  (let s : State := { State.reset with panel := { State.reset.panel with bring := { step := 12 } } }; s.panel.bring.step = 12 ∧
    (∀ e ∈ s.panel.journal, e.state ≠ .executing)) := by and_intros <;> decide +kernel

theorem wit_resets_and_bring_up_complete_1 :
  (let ok0 : Bool := true; let ok1 : Bool := true; let x0 : Nat × Bool := (0, false); let x1 : Nat × Bool := (0, false);
    let s : State := { panel := { bring := { step := 3 }, hearths := [(0, { tested := true, slots := [(0, { factory := true })] }), (1, { tested := true, slots := [(0, { factory := true })] })] } };
    s.panel.bring.step = 3 ∧ s.panel.bootOf 0 ok0 = some x0 ∧ s.panel.bootOf 1 ok1 = some x1 ∧
    ((s.panel.hearth 0).slots.getD x0.1 {}).version = ((s.panel.hearth 1).slots.getD x1.1 {}).version) := ⟨by decide +kernel, by decide +kernel, by decide +kernel, rfl⟩

theorem wit_turns_complete :
  (let s : State := { State.reset with panel := { State.reset.panel with bring := { step := 13 } } }; s.panel.bring.step ≠ 1 ∧
    s.panel.busbar ≠ .lost) ∧
  (let d : Nat := 0; let p : Nat := 0; let s : State := lit { state := .run }; (s.pair d p).lit = true ∧ s.darkens d p = false ∧
    (s.port (portOf d p)).gap = false ∧ s.beaconDone d p = false) ∧
  (let d : Nat := 0; let p : Nat := 0;
    let s : State := { lit { state := .run } with panel := { ports := [(0, { state := 2, contact := true, feed := some 0, gap := true })] } };
    (s.pair d p).lit = true ∧ s.darkens d p = false ∧ (s.port (portOf d p)).gap = true ∧ s.beaconDone d p = false) ∧
  (let s : State := { panel := { time := { state := 1, good := 16 } } }; s.panel.time.state = 1 ∧ 16 ≤ s.panel.time.good) ∧
  (let s : State := { panel := { time := { state := 2, silent := 4, role := 2, held := 3 } } }; s.panel.time.state = 2 ∧
    4 ≤ s.panel.time.silent ∧ (s.panel.time.role = 2 ∨ s.panel.time.role = 3)) ∧
  (let s : State := { panel := { time := { state := 3, holdover := 64 } } }; s.panel.time.state = 3 ∧ 64 ≤ s.panel.time.holdover ∧
    s.panel.time.holdNoticed = false) ∧
  (let s : State := { panel := { time := { outside := 65 } } }; 64 < s.panel.time.outside ∧ s.panel.time.misNoticed = false) := by and_intros <;> decide +kernel

theorem wit_hearths_fail_over :
  (let k : Nat := 0; k < 2) ∧
  (let k : Nat := 1;
    let s : State := { panel := { hearths := [(0, { role := .primary }), (1, { role := .partner })], bring := { step := 13 } } }; k < 2 ∧
    4 ≤ s.panel.bring.step ∧ (s.panel.hearth k).role = .partner) ∧
  (let k : Nat := 0;
    let s : State := { panel := { hearths := [(0, { role := .primary }), (1, { role := .partner })], bring := { step := 13 } } }; k < 2 ∧
    4 ≤ s.panel.bring.step ∧ (s.panel.hearth k).role = .primary) ∧
  (let k : Nat := 0;
    let s : State := { panel := { hearths := [(0, { role := .primary }), (1, { role := .partner })], bring := { step := 13 } } }; k < 2 ∧
    (s.panel.hearth k).fail = false ∧ 4 ≤ s.panel.bring.step ∧ (s.panel.hearth (1 - k)).role = .partner) ∧
  (let k : Nat := 1;
    let s : State := { panel := { hearths := [(0, { role := .primary }), (1, { role := .partner })], bring := { step := 13 } } }; k < 2 ∧
    (s.panel.hearth k).fail = false ∧ 4 ≤ s.panel.bring.step ∧ (s.panel.hearth k).role = .partner ∧
    (s.panel.hearth (1 - k)).role = .primary) ∧
  (let k : Nat := 1; let stale : Bool := true;
    let s : State := { panel := { hearths := [(0, { role := .primary }), (1, { role := .partner })], bring := { step := 13 }, takeover := some 1 } };
    k < 2 ∧ s.panel.takeover = some k ∧ (s.panel.hearth s.panel.bridgeOwner).fail = true ∨ stale = true) ∧
  (let k : Nat := 0; let s : State := { panel := { ports := [(8, { up := true })] } }; k < 2 ∧ (s.port 8).up = true) ∧
  (let k : Nat := 0;
    let s : State := { panel := { hearths := [(0, { role := .primary }), (1, { role := .partner })], bring := { step := 13 }, ports := [(8, { up := true })] } };
    k < 2 ∧ (s.port 8).up = true ∧ s.panel.serves = true) := by and_intros <;> decide +kernel

theorem wit_hearths_fail_over_1 :
  (let k : Nat := 1;
    let s : State := { panel := { hearths := [(0, { role := .primary }), (1, { role := .partner })], bring := { step := 13 }, takeover := some 1, bridgeOwner := 1 } };
    k < 2 ∧ s.panel.takeover = some k ∧ s.panel.bridgeOwner = k ∧ s.panel.bring.step ≠ 0 ∧
    (∀ r, (s.panel.hatch 0).record = some r → r.done = true) ∧ (∀ e ∈ s.panel.journal, e.state ≠ .executing)) := ⟨by decide, by decide +kernel, by decide +kernel, by decide +kernel, (fun _ h => nomatch h), by decide +kernel⟩

theorem wit_tests_and_records_complete :
  (let d : Nat := 0; let failed : Nat := 7; let k : Kat := { trigger := 1 };
    let s : State := { dies := [(0, {})], panel := { kats := [(0, k)] } }; s.panel.kats.find d = some k ∧ katPhases failed = 0) ∧
  (let d : Nat := 0; let failed : Nat := 128; let k : Kat := {}; let tmax : Int := 300; let duty : Nat := 16; let leave : Nat := 300;
    let s : State := { dies := [(0, {})], live := [(0, {})], panel := { kats := [(0, k)] } }; s.panel.kats.find d = some k ∧ k.trigger = 0 ∧
    katPhases failed ≠ 0 ∧ (s.panel.katKeys.getD d []).contains (katKey tmax duty leave) = false) ∧
  (let d : Nat := 0; let failed : Nat := 128; let k : Kat := {}; let tmax : Int := 300; let duty : Nat := 16; let leave : Nat := 300;
    let s : State := { dies := [(0, {})], live := [(0, {})], panel := { kats := [(0, k)], katKeys := [(0, [katKey 300 16 300])] } };
    s.panel.kats.find d = some k ∧ k.trigger ≤ 2 ∧ katPhases failed ≠ 0 ∧
    (s.panel.katKeys.getD d []).contains (katKey tmax duty leave) = true) ∧
  (let d : Nat := 0; let c : Nat := 1; let off : Nat := 0;
    let v : Sieve := { accs := [{ core := 1, tensor := 4 }, { core := 1, tensor := 2 }], records := List.replicate 63 [], ringBlocks := 2, nextBlock := 1 };
    let active : Bool := true;
    let closed : List Acc := (v.accs.filter (fun a => a.core = c && a.off = off)).foldl (fun l a => insertAcc a l) [];
    let s : State := { dies := [(0, { sieve := v, seqs := [(1, { menu := some 0, off := 1 })] })], menus := [{ state := .running }] };
    let all : List Bytes := v.records ++ closed.map (fun a => a.record (((s.die d).seq c).start + off) (s.die d).standsFor (((s.die d).seq c).menu.getD 0));
    v = (s.die d).sieve ∧ v.accs.any (fun a => a.core = c && a.off = off) = true ∧ off < ((s.die d).seq c).off ∧
    (s.die d).digesting c off = false ∧ active = (((s.die d).seq c).menu.bind s.menu).any Menu.active ∧
    closed = (v.accs.filter (fun a => a.core = c && a.off = off)).foldl (fun l a => insertAcc a l) [] ∧
    all = v.records ++ closed.map (fun a => a.record (((s.die d).seq c).start + off) (s.die d).standsFor (((s.die d).seq c).menu.getD 0))) ∧
  (let d : Nat := 0; let s : State := { dies := [(0, { obs := { wNow := 8 } })], turn := 16 }; (s.die d).obs.wNow ≠ 0 ∧
    s.turn % (s.die d).obs.wNow = 0 ∧ ((s.die d).obs.ports.getD 0 {}).windows = 0 ∨ ((s.die d).obs.ports.getD 0 {}).endTurn ≠ s.turn) ∧
  (let d : Nat := 0; let h : Nat := 0; let half : Half := { cfg := 0x3000000000000000, run := true };
    let s : State := { dies := [(0, { obs := { w1 := 8, half0 := half } })], turn := 16 }; h < 2 ∧
    half = (if h = 0 then (s.die d).obs.half0 else (s.die d).obs.half1) ∧ (s.die d).obs.w1 ≠ 0 ∧ s.turn % (s.die d).obs.w1 = 0 ∧
    half.source = 3 ∧ half.run = true ∧ half.next + 12 < 4096) ∧
  (let d : Nat := 0; let h : Nat := 0; let half : Half := { run := true, cfg := 0x802C000000000000 }; let k : Nat := 3;
    let s : State := { dies := [(0, { obs := { timers := [(3, { turn := 16, armed := true })], half0 := half } })], turn := 16 }; h < 2 ∧
    half = (if h = 0 then (s.die d).obs.half0 else (s.die d).obs.half1) ∧ ((s.die d).obs.timers.getD k {}).armed = true ∧
    ((s.die d).obs.timers.getD k {}).turn = s.turn ∧ half.cfg.testBit 63 = true) ∧
  (let d : Nat := 0; let h : Nat := 1; let half : Half := { cfg := 0x8800000000000000 };
    let m : Menu := { pkg := mpk [(0x158, 8, 0x180), (0x180, 4, 1), (0x184, 1, 0xFF), (0x185, 1, 6), (0x18C, 8, 1)], state := .running };
    let s : State := { dies := [(0, { obs := { half1 := half } })], live := [(0, { standsFor := 0 })], menus := [m] }; h < 2 ∧
    half = (if h = 0 then (s.die d).obs.half0 else (s.die d).obs.half1) ∧
    s.menus.find? (fun m => m.active && decide ((m.claimOf 0xFF 6 0).map Claim.value = some 1)) = some m ∧ d ∈ m.dies.filterMap s.siteOf ∧
    half.cfg.testBit 63 = true ∧ half.start = 2 ∧ half.frozen = false) ∧
  (let v : Sieve := { accs := [{ core := 1, tensor := 4 }], ringBlocks := 2 }; v.ringBlocks ≠ 0 ∧
    (v.records ++ v.accs.map (fun a => a.record 0 0 0)).length < 64) := by and_intros <;> decide +kernel

theorem wit_counter_words_complete :
  (let d : Nat := 0; let c : Nat := 0; let t : Nat := 0; let w : W64 := wd 7 1 1 []; let e : Nat := 0; let i : Nat := 1;
    let s : State := one w (fun x => { x with obs := { cnts := [(1, { event := 5, count := 7 })] } });
    let after : Die := ((s.takeWord d c t w).settle d).die d; wTicket w = 0 ∧ after = ((s.takeWord d c t w).settle d).die d ∧ i < 16 ∧
    ((s.die d).cnt e i).enable = false ∨ (((s.die d).cnt e i).edge = false ∧ countedEvent ((s.die d).cnt e i).event = true ∧
    ((s.die d).cnt e i).event ≠ evIssue)) ∧
  (let d : Nat := 0; let c : Nat := 0; let t : Nat := 0; let w : W64 := wd 7 1 1 [(1, 44), (0x17FFFE, 21)];
    let s : State := { one w with panel := { job := some { counterRead := true } } };
    let after : Die := ((s.takeWord d c t w).settle d).die d; wTicket w = 0 ∧ after = ((s.takeWord d c t w).settle d).die d ∧
    s.issues d c t w 7 1 = true ∧ bodyOk w (maskOf 45 44 + maskOf 41 21 + maskOf 15 0) = true ∧ wField w 45 44 = 1 ∧ wField w 15 0 = 0 ∧
    pantryBase + 64 * wField w 41 21 + 128 ≤ pantryEnd ∧ (s.panel.job.map Job.counterRead).getD false = true ∧
    (s.die d).mem.frozen (pantryBase + 64 * wField w 41 21) 128 = false) ∧
  (let d : Nat := 0; let c : Nat := 0; let t : Nat := 0; let w : W64 := wd 7 1 1 [(3, 0), (0x17FFFF, 21)]; let l : List Nat := [0, 1];
    let s : State := { one w (fun x => { x with obs := { cnts := [(1, { event := evIssue, enable := true, count := 7 }), (0, { count := 258 })] } }) with panel := { job := some { counterRead := true } } };
    let after : Die := ((s.takeWord d c t w).settle d).die d; wTicket w = 0 ∧ after = ((s.takeWord d c t w).settle d).die d ∧
    s.issues d c t w 7 1 = true ∧ bodyOk w (maskOf 45 44 + maskOf 41 21 + maskOf 15 0) = true ∧ wField w 45 44 = 0 ∧
    l = (List.range 16).filter (fun i => (wField w 15 0).testBit i) ∧ pantryBase + 64 * wField w 41 21 + 8 * l.length ≤ pantryEnd ∧
    (s.panel.job.map Job.counterRead).getD false = true ∧ (s.die d).mem.frozen (pantryBase + 64 * wField w 41 21) (8 * l.length) = false) ∧
  (let d : Nat := 0; let c : Nat := 0; let t : Nat := 0; let w : W64 := wd 7 2 1 [(0x8001, 0)]; let s : State := one w;
    let after : Die := ((s.takeWord d c t w).settle d).die d; wTicket w = 0 ∧ after = ((s.takeWord d c t w).settle d).die d ∧
    s.issues d c t w 7 2 = true ∧ bodyOk w (maskOf 45 44 + maskOf 15 0) = true ∧ wField w 45 44 ≠ 3) := by and_intros <;> decide +kernel

theorem wit_read_commands_answer_once :
  (let h : Nat := 0; let pl : Bytes := [1, 0]; let s : State := { panel := srv }; let v : Nat := (s.statusReg 1).getD 0;
    s.readable h 0x0001 = true ∧ pl.length = 2 ∧ s.statusReg (leAt pl 0 2) = some v) ∧
  (let h : Nat := 1; let s : State := { panel := srv }; s.readable h 0x0002 = true) ∧
  (let h : Nat := 15; let s : State := { panel := srv }; s.readable h 0x0003 = true) ∧
  (let h : Nat := 0; let pl : Bytes := pz 8 [(0, 1, 15)]; let s : State := { panel := srv }; s.readable h 0x0004 = true ∧ pl.length = 8 ∧
    byteAt pl 0 < 16 ∧ allZero (sliceAt pl 1 7) = true) ∧
  (let h : Nat := 0; let pl : Bytes := pz 40 [(0, 1, 5), (0x20, 1, 1)]; let s : State := { panel := srv }; s.readable h 0x0005 = true ∧
    pl.length = 40 ∧ byteAt pl 0x20 < 2 ∧ allZero (sliceAt pl 0x21 7) = true) ∧
  (let h : Nat := 0; let pl : Bytes := [1, 0, 6, 0]; let s : State := { panel := srv };
    let vs := (State.statusRegs ((List.range (pl.length / 2)).map (fun i => leAt pl (2 * i) 2)) s).1;
    let t := (State.statusRegs ((List.range (pl.length / 2)).map (fun i => leAt pl (2 * i) 2)) s).2.2; s.readable h 0x0001 = true ∧
    pl.length % 2 = 0 ∧ 2 ≤ pl.length ∧ pl.length ≤ 512 ∧
    State.statusRegs ((List.range (pl.length / 2)).map (fun i => leAt pl (2 * i) 2)) s = (vs, false, t)) ∧
  (let h : Nat := 15; let pl : Bytes := [8, 0]; let s : State := { panel := srv }; s.readable h 0x0001 = true ∧ pl.length = 2 ∧
    s.statusReg (leAt pl 0 2) = none) ∧
  (let h : Nat := 15; let pl : Bytes := [1, 0, 8, 0]; let s : State := { panel := srv };
    let vs : List Nat := (State.statusRegs ((List.range (pl.length / 2)).map (fun i => leAt pl (2 * i) 2)) s).1;
    let t : State := (State.statusRegs ((List.range (pl.length / 2)).map (fun i => leAt pl (2 * i) 2)) s).2.2; s.readable h 0x0001 = true ∧
    pl.length % 2 = 0 ∧ 2 ≤ pl.length ∧ pl.length ≤ 512 ∧
    State.statusRegs ((List.range (pl.length / 2)).map (fun i => leAt pl (2 * i) 2)) s = (vs, true, t)) ∧
  (let h : Nat := 15; let pl : Bytes := [7, 1, 0, 0, 0, 0, 0, 0] ++ leBytes 8 controlBase; let s : State := { panel := srv };
    s.readable h 0x0006 = true ∧ pl.length = 16 ∧ 1 ≤ byteAt pl 1 ∧ byteAt pl 1 ≤ 64 ∧ allZero (sliceAt pl 2 6) = true ∧
    leAt pl 8 8 % 8 = 0 ∧ controlBase ≤ leAt pl 8 8 ∧ leAt pl 8 8 + 8 * byteAt pl 1 ≤ 0x8000000000 ∧ s.vacant (byteAt pl 0) = true) := by and_intros <;> decide +kernel

theorem wit_read_commands_answer_once_1 :
  (let h : Nat := 15; let pl : Bytes := pz 16 [(1, 1, 1), (8, 8, 0x7FFFFFFFF8)]; let d : Nat := 0; let n : Nat := 1;
    let s : State := { panel := srv, live := live0, dies := [(0, { standsFor := 0 })] };
    let r := State.readRegs d n (leAt pl 8 8 - controlBase) s; s.readable h 0x0006 = true ∧ pl.length = 16 ∧ n = byteAt pl 1 ∧ 1 ≤ n ∧
    n ≤ 64 ∧ allZero (sliceAt pl 2 6) = true ∧ leAt pl 8 8 % 8 = 0 ∧ controlBase ≤ leAt pl 8 8 ∧ leAt pl 8 8 + 8 * n ≤ 0x8000000000 ∧
    s.siteOf (byteAt pl 0) = some d ∧ s.inService d = true ∧ r = State.readRegs d n (leAt pl 8 8 - controlBase) s) := by
  refine ⟨?_, ?_, ?_, ?_, ?_, ?_, ?_, ?_, ?_, ?_, ?_, rfl⟩ <;> decide +kernel

theorem wit_read_commands_answer_once_2 :
  (let h : Nat := 15; let pl : Bytes := [16, 0, 0, 0, 0, 0, 0, 0]; let i : Instr := .hatchStatus h pl; let op : Nat := 0x0004;
    let bad : Prop := pl.length ≠ 8 ∨ 16 ≤ byteAt pl 0 ∨ allZero (sliceAt pl 1 7) = false; let s : State := { panel := srv };
    (i, op, bad) ∈ [(Instr.statusGet h pl, 0x0001, pl.length % 2 ≠ 0 ∨ pl.length < 2 ∨ 512 < pl.length), (Instr.siteMapGet h pl, 0x0002, pl.length ≠ 0), (Instr.fabricGet h pl, 0x0003, pl.length ≠ 0), (Instr.hatchStatus h pl, 0x0004, pl.length ≠ 8 ∨ 16 ≤ byteAt pl 0 ∨ allZero (sliceAt pl 1 7) = false), (Instr.attestGet h pl, 0x0005, pl.length ≠ 40 ∨ 2 ≤ byteAt pl 0x20 ∨ allZero (sliceAt pl 0x21 7) = false), (Instr.dieRead h pl, 0x0006, pl.length ≠ 16 ∨ byteAt pl 1 = 0 ∨ 64 < byteAt pl 1 ∨ allZero (sliceAt pl 2 6) = false ∨ leAt pl 8 8 % 8 ≠ 0 ∨ leAt pl 8 8 < controlBase ∨ 0x8000000000 < leAt pl 8 8 + 8 * byteAt pl 1)] ∧
    bad ∧ s.readable h op = true) := by
  intros
  refine ⟨by repeat (first | exact List.Mem.head _ | apply List.Mem.tail), ?_, ?_⟩
  · show _ ∨ _
    decide +kernel
  · decide +kernel

theorem wit_acceptance_is_exactly_once :
  (let h : Nat := 1; let e : Entry := { hatch := 1, seq := 1 };
    let s : State := { panel := { srv with journal := [{ hatch := 1, seq := 2 }, e] } }; s.works = true ∧ s.panel.nextEntry h = some e ∧
    (∀ o ∈ s.panel.journal, o.hatch = h → o.state ≠ .executing)) := by decide +kernel

theorem wit_acceptance_is_exactly_once_1 :
  (let dg : Bytes := dgm [(5, 1, 1), (6, 1, 15), (8, 6, 1), (0x0E, 2, 0x0107)] (pz 8); let g : GwHeader := GwHeader.parse dg;
    let c : OpClass := .oper; let s : State := { panel := srv }; let p : Panel := s.panel.retire g.hatch g.arg;
    let dist : Int := signed 48 ((g.seq + 2 ^ 48 - (s.panel.hatch g.hatch).nextSeq) % 2 ^ 48); GwHeader.parse dg = g ∧ s.listens = true ∧
    s.panel.authentic dg = true ∧ g.typ = 1 ∧ g.ok (dg.length - 64) = true ∧ opClass g.opcode = some c ∧ (c = .oper ∨ c = .job) ∧
    s.mayRun g.hatch g.opcode c = true ∧ g.read = false ∧ s.panel.powerDown = false ∧ s.panel.romMode = false ∧ s.isSole = false ∧
    p = s.panel.retire g.hatch g.arg ∧ s.panel.hearthAdmits g.hatch ((dg.length + 63) / 64) = true ∧
    dist = signed 48 ((g.seq + 2 ^ 48 - (s.panel.hatch g.hatch).nextSeq) % 2 ^ 48) ∧ g.seq = (s.panel.hatch g.hatch).nextSeq ∧
    g.seq < 2 ^ 48 ∧ p.journal.length < 65536 ∧ (128 < (dg.drop 64).length → p.pagesUsed < 8192) ∧
    (s.panel.hatch g.hatch).held.any (fun k => k.1 = (g.seq + 1) % 2 ^ 48) = false) := by
  refine ⟨rfl, ?_, withTag_authentic _ _ _ (by decide +kernel) (by decide +kernel), ?_, by
    show GwHeader.ok _ _ = true
    rw [dgm, withTag_length _ _ (by decide +kernel)]; decide +kernel, ?_, ?_, ?_, ?_, ?_, ?_, ?_, rfl, by
    show Panel.hearthAdmits _ _ _ = true
    rw [dgm, withTag_length _ _ (by decide +kernel)]; decide +kernel, rfl, ?_, ?_, ?_, ?_, ?_⟩ <;> decide +kernel

theorem wit_acceptance_is_exactly_once_2 :
  (let dg : Bytes := dgm [(5, 1, 1), (6, 1, 1), (8, 6, 1), (0x0E, 2, 0x0208)] (pz 8); let g : GwHeader := GwHeader.parse dg;
    let c : OpClass := .job;
    let s : State := { panel := { srv with journal := [{ hatch := 1, seq := 1, opcode := 0x0208, payload := pz 8, digest := Sm3.digest (pz 8) }], hatches := [(1, { key := some 0, nextSeq := 2 })] } };
    let p : Panel := s.panel.retire g.hatch g.arg;
    let dist : Int := signed 48 ((g.seq + 2 ^ 48 - (s.panel.hatch g.hatch).nextSeq) % 2 ^ 48); GwHeader.parse dg = g ∧ s.listens = true ∧
    s.panel.authentic dg = true ∧ g.typ = 1 ∧ g.ok (dg.length - 64) = true ∧ opClass g.opcode = some c ∧ (c = .oper ∨ c = .job) ∧
    s.mayRun g.hatch g.opcode c = true ∧ g.read = false ∧ s.panel.powerDown = false ∧ s.panel.romMode = false ∧ s.isSole = false ∧
    p = s.panel.retire g.hatch g.arg ∧ s.panel.hearthAdmits g.hatch ((dg.length + 63) / 64) = true ∧
    dist = signed 48 ((g.seq + 2 ^ 48 - (s.panel.hatch g.hatch).nextSeq) % 2 ^ 48) ∧ dist < 0) := by
  refine ⟨rfl, ?_, withTag_authentic _ _ _ (by decide +kernel) (by decide +kernel), ?_, by
    show GwHeader.ok _ _ = true
    rw [dgm, withTag_length _ _ (by decide +kernel)]; decide +kernel, ?_, ?_, ?_, ?_, ?_, ?_, ?_, rfl, by
    show Panel.hearthAdmits _ _ _ = true
    rw [dgm, withTag_length _ _ (by decide +kernel)]; decide +kernel, rfl, ?_⟩ <;> decide +kernel

theorem wit_acceptance_is_exactly_once_3 :
  (let dg : Bytes := dgm [(5, 1, 1), (6, 1, 1), (8, 6, 65), (0x0E, 2, 0x0208)] (pz 8); let g : GwHeader := GwHeader.parse dg;
    let c : OpClass := .job; let s : State := { panel := srv }; let p : Panel := s.panel.retire g.hatch g.arg;
    let dist : Int := signed 48 ((g.seq + 2 ^ 48 - (s.panel.hatch g.hatch).nextSeq) % 2 ^ 48); GwHeader.parse dg = g ∧ s.listens = true ∧
    s.panel.authentic dg = true ∧ g.typ = 1 ∧ g.ok (dg.length - 64) = true ∧ opClass g.opcode = some c ∧ (c = .oper ∨ c = .job) ∧
    s.mayRun g.hatch g.opcode c = true ∧ g.read = false ∧ s.panel.powerDown = false ∧ s.panel.romMode = false ∧ s.isSole = false ∧
    p = s.panel.retire g.hatch g.arg ∧ s.panel.hearthAdmits g.hatch ((dg.length + 63) / 64) = true ∧
    dist = signed 48 ((g.seq + 2 ^ 48 - (s.panel.hatch g.hatch).nextSeq) % 2 ^ 48) ∧ 64 ≤ dist) := by
  refine ⟨rfl, ?_, withTag_authentic _ _ _ (by decide +kernel) (by decide +kernel), ?_, by
    show GwHeader.ok _ _ = true
    rw [dgm, withTag_length _ _ (by decide +kernel)]; decide +kernel, ?_, ?_, ?_, ?_, ?_, ?_, ?_, rfl, by
    show Panel.hearthAdmits _ _ _ = true
    rw [dgm, withTag_length _ _ (by decide +kernel)]; decide +kernel, rfl, ?_⟩ <;> decide +kernel

theorem wit_acceptance_is_exactly_once_4 :
  (let dg : Bytes := dgm [(5, 1, 1), (6, 1, 1), (8, 6, 2), (0x0E, 2, 0x0208)] (pz 8); let g : GwHeader := GwHeader.parse dg;
    let c : OpClass := .job; let s : State := { panel := srv }; let p : Panel := s.panel.retire g.hatch g.arg;
    let dist : Int := signed 48 ((g.seq + 2 ^ 48 - (s.panel.hatch g.hatch).nextSeq) % 2 ^ 48); GwHeader.parse dg = g ∧ s.listens = true ∧
    s.panel.authentic dg = true ∧ g.typ = 1 ∧ g.ok (dg.length - 64) = true ∧ opClass g.opcode = some c ∧ (c = .oper ∨ c = .job) ∧
    s.mayRun g.hatch g.opcode c = true ∧ g.read = false ∧ s.panel.powerDown = false ∧ s.panel.romMode = false ∧ s.isSole = false ∧
    p = s.panel.retire g.hatch g.arg ∧ s.panel.hearthAdmits g.hatch ((dg.length + 63) / 64) = true ∧
    dist = signed 48 ((g.seq + 2 ^ 48 - (s.panel.hatch g.hatch).nextSeq) % 2 ^ 48) ∧ 0 < dist ∧ dist < 64) := by
  refine ⟨rfl, ?_, withTag_authentic _ _ _ (by decide +kernel) (by decide +kernel), ?_, by
    show GwHeader.ok _ _ = true
    rw [dgm, withTag_length _ _ (by decide +kernel)]; decide +kernel, ?_, ?_, ?_, ?_, ?_, ?_, ?_, rfl, by
    show Panel.hearthAdmits _ _ _ = true
    rw [dgm, withTag_length _ _ (by decide +kernel)]; decide +kernel, rfl, ?_, ?_⟩ <;> decide +kernel

theorem wit_acceptance_is_exactly_once_5 :
  (let dg : Bytes := dgm [(5, 1, 1), (6, 1, 1), (8, 6, 1), (0x0E, 2, 0x0208)] (pz 136); let g : GwHeader := GwHeader.parse dg;
    let c : OpClass := .job; let s : State := { panel := { srv with bulks := [{ data := List.replicate 8192 (0, []) }] } };
    let p : Panel := s.panel.retire g.hatch g.arg;
    let dist : Int := signed 48 ((g.seq + 2 ^ 48 - (s.panel.hatch g.hatch).nextSeq) % 2 ^ 48); GwHeader.parse dg = g ∧ s.listens = true ∧
    s.panel.authentic dg = true ∧ g.typ = 1 ∧ g.ok (dg.length - 64) = true ∧ opClass g.opcode = some c ∧ (c = .oper ∨ c = .job) ∧
    s.mayRun g.hatch g.opcode c = true ∧ g.read = false ∧ s.panel.powerDown = false ∧ s.panel.romMode = false ∧ s.isSole = false ∧
    p = s.panel.retire g.hatch g.arg ∧ s.panel.hearthAdmits g.hatch ((dg.length + 63) / 64) = true ∧
    dist = signed 48 ((g.seq + 2 ^ 48 - (s.panel.hatch g.hatch).nextSeq) % 2 ^ 48) ∧ g.seq = (s.panel.hatch g.hatch).nextSeq ∧
    g.seq < 2 ^ 48 ∧ (65536 ≤ p.journal.length ∨ (128 < (dg.drop 64).length ∧ 8192 ≤ p.pagesUsed))) := by
  refine ⟨rfl, ?_, withTag_authentic _ _ _ (by decide +kernel) (by decide +kernel), ?_, by
    show GwHeader.ok _ _ = true
    rw [dgm, withTag_length _ _ (by decide +kernel)]; decide +kernel, ?_, ?_, ?_, ?_, ?_, ?_, ?_, rfl, by
    show Panel.hearthAdmits _ _ _ = true
    rw [dgm, withTag_length _ _ (by decide +kernel)]; decide +kernel, rfl, ?_, ?_, ?_⟩ <;> decide +kernel

theorem wit_acceptance_is_exactly_once_6 :
  (let dg : Bytes := dgm [(5, 1, 1), (6, 1, 1), (8, 6, 2), (0x0E, 2, 0x0208)] (List.replicate 4097 0);
    let g : GwHeader := GwHeader.parse dg; let s : State := { panel := srv }; GwHeader.parse dg = g ∧ s.panel.authentic dg = true ∧
    g.typ = 1 ∧ s.panel.hearthAdmits g.hatch ((dg.length + 63) / 64) = false) := by
  refine ⟨rfl, withTag_authentic _ _ _ (by decide +kernel) (by decide +kernel), ?_, by
    show Panel.hearthAdmits _ _ _ = false
    rw [dgm, withTag_length _ _ (by decide +kernel), List.length_replicate]; decide +kernel⟩
  decide +kernel

theorem wit_job_context_commands :
  (let h : Nat := 15; let e : Entry := ent 15 0x0100 (pz 528 [(0, 2, 0xFFF), (2, 2, 1), (8, 8, 77), (0x50, 8, 5)]);
    let s : State := { cmd 15 0x0100 (pz 528 [(0, 2, 0xFFF), (2, 2, 1), (8, 8, 77), (0x50, 8, 5)]) (fun p => { p with job := none }) with live := live0, dies := [(0, { standsFor := 0 })] };
    isJobHatch h = false ∧ s.runs h 0x0100 e ∧ e.payload.length = 528 ∧ leAt e.payload 0 2 < 2 ^ 12 ∧ leAt e.payload 2 2 < 2 ∧
    allZero (sliceAt e.payload 4 4) = true ∧ s.panel.job = none) ∧
  (let h : Nat := 15; let e : Entry := ent 15 0x0101 (pz 8 [(0, 2, 9)]);
    let s : State := { cmd 15 0x0101 (pz 8 [(0, 2, 9)]) (fun p => { p with job := some { tag := 9 }, fenced := true }) with live := live0, dies := [(0, { standsFor := 0 })] };
    isJobHatch h = false ∧ s.runs h 0x0101 e ∧ jobTagOk e.payload = true ∧ s.jobIs (leAt e.payload 0 2) = true) ∧
  (let h : Nat := 15; let e : Entry := ent 15 0x0102 (pz 8 [(0, 2, 9)]);
    let s : State := { cmd 15 0x0102 (pz 8 [(0, 2, 9)]) (fun p => { p with job := some { tag := 9 }, fenced := true }) with live := live0, dies := [(0, { standsFor := 0 })], menus := [{ state := .running }] };
    isJobHatch h = false ∧ s.runs h 0x0102 e ∧ jobTagOk e.payload = true ∧ s.jobIs (leAt e.payload 0 2) = true) ∧
  (let h : Nat := 15; let e : Entry := ent 15 0x0103 (pz 88 [(0, 4, 1), (8, 8, 1), (0x10, 2, 32767)]); let t : RankTable := {};
    let s : State := { cmd 15 0x0103 (pz 88 [(0, 4, 1), (8, 8, 1), (0x10, 2, 32767)]) (fun p => { p with fabric := { inForce := some {} } }) with live := live0, dies := [(0, { standsFor := 0 })] };
    isJobHatch h = false ∧ s.runs h 0x0103 e ∧ e.payload.length = 88 ∧ leAt e.payload 0 4 = 1 ∧ allZero (sliceAt e.payload 0x12 6) = true ∧
    s.panel.job.isSome = true ∧ s.panel.fabric.inForce = some t ∧ leAt e.payload 4 2 = t.job ∧ leAt e.payload 6 2 = t.rank ∧
    t.job < 2 ^ 12 ∧ t.rank < 2 ^ 14 ∧ leAt e.payload 8 8 = s.panel.serial ∧ (leAt e.payload 0x10 2 + 65536 - t.epoch) % 65536 ≤ 32767) := by and_intros <;> decide +kernel

theorem wit_setting_commands :
  (let h : Nat := 15; let e : Entry := ent 15 0x0104 ([]); let s : State := cmd 15 0x0104 ([]); s.runs h 0x0104 e ∧
    fabricOk e.payload = false) ∧
  (let h : Nat := 15; let e : Entry := ent 15 0x0105 (pz 16 [(4, 2, 1), (8, 6, 100)]);
    let s : State := cmd 15 0x0105 (pz 16 [(4, 2, 1), (8, 6, 100)]); s.runs h 0x0105 e ∧ e.payload.length = 16 ∧
    leAt e.payload 0 2 < 2 ^ 12 ∧ leAt e.payload 2 2 < 2 ^ 14 ∧ leAt e.payload 6 2 = 0 ∧ leAt e.payload 0x0E 2 = 0 ∧
    s.panel.fenced = false ∧ s.panel.bulk h e.seq = none ∧ (∀ b ∈ s.panel.bulks, b.running = true) ∧ s.panel.bulks.length < 8) ∧
  (let h : Nat := 15; let e : Entry := ent 15 0x0105 (pz 16 [(4, 2, 1), (8, 6, 100)]);
    let b : Bulk := { hatch := 15, seq := 1, kind := .ranks, pages := 8, held := List.range 8, data := [(0, [0, 0x80])] };
    let s : State := cmd 15 0x0105 (pz 16 [(4, 2, 1), (8, 6, 100)]) (fun p => { p with fabric := { coordValid := true, coord := 0 }, bulks := [b] });
    s.runs h 0x0105 e ∧ s.panel.entry h e.seq = some e ∧ e.payload.length = 16 ∧ leAt e.payload 0 2 < 2 ^ 12 ∧ leAt e.payload 2 2 < 2 ^ 14 ∧
    leAt e.payload 6 2 = 0 ∧ leAt e.payload 0x0E 2 = 0 ∧ s.panel.fenced = false ∧ s.panel.bulk h e.seq = some b ∧ b.held.length = 8) ∧
  (let h : Nat := 15; let e : Entry := ent 15 0x0107 (pz 8 [(0, 4, 12000)]); let s : State := cmd 15 0x0107 (pz 8 [(0, 4, 12000)]);
    s.runs h 0x0107 e ∧ e.payload.length = 8 ∧ allZero (sliceAt e.payload 4 4) = true) ∧
  (let h : Nat := 15; let e : Entry := ent 15 0x0108 (List.replicate 11 15); let s : State := cmd 15 0x0108 (List.replicate 11 15);
    s.runs h 0x0108 e ∧ e.payload.length = 11 ∧ (∀ b ∈ e.payload, b.toNat < 16)) ∧
  (let h : Nat := 15; let e : Entry := ent 15 0x010B (pz 20 [(0, 1, 1), (8, 4, 4)]);
    let s : State := cmd 15 0x010B (pz 20 [(0, 1, 1), (8, 4, 4)]); s.runs h 0x010B e ∧ e.payload.length = 16 + leAt e.payload 8 4 ∧
    byteAt e.payload 0 ≤ 1 ∧ allZero (sliceAt e.payload 1 3) = true ∧ 1 ≤ leAt e.payload 8 4 ∧ leAt e.payload 8 4 ≤ 4080 ∧
    allZero (sliceAt e.payload 0x0C 4) = true ∧ leAt e.payload 4 4 + leAt e.payload 8 4 ≤ 16777216 ∧
    (∀ k ∈ s.panel.running, (s.panel.hearth k).booted ≠ some (byteAt e.payload 0) ∧
    leAt e.payload 4 4 ≤ ((s.panel.hearth k).slot (byteAt e.payload 0)).fill)) ∧
  (let h : Nat := 15; let e : Entry := ent 15 0x010C (pz 8); let s : State := cmd 15 0x010C (pz 8); s.runs h 0x010C e ∧
    e.payload.length = 8 ∧ byteAt e.payload 0 ≤ 1 ∧ byteAt e.payload 1 ≤ s.panel.clMax ∧ allZero (sliceAt e.payload 2 6) = true ∧
    (∀ k ∈ s.panel.running, ((s.panel.hearth k).slot (byteAt e.payload 0)).activates s.panel = true)) ∧
  (let h : Nat := 15; let e : Entry := ent 15 0x010D (pz 528 [(0, 4, 1), (4, 4, 1), (8, 8, 1)]);
    let s : State := cmd 15 0x010D (pz 528 [(0, 4, 1), (4, 4, 1), (8, 8, 1)]); s.runs h 0x010D e ∧ e.payload.length = 528 ∧
    leAt e.payload 0 4 = 1 ∧ leAt e.payload 8 8 = s.panel.serial ∧ s.panel.keyEpoch < leAt e.payload 4 4) := by and_intros <;> decide +kernel

theorem wit_setting_commands_1 :
  (let h : Nat := 15;
    let e : Entry := ent 15 0x0104 (pz 40 [(0, 8, 7), (8, 8, 0x18005), (0x10, 8, 0x80), (0x18, 8, 3)] ++ List.replicate 1016 0);
    let s : State := { cmd 15 0x0104 (pz 40 [(0, 8, 7), (8, 8, 0x18005), (0x10, 8, 0x80), (0x18, 8, 3)] ++ List.replicate 1016 0) with live := live0, dies := [(0, { standsFor := 0 })] };
    s.runs h 0x0104 e ∧ fabricOk e.payload = true) := by
  refine ⟨?_, fabric_ok _ (by decide +kernel) (by decide +kernel)⟩ <;> decide +kernel

theorem wit_test_and_reset_commands :
  (let h : Nat := 15; let e : Entry := ent 15 0x010A (pz 8 [(0, 1, 1)]);
    let s : State := { cmd 15 0x010A (pz 8 [(0, 1, 1)]) with live := live0, dies := [(0, { standsFor := 0 })] }; s.runs h 0x010A e ∧
    e.payload.length = 8 ∧ allZero (sliceAt e.payload 2 6) = true ∧ byteAt e.payload 0 = 1 ∧ byteAt e.payload 1 < 52 ∧
    (s.site (byteAt e.payload 1)).state = .active ∧ s.panel.restarts.find (byteAt e.payload 1) = none ∧
    (s.die (byteAt e.payload 1)).power.shutdown = false) ∧
  (let h : Nat := 15; let e : Entry := ent 15 0x010A (pz 8 [(0, 1, 2), (1, 1, 7)]);
    let s : State := cmd 15 0x010A (pz 8 [(0, 1, 2), (1, 1, 7)]); s.runs h 0x010A e ∧ e.payload.length = 8 ∧
    allZero (sliceAt e.payload 2 6) = true ∧ byteAt e.payload 0 = 2 ∧ byteAt e.payload 1 < 8) ∧
  (let h : Nat := 15; let e : Entry := ent 15 0x010A (pz 8 [(0, 1, 3)]); let s : State := cmd 15 0x010A (pz 8 [(0, 1, 3)]);
    s.runs h 0x010A e ∧ e.payload.length = 8 ∧ allZero (sliceAt e.payload 2 6) = true ∧ byteAt e.payload 0 = 3 ∧ byteAt e.payload 1 = 0) ∧
  (let h : Nat := 15; let e : Entry := ent 15 0x010A (pz 8 [(0, 1, 1)]);
    let s : State := { cmd 15 0x010A (pz 8 [(0, 1, 1)]) with live := live0, dies := [(0, { standsFor := 0, power := { shutdown := true } })] };
    s.runs h 0x010A e ∧ e.payload.length = 8 ∧ allZero (sliceAt e.payload 2 6) = true ∧ byteAt e.payload 0 = 1 ∧ byteAt e.payload 1 < 52 ∧
    (s.site (byteAt e.payload 1)).state = .active ∧ s.panel.restarts.find (byteAt e.payload 1) = none ∧
    (s.die (byteAt e.payload 1)).power.shutdown = true) ∧
  (let h : Nat := 15; let e : Entry := ent 15 0x010A (pz 8 [(0, 1, 4)]); let s : State := cmd 15 0x010A (pz 8 [(0, 1, 4)]);
    s.runs h 0x010A e ∧ e.payload.length = 8 ∧ allZero (sliceAt e.payload 2 6) = true ∧
    (byteAt e.payload 0 = 0 ∨ 3 < byteAt e.payload 0 ∨ (byteAt e.payload 0 = 1 ∧ 52 ≤ byteAt e.payload 1) ∨ (byteAt e.payload 0 = 2 ∧
    8 ≤ byteAt e.payload 1) ∨ (byteAt e.payload 0 = 3 ∧ byteAt e.payload 1 ≠ 0))) := by and_intros <;> decide +kernel

theorem wit_test_and_reset_commands_1 :
  (let h : Nat := 15; let e : Entry := ent 15 0x0109 (pz 16 [(0, 8, 1), (8, 1, 16)]);
    let s : State := { cmd 15 0x0109 (pz 16 [(0, 8, 1), (8, 1, 16)]) with live := live0, dies := [(0, { standsFor := 0 })] };
    s.runs h 0x0109 e ∧ s.panel.katRun = none ∧ e.payload.length = 16 ∧ allZero (sliceAt e.payload 9 7) = true ∧ 1 ≤ byteAt e.payload 8 ∧
    byteAt e.payload 8 ≤ 16 ∧ leAt e.payload 0 8 ≠ 0 ∧ (∀ n, (leAt e.payload 0 8).testBit n = true → homeNumber n = true ∧
    s.vacant n = false) ∧ ((List.range 64).filter (fun n => (leAt e.payload 0 8).testBit n)).length * byteAt e.payload 8 ≤ 127 ∧
    (∀ m ∈ s.menus, m.active = true → ∀ n ∈ m.dies, (leAt e.payload 0 8).testBit n = false)) := by
  refine ⟨?_, rfl, ?_, ?_, ?_, ?_, ?_, fun n h => ?_, ?_, by simp [cmd]⟩
  case refine_7 =>
    have : leAt (ent 15 0x0109 (pz 16 [(0, 8, 1), (8, 1, 16)])).payload 0 8 = 1 := by decide +kernel
    rw [show leAt _ 0 8 = 1 from this] at h
    obtain rfl := Nat.testBit_one_eq_true_iff_self_eq_zero.mp h
    decide +kernel
  all_goals decide +kernel

theorem wit_menu_and_region_commands :
  (let h : Nat := 1; let e : Entry := ent 1 0x0202 (pz 32 [(0, 2, 1), (16, 8, regionOne.word0), (24, 8, regionOne.word1)]);
    let l : List (Nat × Nat × Nat) := [(0, regionOne.word0, regionOne.word1)];
    let t : Tab (Tab Region) := [(0, [(0, { regionOne with users := 1 })])];
    let s : State := { cmd 1 0x0202 (pz 32 [(0, 2, 1), (16, 8, regionOne.word0), (24, 8, regionOne.word1)]) with live := live0, dies := [(0, { standsFor := 0 })] };
    s.runs h 0x0202 e ∧ regionEntries e.payload = some l ∧ s.panel.job.isSome = true ∧ (∀ x ∈ l, s.vacant x.1 = false) ∧
    installRegions s.panel.regions l = .inl t) ∧
  (let h : Nat := 1; let e : Entry := ent 1 0x0203 (pz 32 [(0, 2, 1), (16, 8, regionOne.word0), (24, 8, regionOne.word1)]);
    let l : List (Nat × Nat × Nat) := [(0, regionOne.word0, regionOne.word1)];
    let t : Tab (Tab Region) := [(0, [(0, { regionOne with users := 1 })])];
    let s : State := { cmd 1 0x0203 (pz 32 [(0, 2, 1), (16, 8, regionOne.word0), (24, 8, regionOne.word1)]) (fun p => { p with regions := [(0, [(0, { regionOne with users := 2 })])] }) with live := live0, dies := [(0, { standsFor := 0 })] };
    s.runs h 0x0203 e ∧ regionEntries e.payload = some l ∧ s.panel.job.isSome = true ∧ (∀ x ∈ l, s.vacant x.1 = false) ∧
    deleteAll s.panel.regions l = some t) ∧
  (let h : Nat := 1; let e : Entry := ent 1 0x0204 (pz 24 [(8, 8, pantryBase), (0x10, 8, 64)]); let d : Nat := 0;
    let bs : Bytes := List.replicate 64 0;
    let s : State := { cmd 1 0x0204 (pz 24 [(8, 8, pantryBase), (0x10, 8, 64)]) with live := live0, dies := [(0, { standsFor := 0 })] };
    let s1 : State := (s.hearthRead 0 pantryBase 64).1; s.runs h 0x0204 e ∧ e.payload.length = 24 ∧ allZero (sliceAt e.payload 1 7) = true ∧
    s.panel.job.isSome = true ∧ s.panel.fenced = false ∧ s.siteOf (byteAt e.payload 0) = some d ∧ s.inService d = true ∧
    (s.die d).spanOk (leAt e.payload 8 8) (leAt e.payload 0x10 8) = true ∧
    s.hearthRead d (leAt e.payload 8 8) (leAt e.payload 0x10 8) = (s1, .inl bs)) ∧
  (let h : Nat := 1; let e : Entry := ent 1 0x0205 (pz 8); let m : Menu := {}; let s : State := { cmd 1 0x0205 (pz 8) with menus := [{}] };
    s.runs h 0x0205 e ∧ e.payload.length = 8 ∧ s.panel.job.isSome = true ∧ s.menu (leAt e.payload 0 8) = some m ∧ m.active = false) ∧
  (let h : Nat := 1; let e : Entry := ent 1 0x0206 (pz 20 [(8, 6, 100), (0x10, 4, 1)]);
    let s : State := { cmd 1 0x0206 (pz 20 [(8, 6, 100), (0x10, 4, 1)]) with live := live0, dies := [(0, { standsFor := 0 })], menus := [{ pkg := mpk [] }] };
    s.runs h 0x0206 e ∧ s.launchCode e.payload = 0) ∧
  (let h : Nat := 1; let e : Entry := ent 1 0x0206 (pz 20 [(8, 6, 100)]); let s : State := cmd 1 0x0206 (pz 20 [(8, 6, 100)]);
    s.runs h 0x0206 e ∧ s.launchCode e.payload ≠ 0) ∧
  (let h : Nat := 1; let e : Entry := ent 1 0x0207 (pz 2112 [(4, 1, 0x8A), (2, 1, 1), (0x10, 4, 0x3F800000), (0x18, 8, 1), (0x40, 1, 3)]);
    let s : State := cmd 1 0x0207 (pz 2112 [(4, 1, 0x8A), (2, 1, 1), (0x10, 4, 0x3F800000), (0x18, 8, 1), (0x40, 1, 3)]);
    s.runs h 0x0207 e ∧ e.payload.length = 2112 ∧ s.panel.job.isSome = true ∧ planOk e.payload = true ∧ s.panel.plans.length < 256 ∧
    s.planBound (leAt e.payload 0 2) = false) ∧
  (let h : Nat := 1; let e : Entry := ent 1 0x0208 (pz 8 [(0, 2, 255)]); let s : State := cmd 1 0x0208 (pz 8 [(0, 2, 255)]);
    s.runs h 0x0208 e ∧ e.payload.length = 8 ∧ leAt e.payload 0 2 ≤ 255 ∧ allZero (sliceAt e.payload 2 6) = true ∧
    s.panel.job.isSome = true ∧ s.planBound (leAt e.payload 0 2) = false) ∧
  (let h : Nat := 1; let e : Entry := ent 1 0x0209 (pz 8 [(2, 2, 35)]); let d : Nat := 0;
    let s : State := { cmd 1 0x0209 (pz 8 [(2, 2, 35)]) with live := live0, dies := [(0, { standsFor := 0 })] }; s.runs h 0x0209 e ∧
    e.payload.length = 8 ∧ byteAt e.payload 1 = 0 ∧ menuQueue (leAt e.payload 2 2) = true ∧ allZero (sliceAt e.payload 4 4) = true ∧
    s.panel.job.isSome = true ∧ s.siteOf (byteAt e.payload 0) = some d ∧ s.inService d = true) := by and_intros <;> decide +kernel

theorem wit_transfers_complete :
  (let h : Nat := 1; let e : Entry := ent 1 0x0200 (pz 24 [(8, 8, pantryBase), (0x10, 8, 1)]);
    let s : State := { cmd 1 0x0200 (pz 24 [(8, 8, pantryBase), (0x10, 8, 1)]) with live := live0, dies := [(0, { standsFor := 0 })] };
    s.runs h 0x0200 e ∧ s.panel.bulk h e.seq = none ∧ s.bulkCode true e.payload = 0 ∧ (∀ b ∈ s.panel.bulks, b.running = true) ∧
    s.panel.bulks.length < 8) ∧
  (let h : Nat := 1; let e : Entry := ent 1 0x0201 (pz 24 [(8, 8, pantryBase), (0x10, 8, 2)]);
    let s : State := { cmd 1 0x0201 (pz 24 [(8, 8, pantryBase), (0x10, 8, 2)]) with live := live0, dies := [(0, { standsFor := 0 })] };
    s.runs h 0x0201 e ∧ s.panel.bulk h e.seq = none ∧ s.bulkCode false e.payload = 0 ∧ (∀ b ∈ s.panel.bulks, b.running = true) ∧
    s.panel.bulks.length < 8) ∧
  (let h : Nat := 1; let e : Entry := ent 1 0x0200 (pz 24 [(0x10, 8, 0)]); let i : Instr := .bulkPut h; let op : Nat := 0x0200;
    let put : Bool := true; let s : State := { cmd 1 0x0200 (pz 24 [(0x10, 8, 0)]) with live := live0, dies := [(0, { standsFor := 0 })] };
    (i, op, put) ∈ [(Instr.bulkPut h, 0x0200, true), (Instr.bulkGet h, 0x0201, false)] ∧ s.runs h op e ∧ s.panel.bulk h e.seq = none ∧
    s.bulkCode put e.payload ≠ 0) ∧
  (let h : Nat := 1; let b : Bulk := { hatch := 1, seq := 1, kind := .put, addr := pantryBase, pages := 2, running := true };
    let s : State := cmd 1 0x0200 (pz 24 [(0x10, 8, 2)]) (fun p => { p with bulks := [b] }); s.works = true ∧ b ∈ s.panel.bulks ∧
    b.hatch = h ∧ b.running = true ∧ b.kind ≠ .get) ∧
  (let h : Nat := 1; let b : Bulk := { hatch := 1, seq := 1, kind := .put, addr := pantryBase, pages := 2, running := true };
    let s : State := cmd 1 0x0200 (pz 24 [(0x10, 8, 2)]) (fun p => { p with bulks := [b] }); s.works = true ∧
    s.panel.bulks.find? (fun b => b.hatch = h && b.running) = some b ∧ (s.panel.entry h b.seq).isSome = true) := by and_intros <;> decide +kernel

theorem wit_transfers_complete_1 :
  (let h : Nat := 1; let e : Entry := ent 1 0x0201 (pz 24 [(8, 8, pantryBase), (0x10, 8, 1)]); let d : Nat := 0;
    let bs : Bytes := Mem.readN [] pantryBase 4096;
    let s : State := { cmd 1 0x0201 (pz 24 [(8, 8, pantryBase), (0x10, 8, 1)]) with live := live0, dies := [(0, { standsFor := 0 })] };
    s.runs h 0x0201 e ∧ s.panel.bulk h e.seq = none ∧ s.bulkCode false e.payload = 0 ∧ (∀ b ∈ s.panel.bulks, b.running = true) ∧
    s.panel.bulks.length < 8 ∧ leAt e.payload 0x10 8 = 1 ∧ s.siteOf (byteAt e.payload 0) = some d ∧
    ((s.die d).mem.panScan (leAt e.payload 8 8) 4096).2 = false ∧ (s.die d).mem.verifiedRead .hearth (leAt e.payload 8 8) 4096 = .bytes bs) := by
  refine ⟨?_, ?_, ?_, ?_, ?_, ?_, ?_, ?_, rfl⟩ <;> decide +kernel

theorem wit_transfers_complete_2 :
  (let dg : Bytes := dgm [(5, 1, 5), (6, 1, 1), (8, 6, 1), (0x10, 6, 1)] (List.replicate 4096 7); let g : GwHeader := GwHeader.parse dg;
    let b : Bulk := { hatch := 1, seq := 1, kind := .put, addr := pantryBase, pages := 2, running := true }; let d : Nat := 0;
    let a : Nat := (pantryBase + 4096);
    let s : State := { cmd 1 0x0200 (pz 24 [(0x10, 8, 2)]) (fun p => { p with bulks := [b] }) with live := live0, dies := [(0, { standsFor := 0 })] };
    GwHeader.parse dg = g ∧ s.listens = true ∧ s.panel.authentic dg = true ∧ g.typ = 5 ∧ g.ok (dg.length - 64) = true ∧
    s.panel.hearthAdmits g.hatch ((dg.length + 63) / 64) = true ∧ s.panel.bulk g.hatch g.seq = some b ∧ b.running = true ∧ b.kind = .put ∧
    g.arg < b.pages ∧ dg.length = 4160 ∧ s.panel.powerDown = false ∧ s.pagePlace b g.arg = some (d, a) ∧
    (s.die d).mem.frozen a 4096 = false) := by
  refine ⟨rfl, ?_, withTag_authentic _ _ _ (by decide +kernel) (by decide +kernel), ?_, by
    show GwHeader.ok _ _ = true
    rw [dgm, withTag_length _ _ (by decide +kernel), List.length_replicate]; decide +kernel, by
    show Panel.hearthAdmits _ _ _ = true
    rw [dgm, withTag_length _ _ (by decide +kernel), List.length_replicate]; decide +kernel, ?_, ?_, ?_, ?_, by
    show (dgm _ _).length = 4160
    rw [dgm, withTag_length _ _ (by decide +kernel), List.length_replicate], ?_, ?_, ?_⟩ <;> decide +kernel

theorem wit_transfers_complete_3 :
  (let dg : Bytes := ackDg; let g : GwHeader := GwHeader.parse dg;
    let b : Bulk := { hatch := 1, seq := 1, kind := .get, pages := 2, next := 2, running := true };
    let s : State := { cmd 1 0x0201 (pz 24 [(0x10, 8, 2)]) (fun p => { p with bulks := [b] }) with live := live0, dies := [(0, { standsFor := 0 })] };
    GwHeader.parse dg = g ∧ s.listens = true ∧ s.panel.authentic dg = true ∧ g.typ = 6 ∧ g.ok (dg.length - 64) = true ∧
    s.panel.hearthAdmits g.hatch ((dg.length + 63) / 64) = true ∧ s.panel.bulk g.hatch g.seq = some b ∧ b.running = true ∧ b.kind = .get ∧
    dg.length = 576 ∧ s.panel.powerDown = false ∧ (s.panel.entry g.hatch g.seq).isSome = true ∧
    ((((bitmapPages g.arg (dg.drop 64)).filter (fun k => decide (k < b.next))).foldl (fun l k => insertNat k l) b.held).length = b.pages)) := by
  refine ⟨rfl, ?_, withTag_authentic _ _ _ (by decide +kernel) (by decide +kernel), ?_, by
    show GwHeader.ok _ _ = true
    rw [ackDg, dgm, withTag_length _ _ (by decide +kernel)]; decide +kernel, by
    show Panel.hearthAdmits _ _ _ = true
    rw [ackDg, dgm, withTag_length _ _ (by decide +kernel)]; decide +kernel, ?_, ?_, ?_, by
    show ackDg.length = _
    rw [ackDg, dgm, withTag_length _ _ (by decide +kernel)]; decide +kernel, ?_, ?_, ack_held _ (by decide) rfl rfl⟩ <;> decide +kernel

theorem wit_replies_and_notices_repeat :
  (let e : Entry := { hatch := 1, seq := 1, opcode := 0x0208, state := .finished };
    let s : State := { panel := { srv with journal := [e] } }; s.listens = true ∧ s.panel.romMode = false ∧ e ∈ s.panel.journal ∧
    e.state = .finished ∧ (s.panel.hatch e.hatch).key.isSome = true) ∧
  (let s : State := { panel := { srv with hatches := [(3, { key := some 0, notices := [{ seq := 4 }] })] } }; s.listens = true) := by and_intros <;> decide +kernel

theorem wit_replies_and_notices_repeat_1 :
  (let dg : Bytes := dgm [(5, 1, 4), (6, 1, 1), (0x10, 6, 3)] []; let g : GwHeader := GwHeader.parse dg; let s : State := { panel := srv };
    s.listens = true ∧ GwHeader.parse dg = g ∧ s.panel.authentic dg = true ∧ g.typ = 4 ∧ g.ok (dg.length - 64) = true ∧
    s.panel.hearthAdmits g.hatch ((dg.length + 63) / 64) = true ∧ (s.panel.hatch g.hatch).dropped = 0) := by
  refine ⟨?_, rfl, withTag_authentic _ _ _ (by decide +kernel) (by decide +kernel), ?_, by
    show GwHeader.ok _ _ = true
    rw [dgm, withTag_length _ _ (by decide +kernel)]; decide +kernel, by
    show Panel.hearthAdmits _ _ _ = true
    rw [dgm, withTag_length _ _ (by decide +kernel)]; decide +kernel, ?_⟩ <;> decide +kernel

theorem wit_replies_and_notices_repeat_2 :
  (let dg : Bytes := dgm [(5, 1, 4), (6, 1, 1), (0x10, 6, 3)] []; let g : GwHeader := GwHeader.parse dg;
    let s : State := { panel := { srv with hatches := [(1, { key := some 0, noticeSeq := 9, dropped := 2, notices := [{ seq := 4 }] })] } };
    s.listens = true ∧ GwHeader.parse dg = g ∧ s.panel.authentic dg = true ∧ g.typ = 4 ∧ g.ok (dg.length - 64) = true ∧
    s.panel.hearthAdmits g.hatch ((dg.length + 63) / 64) = true ∧ (s.panel.hatch g.hatch).dropped ≠ 0 ∧
    g.arg < (s.panel.hatch g.hatch).noticeSeq ∧
    (s.panel.modHatch g.hatch (fun x => { x with notices := x.notices.filter (fun n => decide (g.arg < n.seq)) })).hearthAdmits (16 + g.hatch) 1 = true) := by
  refine ⟨?_, rfl, withTag_authentic _ _ _ (by decide +kernel) (by decide +kernel), ?_, by
    show GwHeader.ok _ _ = true
    rw [dgm, withTag_length _ _ (by decide +kernel)]; decide +kernel, by
    show Panel.hearthAdmits _ _ _ = true
    rw [dgm, withTag_length _ _ (by decide +kernel)]; decide +kernel, ?_, ?_, ?_⟩ <;> decide +kernel

theorem wit_lifeline_commands_act :
  (let n : Nat := 1; let s : State := { panel := srv }; s.listens = true ∧ (s.panel.hatch 0).key.isSome = true ∧
    (s.panel.hatch 0).nextSeq = n) ∧
  (let pl : Bytes := pz 8 [(1, 1, 15)]; let n : Nat := 1; let s : State := { panel := srv }; s.listens = true ∧
    (s.panel.hatch 0).key.isSome = true ∧ (s.panel.hatch 0).nextSeq = n ∧ pl.length = 8 ∧ byteAt pl 0 < 16 ∧ 1 ≤ byteAt pl 1 ∧
    byteAt pl 1 ≤ 15) ∧
  (let pl : Bytes := pz 8 [(0, 4, 0xFFFFFFFF)]; let n : Nat := 1; let s : State := { panel := srv }; s.listens = true ∧
    (s.panel.hatch 0).key.isSome = true ∧ (s.panel.hatch 0).nextSeq = n ∧ pl.length = 8 ∧ allZero (sliceAt pl 4 4) = true) ∧
  (let n : Nat := 1; let s : State := { panel := srv }; s.listens = true ∧ (s.panel.hatch 0).key.isSome = true ∧
    (s.panel.hatch 0).nextSeq = n) ∧
  (let pl : Bytes := pz 8 [(0, 1, 7)]; let n : Nat := 1; let s : State := { panel := srv }; s.listens = true ∧
    (s.panel.hatch 0).key.isSome = true ∧ (s.panel.hatch 0).nextSeq = n ∧ pl.length = 8 ∧ byteAt pl 0 ≤ 7 ∧
    allZero (sliceAt pl 1 7) = true) ∧
  (let pl : Bytes := pz 8; let n : Nat := 1;
    let s : State := { panel := srv, live := live0, dies := [(0, { power := { on := 0x20000004 } })] }; s.listens = true ∧
    (s.panel.hatch 0).key.isSome = true ∧ (s.panel.hatch 0).nextSeq = n ∧ pl.length = 8 ∧ byteAt pl 0 ≤ 51 ∧
    allZero (sliceAt pl 1 7) = true ∧ s.activeSite (byteAt pl 0) = true ∧ (s.die (byteAt pl 0)).power.on ≠ alwaysOn) ∧
  (let n : Nat := 1; let s : State := { panel := srv }; s.listens = true ∧ (s.panel.hatch 0).key.isSome = true ∧
    (s.panel.hatch 0).nextSeq = n) ∧
  (let n : Nat := 1; let s : State := { panel := srv }; s.listens = true ∧ (s.panel.hatch 0).key.isSome = true ∧
    (s.panel.hatch 0).nextSeq = n) ∧
  (let pl : Bytes := [0]; let n : Nat := 1; let i : Instr := .laserOff pl; let op : Nat := 0x0F03; let s : State := { panel := srv };
    s.listens = true ∧ (s.panel.hatch 0).key.isSome = true ∧ (s.panel.hatch 0).nextSeq = n ∧
    (i, op) ∈ [(Instr.lifelineStatus pl, 0x0F00), (Instr.laserOff pl, 0x0F03), (Instr.panelReset pl, 0x0F06), (Instr.powerDown pl, 0x0F07)] ∧
    pl ≠ []) ∧
  (let pl : Bytes := [0]; let n : Nat := 1; let i : Instr := .portOff pl; let op : Nat := 0x0F04; let s : State := { panel := srv };
    s.listens = true ∧ (s.panel.hatch 0).key.isSome = true ∧ (s.panel.hatch 0).nextSeq = n ∧
    (i, op) ∈ [(Instr.journalRead pl, 0x0F01), (Instr.logDump pl, 0x0F02), (Instr.portOff pl, 0x0F04), (Instr.diePowerOff pl, 0x0F05)] ∧
    pl.length ≠ 8) := by and_intros <;> decide +kernel

theorem wit_every_step_keeps_memory_form_1 :
  (let s : State := { State.reset with pending := [.flitSend 0 0] }; let t : State := (match step s with | .next t => t | _ => s); s.MemOk ∧
    step s = .next t) := ⟨fun d => memOk_reset d, rfl⟩

theorem wit_every_step_keeps_held_state_1 :
  (let s : State := { cmd 15 0x0107 (pz 8 [(0, 4, 12000)]) with pending := [.powerLimitSet 15] };
    let t : State := (match step s with | .next t => t | _ => s); step s = .next t ∧ s.panel.HeldOk) := ⟨rfl, by unfold Panel.HeldOk; decide +kernel⟩

theorem wit_encodings_round_trip :
  (let p : Packet := { trans := List.replicate 12 0, payload := List.replicate 220 1, dstRank := 2 ^ 14 - 1 }; p.dstRank < 2 ^ 14 ∧
    p.dstDie < 2 ^ 6 ∧ p.dstCoord < 2 ^ 14 ∧ p.srcRank < 2 ^ 14 ∧ p.srcDie < 2 ^ 6 ∧ p.cls < 4 ∧ p.phase < 8 ∧ p.epoch < 2 ^ 16 ∧
    p.job < 2 ^ 12 ∧ p.via < 2 ^ 7 ∧ p.ttl < 2 ^ 6 ∧ p.odd = transOdd p.trans p.payload ∧ p.trans.length = 12 ∧ p.payload.length ≤ 220) ∧
  (let l : LinkWord := { creditQ := 1023 }; l.creditQ < 2 ^ 10 ∧ l.creditN < 2 ^ 6 ∧ l.sharedN < 2 ^ 6) ∧
  (let f : IdleFrame := { beacon := List.replicate 10 0, fab := List.replicate 256 0 }; f.txNext < 2 ^ 16 ∧ f.ackSeq < 2 ^ 16 ∧
    f.nakSeq < 2 ^ 16 ∧ f.beacon.length = 10 ∧ f.pauseTurn < 2 ^ 48 ∧ f.pauseLen < 2 ^ 8 ∧ f.laneNext < 2 ^ 16 ∧ f.laneNow < 2 ^ 16 ∧
    f.laneTurn < 2 ^ 48 ∧ f.fab.length = 256) ∧
  (let r : Region := { base := 2 ^ 28 - 1, tensor := 9 }; r.base < 2 ^ 28 ∧ r.blocksM1 < 2 ^ 25 ∧ r.crcBase < 2 ^ 28 ∧ r.tensor < 2 ^ 32 ∧
    r.users = 0) := by and_intros <;> decide +kernel

theorem wit_stripe_sets_give_ports :
  (let row : Nat := 3; let col : Nat := 12; row < 4 ∧ col < 13) := by decide +kernel

theorem wit_site_map_put_keeps_rules_1 :
  (let h : Nat := 15; let e : Entry := ent 15 0x0106 ((List.range 52).flatMap (fun d => leBytes 2 (if d % 13 = 12 then 0x203F else d)));
    let w : Nat → Nat := fun d => leAt e.payload (2 * d) 2; let code : Nat → Nat := fun d => bits (w d) 15 13;
    let own : Nat → Nat := fun d => w d % 64;
    let s : State := { State.reset with panel := { srv with pendingMap := State.reset.panel.pendingMap, journal := [e] } };
    let old : Nat → SiteEntry := fun d => SiteMap.entry s.panel.pendingMap d; s.runs h 0x0106 e ∧ e.payload.length = 104 ∧
    (∀ d, w d = leAt e.payload (2 * d) 2) ∧ (∀ d, code d = bits (w d) 15 13) ∧ (∀ d, own d = w d % 64) ∧
    (∀ d, old d = SiteMap.entry s.panel.pendingMap d)) := ⟨by decide +kernel, by decide +kernel, fun _ => rfl, fun _ => rfl, fun _ => rfl, fun _ => rfl⟩

end Sys2Proof.Tests
end

section
/-! SUPPORT. Bits of a sum and of a difference, and how many are ones: what the masks of power domains (R371) are read with. -/
namespace Sys2Proof

/-- Two numbers with no bit in common are added without a carry. -/
theorem add_eq_or_of_and_eq_zero {a b : Nat} (h : a &&& b = 0) : a + b = a ||| b := by
  have hab : a + b < 2 ^ (a + b) := Nat.lt_two_pow_self
  have ha : a < 2 ^ (a + b) := by omega
  have hb : b < 2 ^ (a + b) := by omega
  have hand : BitVec.ofNat (a + b) a &&& BitVec.ofNat (a + b) b = 0#(a + b) := by
    rw [← BitVec.ofNat_and, h]
  have hsum := congrArg BitVec.toNat (BitVec.add_eq_or_of_and_eq_zero _ _ hand)
  rwa [← BitVec.ofNat_or, ← BitVec.ofNat_add, BitVec.toNat_ofNat, BitVec.toNat_ofNat, Nat.mod_eq_of_lt hab,
    Nat.mod_eq_of_lt (Nat.or_lt_two_pow ha hb)] at hsum

/-- Adding 2 ^ i to a number whose bit i is clear sets that bit and no other. -/
theorem testBit_add_two_pow {a i : Nat} (h : a.testBit i = false) (j : Nat) :
    (a + 2 ^ i).testBit j = (a.testBit j || decide (i = j)) := by
  have hand : a &&& 2 ^ i = 0 := Nat.eq_of_testBit_eq fun k => by
    rw [Nat.testBit_and, Nat.testBit_two_pow, Nat.zero_testBit]
    by_cases hk : i = k
    · rw [← hk, h, Bool.false_and]
    · rw [decide_eq_false hk, Bool.and_false]
  rw [add_eq_or_of_and_eq_zero hand, Nat.testBit_or, Nat.testBit_two_pow]

/-- Taking away a number whose bits are among those of the first clears them. -/
theorem testBit_sub_of_and_eq {a b : Nat} (h : b &&& a = b) (j : Nat) : (a - b).testBit j = (a.testBit j && ! b.testBit j) := by
  have hbit : ∀ k, (b.testBit k && a.testBit k) = b.testBit k := fun k => by rw [← Nat.testBit_and, h]
  have hand : (a ^^^ b) &&& b = 0 := by
    rw [Nat.and_xor_distrib_right, Nat.and_comm a b, h, Nat.and_self, Nat.xor_self]
  have hor : (a ^^^ b) ||| b = a := Nat.eq_of_testBit_eq fun k => by
    rw [Nat.testBit_or, Nat.testBit_xor, ← hbit k]
    cases a.testBit k <;> cases b.testBit k <;> rfl
  have hsum : (a ^^^ b) + b = a := (add_eq_or_of_and_eq_zero hand).trans hor
  rw [show a - b = a ^^^ b by omega, Nat.testBit_xor, ← hbit j]
  cases a.testBit j <;> cases b.testBit j <;> rfl

/-- A number has no more ones than one that has a one wherever it has. -/
theorem popCount_le_of_testBit {a b : Nat} (h : ∀ n, a.testBit n = true → b.testBit n = true) (k : Nat) :
    popCount a k ≤ popCount b k := by
  induction k with
  | zero => exact Nat.le_refl _
  | succ k ih =>
    simp only [popCount]
    cases hk : a.testBit k with
    | true => simpa [h k hk] using ih
    | false => simpa using Nat.le_add_right_of_le ih

/-- With one more bit set, a number has at most one more one. -/
theorem popCount_le_succ {a b i : Nat} (h : ∀ n, n ≠ i → b.testBit n = a.testBit n) (k : Nat) : popCount b k ≤ popCount a k + 1 := by
  suffices hs : popCount b k ≤ popCount a k + (if i < k then 1 else 0) by split at hs <;> omega
  induction k with
  | zero => exact Nat.le_refl _
  | succ k ih =>
    simp only [popCount]
    by_cases hk : k = i
    · subst hk
      rw [if_neg (Nat.lt_irrefl k)] at ih
      rw [if_pos (Nat.lt_succ_self k)]
      split <;> omega
    · rw [h k hk]
      have : (i < k + 1) = (i < k) := by simp; omega
      simp only [this]
      omega

end Sys2Proof
end

section
/-! SUPPORT. Laws of the power domains of a die (R369 to R371): what switching domains off and on does to the masks ON and GOOD. -/
namespace Sys2Proof.Machine

/-- Every domain at power-good is on. -/
def Power.Ok (p : Power) : Prop := p.good &&& p.on = p.good

/-- The domains that have been switched on and have not reached power-good (R371). -/
def Power.starting (p : Power) : Nat := p.on - p.good &&& p.on

/-- The domains outside a mask go off. -/
def Power.keepOnly (p : Power) (k : Nat) : Power := { p with on := p.on &&& k, good := p.good &&& k }

/-- One domain comes on if its bit is set, it is off, and fewer than four of the die are starting. -/
def Power.switchOne (m : Nat) (p : Power) (n : Nat) : Power :=
  if m.testBit n && ! p.on.testBit n && decide (popCount p.starting 30 < 4) then { p with on := p.on + 2 ^ n } else p

theorem Power.switchOn_eq (p : Power) (m : Nat) : p.switchOn m = (List.range 29).foldl (Power.switchOne m) p := rfl

theorem Power.Ok.on_of_good {p : Power} (h : p.Ok) {n : Nat} (hn : p.good.testBit n = true) : p.on.testBit n = true := by
  rw [Power.Ok] at h
  rw [← h, Nat.testBit_and, Bool.and_eq_true] at hn
  exact hn.2

theorem Power.ok_of_good_on {p : Power} (h : ∀ n, p.good.testBit n = true → p.on.testBit n = true) : p.Ok :=
  Nat.eq_of_testBit_eq fun n => by
    have := h n
    cases hg : p.good.testBit n <;> simp_all

theorem Power.Ok.testBit_starting {p : Power} (h : p.Ok) (n : Nat) :
    p.starting.testBit n = (p.on.testBit n && ! p.good.testBit n) := by
  rw [Power.starting, Nat.testBit_and, testBit_sub_of_and_eq h]
  cases p.on.testBit n <;> simp

theorem Power.keepOnly_ok {p : Power} (h : p.Ok) (k : Nat) : (p.keepOnly k).Ok := by
  refine Power.ok_of_good_on fun n hn => ?_
  simp only [Power.keepOnly, Nat.testBit_and, Bool.and_eq_true] at hn ⊢
  exact ⟨h.on_of_good hn.1, hn.2⟩

/-- Domains that go off start no others. -/
theorem Power.popCount_keepOnly_le {p : Power} (h : p.Ok) (k b : Nat) :
    popCount (p.keepOnly k).starting b ≤ popCount p.starting b := by
  refine popCount_le_of_testBit (fun n hn => ?_) b
  rw [(Power.keepOnly_ok h k).testBit_starting] at hn
  rw [h.testBit_starting]
  simp only [Power.keepOnly, Nat.testBit_and] at hn
  cases hk : k.testBit n <;> simp_all

/-- What has happened to the domains when those of the list `l` whose bit of `m` is set have been switched on, four at a time. -/
structure Power.SwitchedOn (m : Nat) (l : List Nat) (p q : Power) : Prop where
  ok : q.Ok
  good : q.good = p.good
  stands : ∀ n, p.on.testBit n = true → q.on.testBit n = true
  only : ∀ n, q.on.testBit n = true → p.on.testBit n = true ∨ (n ∈ l ∧ m.testBit n = true)
  all : ∀ n ∈ l, m.testBit n = true → q.on.testBit n = true ∨ 4 ≤ popCount q.starting 30
  few : popCount q.starting 30 ≤ max 4 (popCount p.starting 30)
  grows : popCount p.starting 30 ≤ popCount q.starting 30

/-- A domain that comes on starts: it is on, and not at power-good. -/
theorem Power.switchOne_switchedOn (m : Nat) {p : Power} (h : p.Ok) (n : Nat) : Power.SwitchedOn m [n] p (Power.switchOne m p n) := by
  unfold Power.switchOne
  split
  next hc =>
    simp only [Bool.and_eq_true, Bool.not_eq_true', decide_eq_true_eq] at hc
    obtain ⟨⟨hm, hoff⟩, hfew⟩ := hc
    have hon := testBit_add_two_pow hoff
    have hok : Power.Ok { p with on := p.on + 2 ^ n } := Power.ok_of_good_on fun k hk => by simp [hon, h.on_of_good hk]
    have hcount : popCount (Power.starting { p with on := p.on + 2 ^ n }) 30 ≤ popCount p.starting 30 + 1 := by
      refine popCount_le_succ (i := n) (fun k hk => ?_) 30
      simp [hok.testBit_starting, h.testBit_starting, hon, Ne.symm hk]
    refine ⟨hok, rfl, fun k hk => by simp [hon, hk], fun k hk => ?_, fun k hk _ => ?_, by omega, ?_⟩
    · rw [hon, Bool.or_eq_true, decide_eq_true_eq] at hk
      exact hk.imp_right fun e => by subst e; exact ⟨List.mem_singleton_self _, hm⟩
    · obtain rfl := List.mem_singleton.mp hk
      exact .inl (by simp [hon])
    · refine popCount_le_of_testBit (fun k hk => ?_) 30
      rw [h.testBit_starting] at hk
      simp_all [hok.testBit_starting]
  next hc =>
    refine ⟨h, rfl, fun _ hk => hk, fun _ hk => .inl hk, fun k hk hm => ?_, Nat.le_max_right _ _, Nat.le_refl _⟩
    obtain rfl := List.mem_singleton.mp hk
    simp only [hm, Bool.true_and, Bool.and_eq_true, Bool.not_eq_true', decide_eq_true_eq, not_and, Nat.not_lt] at hc
    cases hk : p.on.testBit k with
    | true => exact .inl rfl
    | false => exact .inr (hc hk)

theorem Power.SwitchedOn.trans {m : Nat} {l k : List Nat} {p q r : Power} (h : Power.SwitchedOn m l p q) (g : Power.SwitchedOn m k q r) :
    Power.SwitchedOn m (l ++ k) p r where
  ok := g.ok
  good := g.good.trans h.good
  stands n hn := g.stands n (h.stands n hn)
  only n hn := by
    rcases g.only n hn with hq | ⟨hk, hm⟩
    · exact (h.only n hq).imp_right fun e => ⟨List.mem_append_left _ e.1, e.2⟩
    · exact .inr ⟨List.mem_append_right _ hk, hm⟩
  all n hn hm := by
    rcases List.mem_append.mp hn with hl | hk
    · exact (h.all n hl hm).imp (g.stands n) (Nat.le_trans · g.grows)
    · exact g.all n hk hm
  few := by
    have := h.few
    have := g.few
    omega
  grows := Nat.le_trans h.grows g.grows

theorem Power.foldl_switchOne (m : Nat) (l : List Nat) {p : Power} (h : p.Ok) :
    Power.SwitchedOn m l p (l.foldl (Power.switchOne m) p) := by
  induction l generalizing p with
  | nil =>
    exact ⟨h, rfl, fun _ hn => hn, fun _ hn => .inl hn, fun _ hn => (List.not_mem_nil hn).elim, Nat.le_max_right _ _, Nat.le_refl _⟩
  | cons n l ih =>
    have hone := Power.switchOne_switchedOn m h n
    exact hone.trans (ih hone.ok)

theorem Power.switchOn_switchedOn (m : Nat) {p : Power} (h : p.Ok) : Power.SwitchedOn m (List.range 29) p (p.switchOn m) := by
  rw [Power.switchOn_eq]
  exact Power.foldl_switchOne m _ h

/-- Switching a domain off takes its contents; which domains are on is written apart. -/
@[simp] theorem Die.domainOff_power (x : Die) (n : Nat) : (x.domainOff n).power = x.power := by
  simp only [Die.domainOff, apply_ite Die.power, ite_self]

theorem Die.foldl_domainOff_power (l : List Nat) (x : Die) : (l.foldl Die.domainOff x).power = x.power := by
  induction l generalizing x with
  | nil => rfl
  | cons n l ih => rw [List.foldl_cons, ih, Die.domainOff_power]

end Sys2Proof.Machine
end

section
/-! SUPPORT. What the hearth's upkeep of ports, presence and ring state (R267 to R272) changes in the dies: their optical pairs and
their fabric interface, and nothing else. -/
namespace Sys2Proof.Machine

/-- The dies of two states differ in nothing but their pairs and their fabric interface. -/
structure State.SameButLinks (s t : State) : Prop where
  die : ∀ e, ({ t.die e with pairs := (s.die e).pairs, fab := (s.die e).fab } : Die) = s.die e

namespace State.SameButLinks

theorem refl (s : State) : s.SameButLinks s := ⟨fun _ => rfl⟩

theorem trans {s t u : State} (h : s.SameButLinks t) (k : t.SameButLinks u) : s.SameButLinks u := ⟨fun e =>
  (congrArg (fun x : Die => { x with pairs := (s.die e).pairs, fab := (s.die e).fab }) (k.die e)).trans (h.die e)⟩

/-- Every other field of a die is the same. -/
theorem field {s t : State} (h : s.SameButLinks t) (e : Nat) {α : Type} (f : Die → α) :
    f { t.die e with pairs := (s.die e).pairs, fab := (s.die e).fab } = f (s.die e) := congrArg f (h.die e)

theorem power {s t : State} (h : s.SameButLinks t) (e : Nat) : (t.die e).power = (s.die e).power := h.field e Die.power

variable {s t : State}

theorem modDie (h : s.SameButLinks t) (d : Nat) {f : Die → Die}
    (hf : ({ f (t.die d) with pairs := (t.die d).pairs, fab := (t.die d).fab } : Die) = t.die d) : s.SameButLinks (t.modDie d f) := by
  refine h.trans ⟨fun e => ?_⟩
  by_cases he : e = d
  · subst he
    rw [State.die_modDie_self]
    exact hf
  · rw [State.die_modDie_ne _ _ he]

theorem modPair (h : s.SameButLinks t) (d p : Nat) (f : Pair → Pair) : s.SameButLinks (t.modPair d p f) := h.modDie d rfl

theorem modPort (h : s.SameButLinks t) (n : Nat) (f : Port → Port) : s.SameButLinks (t.modPort n f) := ⟨h.die⟩

theorem withPanel (h : s.SameButLinks t) (p : Panel) : s.SameButLinks { t with panel := p } := ⟨h.die⟩

theorem notice (h : s.SameButLinks t) (code subject a1 a2 a3 : Nat) : s.SameButLinks (t.notice code subject a1 a2 a3) := ⟨h.die⟩

theorem ite {c : Prop} [Decidable c] {a b : State} (h : s.SameButLinks a) (k : s.SameButLinks b) : s.SameButLinks (if c then a else b) :=
  iteInduction (motive := s.SameButLinks) (fun _ => h) (fun _ => k)

theorem foldl {α : Type} {f : State → α → State} (l : List α) (h : s.SameButLinks t) (k : ∀ u a, s.SameButLinks u → s.SameButLinks (f u a)) :
    s.SameButLinks (l.foldl f t) := List.foldlRecOn l f h fun u hu a _ => k u a hu

theorem onActive (h : s.SameButLinks t) {f : Die → Die} (hf : ∀ x : Die, ({ f x with pairs := x.pairs, fab := x.fab } : Die) = x) :
    s.SameButLinks (t.onActive f) := foldl _ h fun _ d hu => hu.modDie d (hf _)

theorem topology (h : s.SameButLinks t) : s.SameButLinks t.topology := by
  unfold State.topology
  exact onActive (h.withPanel _) fun _ => rfl

theorem topology_or_self {c : Prop} [Decidable c] (h : s.SameButLinks t) : s.SameButLinks (if c then t.topology else t) :=
  ite h.topology h

theorem neighbourNotice (h : s.SameButLinks t) (port : Nat) : s.SameButLinks (t.neighbourNotice port) :=
  ite h ((h.modPort ..).notice ..)

theorem facePair (h : s.SameButLinks t) (port : Nat) (q : Nat × Nat) : s.SameButLinks (t.facePair port q) :=
  ite h (ite (h.modPair ..) (ite h ((h.modPair ..).notice ..)))

theorem facePort (h : s.SameButLinks t) (port : Nat) : s.SameButLinks (t.facePort port) := by
  unfold State.facePort
  dsimp only
  split
  · exact (h.modPort ..).modPort ..
  · refine ite ((h.modPort ..).modPort ..) (foldl _ (ite (notice ?_ ..) ?_) fun _ q hu => hu.facePair port q)
    all_goals exact (((h.modPort ..).modPort ..).modPair ..).modPort ..

theorem derive (h : s.SameButLinks t) : s.SameButLinks t.derive := by
  unfold State.derive
  dsimp only
  split
  · exact foldl _ h fun _ p hu => ite (ite (hu.modPort ..) (ite hu ((hu.modPort ..).notice ..))) hu
  · split
    · exact h
    · exact h.withPanel _

theorem settlePorts (h : s.SameButLinks t) (before : State) (hello : Bool) : s.SameButLinks (before.settlePorts t hello) := by
  have hfaced : s.SameButLinks ((List.range 8).foldl State.facePort t) := foldl _ h fun _ p hu => hu.facePort p
  unfold State.settlePorts
  exact topology_or_self (foldl _ (ite hfaced.derive hfaced) fun _ p hu => ite ((hu.modPort ..).neighbourNotice p) (hu.modPort ..))

theorem presenceChanged (h : s.SameButLinks t) (before : State) : s.SameButLinks (before.presenceChanged t) := h.settlePorts before false

end State.SameButLinks

end Sys2Proof.Machine
end

section
/-! Writes of the hearth to the registers of a die (R15, R26, R370, R371, R390, R396, R460). -/
namespace Sys2Proof.Machine

/-! ### DIE_PWR_ON -/

/-- The domains that a write of DIE_PWR_ON asks for (log 202): those of its bits that the hearth may have on, and, under a running menu,
those that are on. -/
def State.powerMask (s : State) (d v : Nat) : Nat :=
  bits v 28 0 &&& (if s.mayPower d then s.domainsOf d else 0) ||| (if s.dieBusy d then (s.die d).power.on else 0)

/-- DIE_PWR_ON switches off what the mask leaves out, then on what it holds. -/
theorem exec_diePwrOn_power (s : State) (d v : Nat) (hb : s.panel.busbar ≠ .lost) (hr : s.reaches d = true) :
    ∃ u : State, exec (.diePwrOn d v) s = .next u ∧
      (u.die d).power = ((s.die d).power.keepOnly (alwaysOn ||| s.powerMask d v)).switchOn (s.powerMask d v) := by
  refine ⟨_, congrArg Host.Outcome.next (if_neg (by simp [hb, hr])), ?_⟩
  rw [((State.SameButLinks.refl _).presenceChanged s).power, State.die_setDie_self]
  simp only [Power.keepOnly, Die.foldl_domainOff_power]
  rfl

/-- A mask with ALWAYS_ON holds the domains below it that it names. -/
theorem testBit_alwaysOn_or {m n : Nat} (hn : n < 29) : (alwaysOn ||| m).testBit n = m.testBit n := by
  have : ¬ 29 = n := by omega
  simp [Nat.testBit_or, this]

/-- The domains after a write that leaves `m` set. -/
theorem Power.keepOnly_switchOn {p : Power} (h : p.Ok) (m : Nat) {q : Power} (hq : q = (p.keepOnly (alwaysOn ||| m)).switchOn m) :
    (∀ n, n < 29 → m.testBit n = false → q.on.testBit n = false ∧ q.good.testBit n = false) ∧
    (∀ n, n < 29 → m.testBit n = true → q.good.testBit n = p.good.testBit n ∧
      (q.on.testBit n = true ∨ (p.on.testBit n = false ∧ 4 ≤ popCount q.starting 30))) ∧
    popCount q.starting 30 ≤ max 4 (popCount p.starting 30) ∧ q.on.testBit 29 = p.on.testBit 29 := by
  obtain ⟨-, hgood, hstands, honly, hall, hfew, -⟩ := hq ▸ Power.switchOn_switchedOn m (Power.keepOnly_ok h (alwaysOn ||| m))
  have hkon : ∀ n, (p.keepOnly (alwaysOn ||| m)).on.testBit n = (p.on.testBit n && (alwaysOn ||| m).testBit n) := fun n => Nat.testBit_and ..
  have hkgood : ∀ n, q.good.testBit n = (p.good.testBit n && (alwaysOn ||| m).testBit n) := fun n => by
    rw [hgood]
    exact Nat.testBit_and ..
  refine ⟨fun n hn hm => ?_, fun n hn hm => ?_, ?_, ?_⟩
  · have hoff : q.on.testBit n = false := by
      refine Bool.eq_false_iff.mpr fun hon => ?_
      rcases honly n hon with hk | ⟨-, hk⟩
      · simp [hkon, testBit_alwaysOn_or hn, hm] at hk
      · simp [hm] at hk
    exact ⟨hoff, by rw [hkgood, testBit_alwaysOn_or hn, hm, Bool.and_false]⟩
  · have hkeep : (alwaysOn ||| m).testBit n = true := by rw [testBit_alwaysOn_or hn, hm]
    refine ⟨by rw [hkgood, hkeep, Bool.and_true], ?_⟩
    cases hp : p.on.testBit n with
    | true => exact .inl (hstands n (by rw [hkon, hp, hkeep]; rfl))
    | false => exact (hall n (List.mem_range.mpr hn) hm).imp_right fun hfour => ⟨rfl, hfour⟩
  · have := Power.popCount_keepOnly_le h (alwaysOn ||| m) 30
    omega
  · have hkeep : (alwaysOn ||| m).testBit 29 = true := by simp [Nat.testBit_or]
    rw [Bool.eq_iff_iff]
    refine ⟨fun hon => ?_, fun hon => hstands 29 (by rw [hkon, hon, hkeep]; rfl)⟩
    rcases honly 29 hon with hk | ⟨hk, -⟩
    · rw [hkon, Bool.and_eq_true] at hk
      exact hk.1
    · simp at hk

/-! ### POWER_GOOD, THM_CFG and FAB_FENCE -/

theorem exec_powerGood (s : State) {d dom : Nat} (hd : dom < 30) (hon : (s.die d).power.on.testBit dom = true)
    (hg : (s.die d).power.good.testBit dom = false) :
    exec (.powerGood d dom) s = .next (s.modDie d (fun x => { x with power := { x.power with good := x.power.good + 2 ^ dom } })) :=
  congrArg Host.Outcome.next (if_neg (by simp [hon, hg]; omega))

/-- MANAGED is written, and clearing it in GRACE ends the grace period into THROTTLE (R390). -/
theorem State.setManaged_thermal (s : State) (d : Nat) (b : Bool) : ((s.setManaged d b).die d).thermal =
    (if (s.die d).thermal.state = .grace ∧ b = false then
      { (s.die d).thermal with
        managed := b, state := .throttle, dThr := 12, throttles := satAdd 16 (s.die d).thermal.throttles 1, throttleTurn := s.turn }
    else { (s.die d).thermal with managed := b }) := by
  unfold State.setManaged
  by_cases hc : (s.die d).thermal.state = .grace ∧ b = false
  · simp [hc, State.enterThrottle, State.thermalNotice, State.modThermal]
  · rw [if_neg hc, if_neg (by simpa using hc)]
    simp [State.modThermal]

theorem exec_thmCfg (s : State) {d : Nat} (v : Nat) (hr : s.reaches d = true) : ∃ u : State, exec (.thmCfg d v) s = .next u ∧
    (u.die d).thermal.managed = v.testBit 16 ∧ (u.die d).thermal.hbmThrottle = bits v 15 8 ∧ (u.die d).thermal.hbmWarn = bits v 7 0 ∧
    (u.die d).thermal.state = (if (s.die d).thermal.state = .grace ∧ v.testBit 16 = false then .throttle else (s.die d).thermal.state) := by
  refine ⟨_, congrArg Host.Outcome.next (if_neg (by simp [hr])), ?_⟩
  rw [State.setManaged_thermal]
  simp only [State.modThermal, State.die_modDie_self]
  split <;> exact ⟨rfl, rfl, rfl, rfl⟩

theorem exec_fabFence (s : State) {d : Nat} (v : Nat) (hr : s.reaches d = true) :
    exec (.fabFence d v) s = .next (if (s.die d).power.good.testBit 27 then
      s.modDie d (fun x => { x with fab := { x.fab with fenced := v.testBit 0 || (x.fab.fenced && x.fab.selfValid) } })
    else s) := by
  show execFabFence d v s = _
  cases hg : (s.die d).power.good.testBit 27 <;> simp [execFabFence, hr, hg]

/-! ### REGISTER_WRITE -/

/-- A register with no command of its own and outside the observation unit is written in the die alone. -/
theorem exec_registerWrite (s : State) {d off : Nat} (v : W64) (hr : s.reaches d = true) (hp : off ≠ 0x28) (ht : off ≠ 0xD0028)
    (ho : off / 0x10000 ≠ 0xE) : exec (.registerWrite d off v) s = .next (s.modDie d (fun x => x.writeReg off v.toNat)) := by
  show execRegisterWrite d off v s = _
  simp [execRegisterWrite, hr, hp, ht, ho]

/-- A register of a domain that is not at power-good takes no write (log 171). -/
theorem Die.writeReg_of_not_good {x : Die} {r : Nat} (h : x.power.good.testBit (regDomain r) = false) (v : Nat) : x.writeReg r v = x :=
  if_pos (by simp [h])

theorem exec_registerWrite_seed (s : State) {d : Nat} (v : W64) (hr : s.reaches d = true) (hg : (s.die d).power.good.testBit 29 = true) :
    exec (.registerWrite d 0x20 v) s = .next (s.modDie d (fun x => { x with seed := v.toNat })) := by
  have hw : (s.die d).writeReg 0x20 v.toNat = { s.die d with seed := v.toNat } := if_neg (by simp [regDomain, hg])
  rw [exec_registerWrite s v hr (by decide) (by decide) (by decide), State.modDie, hw]
  rfl

theorem exec_registerWrite_budget (s : State) {d : Nat} (v : W64) (hr : s.reaches d = true) (hg : (s.die d).power.good.testBit 29 = true) :
    ∃ u : State, exec (.registerWrite d 0xC0000 v) s = .next u ∧ (u.die d).leave.next = max 260 (min 420 (bits v.toNat 25 16)) := by
  have hw : (s.die d).writeReg 0xC0000 v.toNat =
      { s.die d with leave := { (s.die d).leave with next := max 260 (min 420 (bits v.toNat 25 16)) } } := if_neg (by simp [regDomain, hg])
  refine ⟨_, exec_registerWrite s v hr (by decide) (by decide) (by decide), ?_⟩
  rw [State.die_modDie_self, hw]

theorem exec_registerWrite_of_not_good (s : State) {d off : Nat} (v : W64) (hp : off ≠ 0x28) (ht : off ≠ 0xD0028) (ho : off / 0x10000 ≠ 0xE)
    (hg : (s.die d).power.good.testBit (regDomain off) = false) :
    ∃ u : State, exec (.registerWrite d off v) s = .next u ∧ SameDies s u ∧ u.panel = s.panel := by
  cases hr : s.reaches d with
  | false => exact ⟨s, congrArg Host.Outcome.next (if_pos (by simp [hr])), fun _ => rfl, rfl⟩
  | true =>
    refine ⟨_, exec_registerWrite s v hr hp ht ho, fun e => ?_, rfl⟩
    rw [State.die_modDie]
    split
    next he => rw [he, Die.writeReg_of_not_good hg]
    next => rfl

/-- A site that no hearth reaches takes no write (R26). -/
theorem exec_writes_of_not_reaches (s : State) {d : Nat} (off : Nat) (v : W64) (n : Nat) (hr : s.reaches d = false) :
    exec (.registerWrite d off v) s = .next s ∧ exec (.diePwrOn d n) s = .next s ∧ exec (.thmCfg d n) s = .next s ∧
      exec (.fabFence d n) s = .next s := by
  refine ⟨?_, ?_, ?_, ?_⟩ <;> exact congrArg Host.Outcome.next (if_pos (by simp [hr]))

/-- Settles O38, by one lemma per clause. That of DIE_PWR_ON goes by induction over the domains that it switches on, with the count of those
that are starting; the upkeep of ports after it leaves every die's power as it is. -/
theorem dieRegistersWrite : Obligations.DieRegistersWrite := by
  intro s d
  refine ⟨?_, fun dom hd hon hg => exec_powerGood s hd hon hg, fun v hr => exec_thmCfg s v hr, fun v hr => exec_fabFence s v hr,
    fun v hr hg => ⟨exec_registerWrite_seed s v hr hg, exec_registerWrite_budget s v hr hg⟩,
    fun off v hp ht ho hg => exec_registerWrite_of_not_good s v hp ht ho hg, fun off v n hr => exec_writes_of_not_reaches s off v n hr⟩
  rintro v _ _ _ hb hr rfl rfl rfl hok
  obtain ⟨u, hu, hpower⟩ := exec_diePwrOn_power s d v hb hr
  exact ⟨u, hu, Power.keepOnly_switchOn hok _ hpower⟩

end Sys2Proof.Machine
end

section
/-! The bits of stochastic rounding (R139). -/
namespace Sys2Proof.Machine

/-- A word times a constant, on numbers. -/
theorem toNat_mul_ofNat (x : W64) {k : Nat} (hk : k < 2 ^ 64) : (x * BitVec.ofNat 64 k).toNat = x.toNat * k % 2 ^ 64 := by
  rw [BitVec.toNat_mul, BitVec.toNat_ofNat, Nat.mod_eq_of_lt hk]

/-- The model's mixing of numbers is that of 64-bit words. -/
theorem mix64_toNat (x : W64) : mix64 x.toNat = (mixWord x).toNat := by
  have h1 := toNat_mul_ofNat (k := 0xBF58476D1CE4E5B9) (hk := by decide)
  have h2 := toNat_mul_ofNat (k := 0x94D049BB133111EB) (hk := by decide)
  simp only [mix64, mixWord, BitVec.toNat_xor, BitVec.toNat_ushiftRight, h1, h2]

/-- Settles O59: each step of the generator on numbers below 2 ^ 64 is that step on words. -/
theorem stochasticBitsFollowTheGenerator : Obligations.StochasticBitsFollowTheGenerator := by
  intro seed tensor index
  have hkey : (seed.toNat ^^^ (tensor.toNat * 0x9E3779B97F4A7C15 % 2 ^ 64)) % 2 ^ 64 =
      (seed ^^^ (tensor * 0x9E3779B97F4A7C15#64)).toNat := by
    rw [BitVec.toNat_xor, toNat_mul_ofNat _ (by decide)]
    exact Nat.mod_eq_of_lt (Nat.xor_lt_two_pow seed.isLt (Nat.mod_lt _ (by decide)))
  rw [srBits, hkey, mix64_toNat, ← BitVec.toNat_xor, mix64_toNat, BitVec.toNat_ushiftRight]

end Sys2Proof.Machine
end

section
/-! Vector words at issue (R141 to R146). -/
namespace Sys2Proof.Machine

/-! ### The take of a word changes nothing that a vector word reads -/

theorem State.takeWord_vecBroken (s : State) (d c t : Nat) (w : W64) (op : Nat) :
    (s.takeWord d c t w).vecBroken d c w op = s.vecBroken d c w op := by
  simp only [State.vecBroken, Die.tile, State.takeWord_tiles, State.takeWord_featureEnable, State.takeWord_sieve]

theorem State.takeWord_vecCmd (s : State) (d c t : Nat) (w : W64) (op key : Nat) (o : Origin) :
    ((s.takeWord d c t w).die d).vecCmd c w op key o = (s.die d).vecCmd c w op key o :=
  (s.takeWord_units d c t w).field (fun x => x.vecCmd c w op key o)

theorem Die.vec_modVec_ne (x : Die) {c e : Nat} (f : Vec → Vec) (h : e ≠ c) : (x.modVec c f).vec e = x.vec e := Tab.getD_put_ne _ _ _ h

theorem Die.vec_modVec (x : Die) (c : Nat) (f : Vec → Vec) : (x.modVec c f).vec c = f (x.vec c) := Tab.getD_put_self ..

/-! ### A vector operation that breaks no rule -/

/-- The state after it is that after a word whose effect is to queue its command under a fresh key. -/
theorem State.issueVec_eq {s : State} {d c t : Nat} {w : W64} {op : Nat} (hw : s.issues d c t w 2 op = true) (hop : opKnown 2 op = true)
    (hok : lowestCode (s.vecBroken d c w op) = none) :
    s.issueVec d c t w op = s.afterWord d c t w (fun u o => u.setDie d ((u.die d).freshKey.2.modVec c (fun v =>
      { v with queue := v.queue ++ [(s.die d).vecCmd c w op (s.die d).nextKey o] }))) := by
  refine (State.issue_eq hw hop _).trans (State.afterWord_congr ?_)
  rw [State.checked_none (by rw [State.takeWord_vecBroken, hok])]
  simp only [Die.freshKey, State.takeWord_vecCmd, State.takeWord_nextKey]

/-- Settles O8: the 32 operations issue alike, each under its own OP code, so one argument about `issueVec` holds for all. -/
theorem vectorWordsEnterQueue : Obligations.VectorWordsEnterQueue := by
  intro s d c t w i op hmem hw hok
  have hexec : exec i s = .next (s.issueVec d c t w op) :=
    List.map_inj_left (f := fun p : Instr × Nat => exec p.1 s) (g := fun p => .next (s.issueVec d c t w p.2)) |>.mp rfl _ hmem
  have hop : opKnown 2 op = true :=
    List.map_inj_left (f := fun p : Instr × Nat => opKnown 2 p.2) (g := fun _ => true) |>.mp rfl _ hmem
  rw [State.issueVec_eq hw hop hok] at hexec
  refine ⟨_, hexec, ?_, ?_, ?_, fun e he => ?_⟩
  · simp [State.afterWord, Die.modVec, Die.freshKey]
  · simp [State.afterWord, Die.vec, Die.modVec, Die.freshKey]
  · simp [State.afterWord, Die.vec, Die.modVec, Die.freshKey]
  · rw [State.afterWord, State.runOff_die_ne _ _ _ he, State.die_setDie_ne _ _ he, State.takeWord_die_ne _ _ _ _ he]

end Sys2Proof.Machine
end

section
/-! SUPPORT. What the record of an error (R83), the count of a tag (R79), pantry reads and digests for a course, and writes through
the pantry change in a die. -/
namespace Sys2Proof.Machine

/-! ### The record of an error -/

/-- Nothing but sequencers, requests and the handoff to the fabric differs. -/
theorem State.raise_units (s : State) (d : Nat) (o : Origin) (code e : Nat) : ({ (s.raise d o code).die e with
    seqs := (s.die e).seqs, rem := (s.die e).rem, fab := (s.die e).fab } : Die) = s.die e := by
  rcases s.raiseAt_die d o.core code o.off o.thread o.word with h | h <;> rw [State.raise, h]
  by_cases he : e = d
  · subst he; simp [Die.haltSends, Die.modSeq]
  · simp [State.die_modDie_ne _ _ he]

theorem State.raise_field (s : State) (d : Nat) (o : Origin) (code e : Nat) {α : Type} (f : Die → α) : f { (s.raise d o code).die e with
    seqs := (s.die e).seqs, rem := (s.die e).rem, fab := (s.die e).fab } = f (s.die e) := congrArg f (s.raise_units d o code e)

theorem State.raise_die_ne (s : State) {d : Nat} (o : Origin) (code : Nat) {e : Nat} (he : e ≠ d) :
    (s.raise d o code).die e = s.die e := by
  rcases s.raiseAt_die d o.core code o.off o.thread o.word with h | h <;> rw [State.raise, h]
  exact State.die_modDie_ne _ _ he

@[simp] theorem State.raise_mem (s : State) (d : Nat) (o : Origin) (code e : Nat) : ((s.raise d o code).die e).mem = (s.die e).mem :=
  s.raise_field d o code e Die.mem
@[simp] theorem State.raise_vecs (s : State) (d : Nat) (o : Origin) (code e : Nat) : ((s.raise d o code).die e).vecs = (s.die e).vecs :=
  s.raise_field d o code e Die.vecs
@[simp] theorem State.raise_seed (s : State) (d : Nat) (o : Origin) (code e : Nat) : ((s.raise d o code).die e).seed = (s.die e).seed :=
  s.raise_field d o code e Die.seed

/-- The core may stop; its threads stand. -/
@[simp] theorem State.raise_threads (s : State) (d : Nat) (o : Origin) (code e c : Nat) :
    (((s.raise d o code).die e).seq c).threads = ((s.die e).seq c).threads := by
  rcases s.raiseAt_die d o.core code o.off o.thread o.word with h | h <;> rw [State.raise, h]
  rw [State.die_modDie]
  split
  · by_cases hc : c = o.core
    · subst hc; simp [Die.seq, Die.modSeq, Die.haltSends]
    · simp [Die.seq, Die.modSeq, Die.haltSends, hc]
  · rfl

/-! ### The count of a tag and the release of a grant -/

theorem State.countTag_die_ne (s : State) {d : Nat} (o : Origin) {e : Nat} (he : e ≠ d) : (s.countTag d o).die e = s.die e := by
  unfold State.countTag
  split
  · rfl
  · exact State.die_modDie_ne _ _ he

theorem State.countTag_tag (s : State) (d : Nat) {o : Origin} (ho : o.tag ≠ 0) :
    ((((s.countTag d o).die d).seq o.core).thread o.thread).tags.getD o.tag 0 =
      min 1023 ((((s.die d).seq o.core).thread o.thread).tags.getD o.tag 0 + 1) := by
  simp [State.countTag, ho, State.modThread, Die.modSeq, Die.seq, Seq.modThread, Seq.thread]

theorem State.releaseLeave_die (s : State) (d unit key : Nat) : (s.releaseLeave d unit key).die d =
    { s.die d with leave := (s.die d).leave.release s.turn unit key } := State.die_modDie_self ..

theorem State.releaseLeave_die_ne (s : State) {d : Nat} (unit key : Nat) {e : Nat} (he : e ≠ d) :
    (s.releaseLeave d unit key).die e = s.die e := State.die_modDie_ne _ _ he

/-! ### Pantry reads and digests for a course: errors are counted, and the course may stop -/

/-- No byte of memory, no vector unit, no thread of die `d` and no other die has changed. -/
structure State.SameWork (d : Nat) (s t : State) : Prop where
  cells : (t.die d).mem.cells = (s.die d).mem.cells
  regions : (t.die d).mem.regions = (s.die d).mem.regions
  vecs : (t.die d).vecs = (s.die d).vecs
  seed : (t.die d).seed = (s.die d).seed
  threads : ∀ c, ((t.die d).seq c).threads = ((s.die d).seq c).threads
  others : ∀ e, e ≠ d → t.die e = s.die e

namespace State.SameWork
variable {d : Nat} {s t u : State}

theorem refl (d : Nat) (s : State) : State.SameWork d s s := ⟨rfl, rfl, rfl, rfl, fun _ => rfl, fun _ _ => rfl⟩

theorem trans (h : State.SameWork d s t) (k : State.SameWork d t u) : State.SameWork d s u where
  cells := k.cells.trans h.cells
  regions := k.regions.trans h.regions
  vecs := k.vecs.trans h.vecs
  seed := k.seed.trans h.seed
  threads c := (k.threads c).trans (h.threads c)
  others e he := (k.others e he).trans (h.others e he)

theorem raise (h : State.SameWork d s t) (o : Origin) (code : Nat) : State.SameWork d s (t.raise d o code) :=
  h.trans ⟨by simp, by simp, by simp, by simp, by simp, fun _ he => t.raise_die_ne o code he⟩

theorem thread (h : State.SameWork d s t) (c k : Nat) : ((t.die d).seq c).thread k = ((s.die d).seq c).thread k :=
  congrArg (fun l : Tab Thread => l.getD k {}) (h.threads c)

end State.SameWork

/-- A scan of the pantry counts errors; no byte and no region changes. -/
theorem MemUnit.panScan_cells (m : MemUnit) (a n : Nat) : (m.panScan a n).1.cells = m.cells ∧ (m.panScan a n).1.regions = m.regions := by
  unfold MemUnit.panScan
  split <;> exact ⟨rfl, rfl⟩

theorem State.panLoad_sameWork (s : State) (d : Nat) (o : Origin) (a n : Nat) : State.SameWork d s (s.panLoad d o a n).1 := by
  obtain ⟨hcells, hregions⟩ := (s.die d).mem.panScan_cells a n
  have hscan : State.SameWork d s (s.setDie d { s.die d with mem := ((s.die d).mem.panScan a n).1 }) := by
    refine ⟨?_, ?_, ?_, ?_, fun c => ?_, fun e he => State.die_setDie_ne _ _ he⟩ <;> rw [State.die_setDie_self]
    · exact hcells
    · exact hregions
    · rfl
  unfold State.panLoad
  dsimp only
  split
  · exact hscan.raise ..
  · exact hscan

theorem State.panScans_sameWork (s : State) (d : Nat) (o : Origin) (l : List (Nat × Nat)) : State.SameWork d s (s.panScans d o l) :=
  List.foldlRecOn l _ (State.SameWork.refl d s) fun u hu p _ => hu.trans (u.panLoad_sameWork d o p.1 p.2)

theorem State.digestRows_sameWork (s : State) (d : Nat) (o : Origin) (t : Tile) (rows : List RowOut) :
    State.SameWork d s (s.digestRows d o t rows) := by
  unfold State.digestRows
  split
  · exact State.SameWork.refl d s
  · refine List.foldlRecOn _ _ (State.SameWork.refl d s) fun u hu p _ => ?_
    split
    · refine hu.trans ⟨?_, ?_, ?_, ?_, fun c => ?_, fun e he => State.die_modDie_ne _ _ he⟩ <;> rw [State.die_modDie_self]
      rfl
    · exact hu.raise ..

/-! ### Writes through the pantry -/

/-- Two dies differ in nothing but their memory and their whisk. -/
def Die.SameButStores (x y : Die) : Prop := ({ y with mem := x.mem, whisk := x.whisk } : Die) = x

/-- Every other field of the two is the same. -/
theorem Die.SameButStores.field {x y : Die} (h : Die.SameButStores x y) {α : Type} (f : Die → α) :
    f { y with mem := x.mem, whisk := x.whisk } = f x := congrArg f h

theorem Die.SameButStores.trans {x y z : Die} (h : Die.SameButStores x y) (k : Die.SameButStores y z) : Die.SameButStores x z :=
  (k.field (fun v => ({ v with mem := x.mem, whisk := x.whisk } : Die))).trans h

theorem Die.panStore_sameButStores (x : Die) (a : Nat) (bs : Bytes) : Die.SameButStores x (x.panStore a bs) := by
  have hput : ∀ (y : Die) (b : Nat) (l : Bytes), Die.SameButStores x y → Die.SameButStores x (y.panPut b l) := fun y b l h => h.trans rfl
  unfold Die.panStore
  split
  · exact hput x _ _ rfl
  · refine List.foldlRecOn _ _ rfl fun y hy e _ => ?_
    split
    · exact hy
    · exact List.foldlRecOn _ _ hy fun z hz p _ => hput z _ _ hz

theorem Die.writeRows_sameButStores (x : Die) (t : Tile) (rows : List RowOut) : Die.SameButStores x (x.writeRows t rows) := by
  refine List.foldlRecOn _ _ rfl fun y hy p _ => ?_
  dsimp only
  split
  · exact hy.trans (y.panStore_sameButStores ..)
  · exact (hy.trans (y.panStore_sameButStores ..)).trans (Die.panStore_sameButStores ..)

/-- Two dies hold the same bytes and the same regions. -/
def Die.SameStore (x y : Die) : Prop := x.mem.cells = y.mem.cells ∧ x.mem.regions = y.mem.regions

/-- What a write through the pantry leaves in memory depends on the bytes and the regions only. -/
theorem Die.SameStore.panPut {x y : Die} (h : Die.SameStore x y) (a : Nat) (bs : Bytes) : Die.SameStore (x.panPut a bs) (y.panPut a bs) := by
  obtain ⟨hc, hr⟩ := h
  simp only [Die.SameStore, Die.panPut, Die.landed, MemUnit.panWrite]
  split
  · exact ⟨hc, hr⟩
  · exact ⟨congrArg (Mem.write · a bs) hc, hr⟩

theorem Die.SameStore.frozen {x y : Die} (h : Die.SameStore x y) (a n : Nat) : x.mem.frozen a n = y.mem.frozen a n := by
  rw [MemUnit.frozen, MemUnit.frozen, h.2]

theorem Die.SameStore.panStore {x y : Die} (h : Die.SameStore x y) (a : Nat) (bs : Bytes) :
    Die.SameStore (x.panStore a bs) (y.panStore a bs) := by
  rw [Die.panStore, Die.panStore, h.frozen]
  split
  · exact h.panPut a bs
  · refine List.foldl_rel h fun e _ u v huv => ?_
    rw [huv.frozen]
    split
    · exact huv
    · exact List.foldl_rel huv fun p _ u v huv => huv.panPut ..

theorem Die.SameStore.writeRows {x y : Die} (h : Die.SameStore x y) (t : Tile) (rows : List RowOut) :
    Die.SameStore (x.writeRows t rows) (y.writeRows t rows) := by
  refine List.foldl_rel h fun p _ u v huv => ?_
  dsimp only
  split
  · exact huv.panStore ..
  · exact (huv.panStore ..).panStore ..

end Sys2Proof.Machine
end

section
/-! What an event of the whisk leaves alone in the vector units (R360): it may add submissions, and nothing else. -/
namespace Sys2Proof.Machine

/-- A control packet changes its instance and the handoff to the fabric, and no vector unit. -/
theorem Die.ctlRaw_vecs (x : Die) (b peer kind phase : Nat) (id : ChunkId) (attempt : Nat) (payload : Bytes) (turn : Nat) :
    (x.ctlRaw b peer kind phase id attempt payload turn).vecs = x.vecs := by
  unfold Die.ctlRaw
  dsimp only
  split <;> rfl

/-- Each vector unit of die `d` runs what it ran and has the queue that it had. -/
structure State.SameVecWork (d : Nat) (s t : State) : Prop where
  running : ∀ c, ((t.die d).vec c).running = ((s.die d).vec c).running
  queue : ∀ c, ((t.die d).vec c).queue = ((s.die d).vec c).queue

namespace State.SameVecWork
variable {d : Nat} {s t u : State}

theorem refl (d : Nat) (s : State) : State.SameVecWork d s s := ⟨fun _ => rfl, fun _ => rfl⟩

theorem trans (h : State.SameVecWork d s t) (k : State.SameVecWork d t u) : State.SameVecWork d s u :=
  ⟨fun c => (k.running c).trans (h.running c), fun c => (k.queue c).trans (h.queue c)⟩

theorem of_vecs (h : State.SameVecWork d s t) (k : (u.die d).vecs = (t.die d).vecs) : State.SameVecWork d s u := by
  have hvec : ∀ c, (u.die d).vec c = (t.die d).vec c := fun c => by rw [Die.vec, k, Die.vec]
  exact h.trans ⟨fun c => by rw [hvec], fun c => by rw [hvec]⟩

theorem modDie (h : State.SameVecWork d s t) {f : Die → Die} (k : (f (t.die d)).vecs = (t.die d).vecs) :
    State.SameVecWork d s (t.modDie d f) := h.of_vecs (by rw [State.die_modDie_self, k])

theorem ite {c : Prop} [Decidable c] (h : State.SameVecWork d s t) (k : State.SameVecWork d s u) :
    State.SameVecWork d s (if c then t else u) := iteInduction (motive := State.SameVecWork d s) (fun _ => h) (fun _ => k)

theorem foldl {α : Type} {f : State → α → State} (l : List α) (h : State.SameVecWork d s t)
    (k : ∀ u a, State.SameVecWork d s u → State.SameVecWork d s (f u a)) : State.SameVecWork d s (l.foldl f t) :=
  List.foldlRecOn l f h fun u hu a _ => k u a hu

/-! ### Shared operations -/

theorem modInst (h : State.SameVecWork d s t) (b : Nat) (f : Inst → Inst) : State.SameVecWork d s (t.modInst d b f) := h.modDie rfl

theorem raise (h : State.SameVecWork d s t) (o : Origin) (code : Nat) : State.SameVecWork d s (t.raise d o code) :=
  h.of_vecs (t.raise_vecs ..)

theorem countTag (h : State.SameVecWork d s t) (o : Origin) : State.SameVecWork d s (t.countTag d o) := h.of_vecs (t.countTag_vecs ..)

theorem noticeTo (h : State.SameVecWork d s t) (about : Option Nat) (code subject a1 a2 a3 : Nat) :
    State.SameVecWork d s (t.noticeTo about code subject a1 a2 a3) := h.of_vecs rfl

theorem panStore (h : State.SameVecWork d s t) (a : Nat) (bs : Bytes) : State.SameVecWork d s (t.panStore d a bs) :=
  h.modDie (((t.die d).panStore_sameButStores a bs).field Die.vecs)

theorem releaseLeave (h : State.SameVecWork d s t) (unit key : Nat) : State.SameVecWork d s (t.releaseLeave d unit key) := h.modDie rfl

/-! ### Aborts and control packets -/

theorem leaveContext (h : State.SameVecWork d s t) (b : Nat) : State.SameVecWork d s (t.leaveContext d b) := by
  unfold State.leaveContext
  dsimp only
  split
  · exact h.modInst ..
  · split
    · exact ((h.modInst ..).releaseLeave ..).ite (h.modInst ..)
    · exact h.modInst ..

theorem abortTell (h : State.SameVecWork d s t) (b code : Nat) (except : Option Nat) :
    State.SameVecWork d s (t.abortTell d b code except) :=
  foldl _ h fun _ _ hu => ((hu.raise ..).modInst ..).ite (hu.modDie (Die.ctlRaw_vecs ..))

theorem abortCause (h : State.SameVecWork d s t) (b code : Nat) (from_ : Option Nat) :
    State.SameVecWork d s (t.abortCause d b code from_) := by
  unfold State.abortCause
  refine h.ite ((h.ite ((h.modInst ..).abortTell ..)).ite ?_)
  exact (((h.modInst ..).modDie rfl).leaveContext b).abortTell ..

theorem badRank (h : State.SameVecWork d s t) (b : Nat) : State.SameVecWork d s (t.badRank d b) := (h.raise ..).abortCause ..

theorem ctlSend (h : State.SameVecWork d s t) (b peer kind phase : Nat) (id : ChunkId) (attempt : Nat) (payload : Bytes) :
    State.SameVecWork d s (t.ctlSend d b peer kind phase id attempt payload) :=
  (h.badRank b).ite (h.modDie (Die.ctlRaw_vecs ..))

/-! ### Joins, output and credit -/

theorem wakeJoins (h : State.SameVecWork d s t) (b : Nat) : State.SameVecWork d s (t.wakeJoins d b) :=
  foldl _ (h.modDie rfl) fun _ _ hu => hu.countTag _

theorem whiskWrite (h : State.SameVecWork d s t) (b c : Nat) (bs : Bytes) : State.SameVecWork d s (t.whiskWrite d b c bs) :=
  ((h.panStore ..).modInst ..).ite ((h.modDie rfl).modInst ..)

theorem sendCredit (h : State.SameVecWork d s t) (b n : Nat) (id : ChunkId) : State.SameVecWork d s (t.sendCredit d b n id) :=
  (h.modInst ..).ctlSend ..

theorem grantCredit (h : State.SameVecWork d s t) (b : Nat) : State.SameVecWork d s (t.grantCredit d b) :=
  foldl _ h fun _ _ hu => hu.sendCredit ..

/-! ### The optimizer: a submission joins those that wait, behind the queue's back -/

theorem submit (h : State.SameVecWork d s t) (core : Nat) (l : List VecCmd) : State.SameVecWork d s
    (t.modDie d (fun x => x.modVec core (fun v => { v with submitted := v.submitted ++ l }))) := by
  refine h.trans ⟨fun c => ?_, fun c => ?_⟩
  all_goals
    rw [State.die_modDie_self]
    by_cases hc : c = core
    · rw [hc, Die.vec_modVec]
    · rw [Die.vec_modVec_ne _ _ hc]

theorem submitOpt (h : State.SameVecWork d s t) (b : Nat) : State.SameVecWork d s (t.submitOpt d b) := by
  unfold State.submitOpt
  dsimp only
  refine h.ite (foldl _ h fun u c hu => ?_)
  split
  · exact hu
  · exact hu.ite (((hu.panStore ..).modInst ..).submit ..)

/-! ### Points of agreement -/

theorem complete (h : State.SameVecWork d s t) (b : Nat) : State.SameVecWork d s (t.complete d b) := by
  have hdone := ((h.modInst b (fun i => { i with state := 8, relB := true, timerRuns := false })).leaveContext b).modDie (f := fun x =>
    { x with whisk := { x.whisk with done := satAdd 32 x.whisk.done 1 } }) rfl
  exact ((hdone.noticeTo ..).ite hdone).wakeJoins b

theorem enterGather (h : State.SameVecWork d s t) (b : Nat) (timed : Bool) : State.SameVecWork d s (t.enterGather d b timed) :=
  (h.modInst ..).grantCredit b

theorem releaseKids (h : State.SameVecWork d s t) (b point : Nat) : State.SameVecWork d s (t.releaseKids d b point) :=
  foldl _ h fun _ _ hu => hu.ctlSend ..

theorem agree (h : State.SameVecWork d s t) (b point : Nat) : State.SameVecWork d s (t.agree d b point) := by
  unfold State.agree
  dsimp only
  split
  · exact (h.modInst ..).ctlSend ..
  · exact ((((h.modInst ..).enterGather ..).releaseKids ..).submitOpt b).ite (((h.modInst ..).releaseKids ..).complete b)

theorem progress (b k : Nat) (h : State.SameVecWork d s t) : State.SameVecWork d s (State.progress d b k t) := by
  induction k generalizing t with
  | zero => exact h
  | succ k ih =>
    exact (h.ite (((ih (h.agree ..)).ite h).ite ((ih (h.enterGather ..)).ite ((h.agree ..).ite h)))).ite
      (((h.agree ..).ite h).ite h)

theorem whiskVecDone (h : State.SameVecWork d s t) (b c op : Nat) : State.SameVecWork d s (t.whiskVecDone d b c op) := by
  unfold State.whiskVecDone
  dsimp only
  refine h.ite (ite ?_ ((((h.whiskWrite ..).submitOpt b).wakeJoins b).progress ..))
  split
  · exact h
  · exact ((((h.panStore ..).panStore ..).panStore ..).ite ((h.panStore ..).panStore ..)).modInst .. |>.submitOpt b

end State.SameVecWork

end Sys2Proof.Machine
end

section
/-! Events of the vector units, and SET_PARAM (R143, R152, R360). -/
namespace Sys2Proof.Machine

/-! ### VEC_COMMAND_START -/

theorem exec_vecCommandStart (s : State) {d c : Nat} {k : VecCmd} {ofWhisk : Bool} (hidle : ((s.die d).vec c).running = none)
    (hnext : ((s.die d).vec c).nextCmd = some (k, ofWhisk)) (hleave : k.heavy = false ∨ (s.die d).leave.granted (9 + c) k.key = true)
    (hkat : ofWhisk = true → s.panel.kats.find d = none) :
    exec (.vecCommandStart d c) s = .next (s.modDie d (fun x => x.modVec c (fun v => { v with
      running := some k, lastOp := k.op, lastWhisk := ofWhisk,
      queue := if ofWhisk then v.queue else v.queue.drop 1, submitted := if ofWhisk then v.submitted.drop 1 else v.submitted }))) := by
  have hheavy : (k.heavy && ! (s.die d).leave.granted (9 + c) k.key) = false := by
    rcases hleave with h | h <;> simp [h]
  have htest : (ofWhisk && (s.panel.kats.find d).isSome) = false := by
    cases ofWhisk with
    | false => rfl
    | true => simp [hkat rfl]
  show execVecCommandStart d c s = _
  simp [execVecCommandStart, hidle, hnext, hheavy, htest, State.modDie]

/-! ### VEC_COMMAND_COMPLETE -/

/-- The rows that a command computes for one of its tiles, narrowed to the tile's format. -/
def Die.outRows (x : Die) (k : VecCmd) (t : Tile) (part : VecOut → List (List Nat)) : List RowOut :=
  narrowRows t x.seed k.sr k.sat (part (k.compute x.mem.cells))

/-- The die with the rows of Y, C and Z that a command computes. -/
def Die.writeOut (x : Die) (k : VecCmd) : Die :=
  ((x.writeRows k.y (x.outRows k k.y VecOut.y)).writeRows k.c (x.outRows k k.c VecOut.c)).writeRows k.z (x.outRows k k.z VecOut.z)

/-- The die as the last write of a command is accepted: unit `c` runs no command, and has counted the saturations. -/
def Die.vecDone (x : Die) (c : Nat) (k : VecCmd) : Die :=
  let sats := ((x.outRows k k.y VecOut.y ++ x.outRows k k.c VecOut.c ++ x.outRows k k.z VecOut.z).map RowOut.sats).foldl (· + ·) 0
  (x.writeOut k).modVec c (fun v => { v with running := none, satCount := satAdd 32 v.satCount sats })

theorem Die.writeOut_sameButStores (x : Die) (k : VecCmd) : Die.SameButStores x (x.writeOut k) :=
  ((x.writeRows_sameButStores ..).trans (Die.writeRows_sameButStores ..)).trans (Die.writeRows_sameButStores ..)

/-- What a command writes depends on the bytes, the regions and the seed of the die. -/
theorem Die.writeOut_cells {x y : Die} (h : Die.SameStore x y) (hs : x.seed = y.seed) (k : VecCmd) :
    (x.writeOut k).mem.cells = (y.writeOut k).mem.cells := by
  unfold Die.writeOut Die.outRows
  rw [h.1, hs]
  exact (((h.writeRows ..).writeRows ..).writeRows ..).1

theorem Die.vecDone_vec (x : Die) (c : Nat) (k : VecCmd) :
    ((x.vecDone c k).vec c).running = none ∧ ((x.vecDone c k).vec c).queue = (x.vec c).queue := by
  rw [Die.vecDone, Die.vec_modVec]
  exact ⟨rfl, congrArg (fun l : Tab Vec => (l.getD c {}).queue) ((x.writeOut_sameButStores k).field Die.vecs)⟩

theorem Die.vecDone_seq (x : Die) (c : Nat) (k : VecCmd) (e : Nat) : (x.vecDone c k).seq e = x.seq e :=
  (x.writeOut_sameButStores k).field (fun y => y.seq e)

/-- The spans that a command of a course reads (R141). -/
def VecCmd.readSpans (k : VecCmd) : List (Nat × Nat) :=
  let u := vecUse k.op
  ([(1, k.a), (u.b, k.b), (u.c, k.c), (if u.y = 3 then 3 else 0, k.y), (if u.z = 3 || u.z = 4 then u.z else 0, k.z)].filter
    (fun p => p.1 ≠ 0)).flatMap (fun p => p.2.spans)

/-- A command of a course ends in four parts: its reads are scanned; its rows are written and the unit is free; rows pass to the sieve,
which changes no work of the die; the tag counts and the grant goes back. -/
theorem State.vecFinish_eq (s : State) (d c : Nat) (k : VecCmd) : ∃ v : State,
    State.SameWork d ((s.panScans d k.org k.readSpans).modDie d (fun x => x.vecDone c k)) v ∧
      s.vecFinish d c k = (v.countTag d k.org).releaseLeave d (9 + c) k.key := by
  refine ⟨_, ?_, rfl⟩
  split
  · exact State.digestRows_sameWork ..
  · split
    · exact State.digestRows_sameWork ..
    · exact State.SameWork.refl ..

theorem exec_vecCommandComplete_course (s : State) {d c : Nat} {k : VecCmd} (hrun : ((s.die d).vec c).running = some k)
    (hk : k.bucket = none) : ∃ u : State, exec (.vecCommandComplete d c) s = .next u ∧ ((u.die d).vec c).running = none ∧
      ((u.die d).vec c).queue = ((s.die d).vec c).queue ∧ (u.die d).mem.cells = ((s.die d).writeOut k).mem.cells ∧
      (k.org.tag ≠ 0 → (((u.die d).seq k.org.core).thread k.org.thread).tags.getD k.org.tag 0 =
        min 1023 ((((s.die d).seq k.org.core).thread k.org.thread).tags.getD k.org.tag 0 + 1)) ∧
      (∀ e, e ≠ d → u.die e = s.die e) := by
  obtain ⟨v, hv, heq⟩ := s.vecFinish_eq d c k
  have hscan := s.panScans_sameWork d k.org k.readSpans
  have hexec : exec (.vecCommandComplete d c) s = .next (s.vecFinish d c k) := by
    show execVecCommandComplete d c s = _
    simp only [execVecCommandComplete, hrun, hk]
  have hvec : ((v.countTag d k.org).die d).vec c = (((s.panScans d k.org k.readSpans).die d).vecDone c k).vec c := by
    rw [Die.vec, State.countTag_vecs, hv.vecs, State.die_modDie_self, Die.vec]
  obtain ⟨hidle, hqueue⟩ := ((s.panScans d k.org k.readSpans).die d).vecDone_vec c k
  refine ⟨_, hexec, ?_⟩
  rw [heq, State.releaseLeave_die]
  refine ⟨?_, ?_, ?_, fun ho => ?_, fun e he => ?_⟩
  · exact (congrArg Vec.running hvec).trans hidle
  · refine (congrArg Vec.queue hvec).trans (hqueue.trans ?_)
    rw [Die.vec, hscan.vecs, Die.vec]
  · refine (congrArg MemUnit.cells (State.countTag_mem ..)).trans (hv.cells.trans ?_)
    rw [State.die_modDie_self]
    exact Die.writeOut_cells ⟨hscan.cells, hscan.regions⟩ hscan.seed k
  · refine (State.countTag_tag v d ho).trans ?_
    rw [hv.thread, State.die_modDie_self, Die.vecDone_seq, hscan.thread]
  · rw [State.releaseLeave_die_ne _ _ _ he, State.countTag_die_ne _ _ he, hv.others e he, State.die_modDie_ne _ _ he, hscan.others e he]

theorem exec_vecCommandComplete_whisk (s : State) {d c : Nat} {k : VecCmd} {b : Nat} (hrun : ((s.die d).vec c).running = some k)
    (hk : k.bucket = some b) : ∃ u : State, exec (.vecCommandComplete d c) s = .next u ∧ ((u.die d).vec c).running = none ∧
      ((u.die d).vec c).queue = ((s.die d).vec c).queue := by
  have hexec : exec (.vecCommandComplete d c) s =
      .next ((s.modDie d (fun x => x.modVec c (fun v => { v with running := none }))).whiskVecDone d b k.key k.op) := by
    show execVecCommandComplete d c s = _
    simp only [execVecCommandComplete, hrun, hk]
  have hkept := (State.SameVecWork.refl d (s.modDie d (fun x => x.modVec c (fun v => { v with running := none })))).whiskVecDone b k.key k.op
  refine ⟨_, hexec, ?_, ?_⟩
  · rw [hkept.running, State.die_modDie_self, Die.vec_modVec]
  · rw [hkept.queue, State.die_modDie_self, Die.vec_modVec]

/-! ### SET_PARAM -/

theorem exec_setParam (s : State) {d c t : Nat} {w : W64} (hw : s.issues d c t w 2 1 = true)
    (hbody : bodyOk w (maskOf 45 40 ||| maskOf 31 0) = true) (hticket : wTicket w = 0) :
    ∃ u : State, exec (.setParam d c t w) s = .next u ∧
      ((u.die d).vec c).params = ((s.die d).vec c).params.put (wField w 45 40) (wField w 31 0) ∧
      (u.die d).mem = (s.die d).mem ∧ (∀ e, e ≠ d → u.die e = s.die e) := by
  have hexec : exec (.setParam d c t w) s = .next (s.afterWord d c t w (fun u o =>
      (u.modDie d (fun x => x.modVec c (fun v => { v with params := v.params.put (wField w 45 40) (wField w 31 0) }))).countTag d o)) := by
    refine congrArg Host.Outcome.next ((State.issue_eq hw rfl _).trans (State.afterWord_congr ?_))
    exact State.checked_none (by simp [hbody, hticket, lowestCode]) _
  refine ⟨_, hexec, ?_, ?_, fun e he => ?_⟩
  · simp [State.afterWord, Die.vec, Die.modVec]
  · simp [State.afterWord, Die.modVec]
  · rw [State.afterWord, State.runOff_die_ne _ _ _ he, State.countTag_die_ne _ _ he, State.die_modDie_ne _ _ he,
      State.takeWord_die_ne _ _ _ _ he]

/-- Settles O9, by one lemma per event and one for SET_PARAM. A completed command of a course is cut into reads, writes, digests and the
count of its tag; what the whisk does after its own command adds at most submissions to the units. -/
theorem vectorEventsComplete : Obligations.VectorEventsComplete := by
  refine ⟨fun s d c k => ⟨fun ofWhisk hidle hnext hleave hkat => exec_vecCommandStart s hidle hnext hleave hkat, ?_,
    fun b hrun hk => exec_vecCommandComplete_whisk s hrun hk⟩, fun s d c t w hw hbody hticket => ?_⟩
  · rintro _ hrun hk rfl
    exact exec_vecCommandComplete_course s hrun hk
  · obtain ⟨u, hu, hparams, hmem, hothers⟩ := exec_setParam s hw hbody hticket
    refine ⟨u, hu, ?_, fun k hk => ?_, hmem, hothers⟩
    · rw [hparams, Tab.getD_put_self]
    · rw [hparams, Tab.getD_put_ne _ _ _ hk]

end Sys2Proof.Machine
end

section
/-! SUPPORT. One rule for each operation on fibre pairs, ports and laser bays: what is read after it, and what it leaves alone. -/
namespace Sys2Proof.Machine

/-! ### Pairs -/

@[simp] theorem Die.pair_modPair_self (x : Die) (p : Nat) (f : Pair → Pair) : (x.modPair p f).pair p = f (x.pair p) :=
  Tab.getD_put_self ..
theorem Die.pair_modPair_ne (x : Die) {p q : Nat} (f : Pair → Pair) (h : q ≠ p) : (x.modPair p f).pair q = x.pair q :=
  Tab.getD_put_ne _ _ _ h

@[simp] theorem State.pair_modPair_self (s : State) (d p : Nat) (f : Pair → Pair) : (s.modPair d p f).pair d p = f (s.pair d p) := by
  simp [State.pair, State.modPair]
theorem State.pair_modPair_ne (s : State) {d p e q : Nat} (f : Pair → Pair) (h : (e, q) ≠ (d, p)) :
    (s.modPair d p f).pair e q = s.pair e q := by
  by_cases he : e = d
  · subst he
    have hq : q ≠ p := fun hq => h (by rw [hq])
    simp [State.pair, State.modPair, Die.pair_modPair_ne _ _ hq]
  · simp [State.pair, State.modPair, he]

/-- Only the pair as it stands matters to what is written in its place. -/
theorem State.modPair_congr (s : State) (d p : Nat) {f g : Pair → Pair} (h : f (s.pair d p) = g (s.pair d p)) :
    s.modPair d p f = s.modPair d p g := by
  rw [State.pair] at h
  simp only [State.modPair, State.modDie, Die.modPair, h]

@[simp] theorem State.modPair_panel (s : State) (d p : Nat) (f : Pair → Pair) : (s.modPair d p f).panel = s.panel := rfl
@[simp] theorem State.modPair_outbox (s : State) (d p : Nat) (f : Pair → Pair) : (s.modPair d p f).outbox = s.outbox := rfl
@[simp] theorem State.fresh_pair (s : State) (d p : Nat) : s.fresh.2.pair d p = s.pair d p := rfl
@[simp] theorem State.modDie_pair_self (s : State) (d p : Nat) (f : Die → Die) : (s.modDie d f).pair d p = (f (s.die d)).pair p := by
  simp [State.pair]
@[simp] theorem State.setDie_pair_self (s : State) (d p : Nat) (x : Die) : (s.setDie d x).pair d p = x.pair p := by
  simp [State.pair]

/-! ### Ports and bays -/

@[simp] theorem State.port_modPort_self (s : State) (n : Nat) (f : Port → Port) : (s.modPort n f).port n = f (s.port n) :=
  Tab.getD_put_self ..
theorem State.port_modPort_ne (s : State) {n m : Nat} (f : Port → Port) (h : m ≠ n) : (s.modPort n f).port m = s.port m :=
  Tab.getD_put_ne _ _ _ h
@[simp] theorem State.bay_modBay_self (s : State) (b : Nat) (f : Bay → Bay) : (s.modBay b f).bay b = f (s.bay b) :=
  Tab.getD_put_self ..
theorem State.bay_modBay_ne (s : State) {b c : Nat} (f : Bay → Bay) (h : c ≠ b) : (s.modBay b f).bay c = s.bay c :=
  Tab.getD_put_ne _ _ _ h
@[simp] theorem State.modPort_bay (s : State) (n : Nat) (f : Port → Port) (b : Nat) : (s.modPort n f).bay b = s.bay b := rfl
@[simp] theorem State.modPort_pair (s : State) (n : Nat) (f : Port → Port) (d p : Nat) : (s.modPort n f).pair d p = s.pair d p := rfl

/-! ### Notices: only the hatches, their cells and the log differ -/

/-- A panel without what a notice writes (R430, R461). -/
def Panel.unnoticed (p : Panel) : Panel := { p with hatches := [], chains := [], log := [], logged := 0 }

theorem Panel.queueNotice_unnoticed (p : Panel) (h : Nat) (n : Notice) : (p.queueNotice h n).unnoticed = p.unnoticed :=
  iteInduction (motive := fun q : Panel => q.unnoticed = p.unnoticed) (fun _ => rfl)
    (fun _ => iteInduction (motive := fun q : Panel => q.unnoticed = p.unnoticed) (fun _ => rfl) (fun _ => rfl))

theorem Panel.queueNotice_logged (p : Panel) (h : Nat) (n : Notice) : (p.queueNotice h n).logged = p.logged :=
  iteInduction (motive := fun q : Panel => q.logged = p.logged) (fun _ => rfl)
    (fun _ => iteInduction (motive := fun q : Panel => q.logged = p.logged) (fun _ => rfl) (fun _ => rfl))

/-- A gathering of notices writes its hatch and no other part of the panel. -/
theorem Panel.gather_eq (p : Panel) (h k : Nat) : ∃ t, (p.gather h k).1 = { p with hatches := t } := by
  refine iteInduction (motive := fun q : Panel × List Output => ∃ t, q.1 = { p with hatches := t }) (fun _ => ⟨p.hatches, rfl⟩) (fun _ => ⟨_, rfl⟩)

@[simp] theorem State.gatherNotices_unnoticed (s : State) (h k : Nat) : (s.gatherNotices h k).panel.unnoticed = s.panel.unnoticed := by
  obtain ⟨t, ht⟩ := s.panel.gather_eq h k
  exact (congrArg Panel.unnoticed ht :)

@[simp] theorem State.gatherNotices_logged (s : State) (h k : Nat) : (s.gatherNotices h k).panel.logged = s.panel.logged := by
  obtain ⟨t, ht⟩ := s.panel.gather_eq h k
  exact (congrArg Panel.logged ht :)

theorem State.noticeTo_unnoticed (s : State) (about : Option Nat) (code subject a1 a2 a3 : Nat) :
    (s.noticeTo about code subject a1 a2 a3).panel.unnoticed = s.panel.unnoticed := by
  have hlog : ∀ (p : Panel) (n : Notice), (p.addLog n).unnoticed = p.unnoticed := fun _ _ => rfl
  simp only [State.noticeTo, State.gatherNotices_unnoticed, hlog, apply_ite Panel.unnoticed, Panel.queueNotice_unnoticed, ite_self]

theorem State.noticeTo_logged (s : State) (about : Option Nat) (code subject a1 a2 a3 : Nat) :
    (s.noticeTo about code subject a1 a2 a3).panel.logged = s.panel.logged + 1 := by
  have hlog : ∀ (p : Panel) (n : Notice), (p.addLog n).logged = p.logged + 1 := fun _ _ => rfl
  simp only [State.noticeTo, State.gatherNotices_logged, hlog, apply_ite Panel.logged, Panel.queueNotice_logged, ite_self]

@[simp] theorem State.notice_unnoticed (s : State) (code subject a1 a2 a3 : Nat) :
    (s.notice code subject a1 a2 a3).panel.unnoticed = s.panel.unnoticed := s.noticeTo_unnoticed ..
@[simp] theorem State.notice_logged (s : State) (code subject a1 a2 a3 : Nat) :
    (s.notice code subject a1 a2 a3).panel.logged = s.panel.logged + 1 := s.noticeTo_logged ..
@[simp] theorem State.notice_pair (s : State) (code subject a1 a2 a3 d p : Nat) :
    (s.notice code subject a1 a2 a3).pair d p = s.pair d p := rfl
@[simp] theorem State.notice_port (s : State) (code subject a1 a2 a3 n : Nat) :
    (s.notice code subject a1 a2 a3).port n = s.port n :=
  (congrArg (fun q : Panel => q.port n) (s.notice_unnoticed code subject a1 a2 a3) :)
@[simp] theorem State.notice_bay (s : State) (code subject a1 a2 a3 b : Nat) :
    (s.notice code subject a1 a2 a3).bay b = s.bay b :=
  (congrArg (fun q : Panel => q.bays.getD b {}) (s.notice_unnoticed code subject a1 a2 a3) :)

/-- What a notice sends comes after what has been sent. -/
theorem State.outbox_prefix_notice (s : State) (code subject a1 a2 a3 : Nat) : s.outbox <+: (s.notice code subject a1 a2 a3).outbox :=
  (List.prefix_append _ _).trans (List.prefix_append _ _)

/-! ### Idle frames -/

@[simp] theorem State.sendIdle_outbox (s : State) (d p : Nat) (f : IdleFrame → IdleFrame) :
    (s.sendIdle d p f).outbox = s.outbox ++ [.idle d p (f (s.idleOf d p))] := rfl
@[simp] theorem State.sendIdle_pair_self (s : State) (d p : Nat) (f : IdleFrame → IdleFrame) :
    (s.sendIdle d p f).pair d p = { s.pair d p with sinceIdle := 0 } := State.pair_modPair_self ..

end Sys2Proof.Machine
end

section
/-! SUPPORT. What the hearth's upkeep of ports, presence and ring state (R267 to R272) leaves of pairs, ports and the panel: it writes which
pairs face another port than their neighbour, what a port knows of its neighbour, the fabric's view and notices, and nothing else. -/
namespace Sys2Proof.Machine

/-- A pair without the mark of R267. -/
def Pair.unfaced (k : Pair) : Pair := { k with mismatch := false }

/-- A port without what it knows of its neighbour (R267 to R269, R300). -/
def Port.unfaced (q : Port) : Port :=
  { q with serial := 0, farPort := 0, farValid := false, farCoord := 0, farRing := 0, nbState := 0, known := false, runs := []
           misPort := false, conflict := false, noticeTurn := none }

/-- A panel without its ports, its view of the fabric, and what notices write. -/
def Panel.unfaced (p : Panel) : Panel := { p.unnoticed with ports := [], fabric := {} }

/-- The upkeep of ports may have led from the first state to the second. -/
structure State.Refaced (s t : State) : Prop where
  pair : ∀ e q, (t.pair e q).unfaced = (s.pair e q).unfaced
  port : ∀ n, (t.port n).unfaced = (s.port n).unfaced
  panel : t.panel.unfaced = s.panel.unfaced
  outbox : s.outbox <+: t.outbox

namespace State.Refaced

theorem refl (s : State) : s.Refaced s := ⟨fun _ _ => rfl, fun _ => rfl, rfl, List.prefix_refl _⟩

theorem trans {s t u : State} (h : s.Refaced t) (k : t.Refaced u) : s.Refaced u where
  pair e q := (k.pair e q).trans (h.pair e q)
  port n := (k.port n).trans (h.port n)
  panel := k.panel.trans h.panel
  outbox := h.outbox.trans k.outbox

variable {s t : State}

/-- A pair is what it was, but for its mark. -/
theorem pair_eq (h : s.Refaced t) (e q : Nat) : t.pair e q = { s.pair e q with mismatch := (t.pair e q).mismatch } :=
  (congrArg (fun k : Pair => { k with mismatch := (t.pair e q).mismatch }) (h.pair e q) :)

theorem pairField (h : s.Refaced t) (e q : Nat) {α : Type} (f : Pair → α) : f (t.pair e q).unfaced = f (s.pair e q).unfaced :=
  congrArg f (h.pair e q)

theorem portField (h : s.Refaced t) (n : Nat) {α : Type} (f : Port → α) : f (t.port n).unfaced = f (s.port n).unfaced :=
  congrArg f (h.port n)

theorem panelField (h : s.Refaced t) {α : Type} (f : Panel → α) : f t.panel.unfaced = f s.panel.unfaced := congrArg f h.panel

/-! ### One write of the upkeep -/

theorem modPair (h : s.Refaced t) (d p : Nat) {f : Pair → Pair} (hf : ∀ k, (f k).unfaced = k.unfaced := by exact fun _ => rfl) : s.Refaced (t.modPair d p f) := by
  refine h.trans ⟨fun e q => ?_, fun _ => rfl, rfl, List.prefix_refl _⟩
  by_cases he : (e, q) = (d, p)
  · obtain ⟨rfl, rfl⟩ := Prod.mk.inj he
    rw [State.pair_modPair_self, hf]
  · rw [State.pair_modPair_ne _ _ he]

theorem modPort (h : s.Refaced t) (n : Nat) {f : Port → Port} (hf : ∀ q, (f q).unfaced = q.unfaced := by exact fun _ => rfl) : s.Refaced (t.modPort n f) := by
  refine h.trans ⟨fun _ _ => rfl, fun m => ?_, rfl, List.prefix_refl _⟩
  by_cases hm : m = n
  · rw [hm, State.port_modPort_self, hf]
  · rw [State.port_modPort_ne _ _ hm]

theorem notice (h : s.Refaced t) (code subject a1 a2 a3 : Nat) : s.Refaced (t.notice code subject a1 a2 a3) :=
  h.trans ⟨fun _ _ => rfl, fun _ => congrArg Port.unfaced (t.notice_port ..),
    (congrArg (fun p : Panel => ({ p with ports := [], fabric := {} } : Panel)) (t.notice_unnoticed code subject a1 a2 a3) :),
    t.outbox_prefix_notice ..⟩

theorem withFabric (h : s.Refaced t) (f : FabMod) : s.Refaced { t with panel := { t.panel with fabric := f } } :=
  h.trans ⟨fun _ _ => rfl, fun _ => rfl, rfl, List.prefix_refl _⟩

theorem modDie (h : s.Refaced t) (d : Nat) {f : Die → Die} (hf : ∀ x, (f x).pairs = x.pairs := by exact fun _ => rfl) : s.Refaced (t.modDie d f) := by
  refine h.trans ⟨fun e q => congrArg Pair.unfaced ?_, fun _ => rfl, rfl, List.prefix_refl _⟩
  rw [State.pair, State.pair, State.die_modDie]
  split
  · rw [Die.pair, hf, Die.pair]
  · rfl

theorem ite {c : Prop} [Decidable c] {a b : State} (h : s.Refaced a) (k : s.Refaced b) : s.Refaced (if c then a else b) :=
  iteInduction (motive := s.Refaced) (fun _ => h) (fun _ => k)

theorem foldl {α : Type} {f : State → α → State} (l : List α) (h : s.Refaced t) (k : ∀ u a, s.Refaced u → s.Refaced (f u a)) :
    s.Refaced (l.foldl f t) := List.foldlRecOn l f h fun u hu a _ => k u a hu

/-! ### The upkeep -/

theorem topology (h : s.Refaced t) : s.Refaced t.topology := foldl _ (h.withFabric _) fun _ d hu => hu.modDie d

theorem neighbourNotice (h : s.Refaced t) (port : Nat) : s.Refaced (t.neighbourNotice port) :=
  ite h ((h.modPort port).notice ..)

theorem facePair (h : s.Refaced t) (port : Nat) (q : Nat × Nat) : s.Refaced (t.facePair port q) :=
  ite h (ite (h.modPair _ _) (ite h ((h.modPair _ _).notice ..)))

theorem facePort (h : s.Refaced t) (port : Nat) : s.Refaced (t.facePort port) := by
  have hruns : ∀ r, s.Refaced (t.modPort port (fun q => { q with runs := r })) := fun r => h.modPort port
  unfold State.facePort
  dsimp only
  split
  · exact (hruns _).modPort port
  · refine ite ((hruns _).modPort port) (foldl _ (ite (notice ?_ ..) ?_) fun _ q hu => hu.facePair port q)
    all_goals exact (((hruns _).modPort port).modPair _ _).modPort port

theorem derive (h : s.Refaced t) : s.Refaced t.derive := by
  unfold State.derive
  dsimp only
  split
  · exact foldl _ h fun _ p hu =>
      ite (ite (hu.modPort p) (ite hu ((hu.modPort p).notice ..))) hu
  · split
    · exact h
    · exact h.withFabric _

theorem settlePorts (h : s.Refaced t) (before : State) (hello : Bool) : s.Refaced (before.settlePorts t hello) := by
  have hfaced : s.Refaced ((List.range 8).foldl State.facePort t) := foldl _ h fun _ p hu => hu.facePort p
  have hstates : s.Refaced _ := foldl (f := fun t p =>
    let t1 := t.modPort p (fun q => { q with nbState := t.nbCode p })
    if (before.portPresent p ≠ t1.portPresent p || (before.port p).serial ≠ (t1.port p).serial ||
        (before.port p).farPort ≠ (t1.port p).farPort) then t1.neighbourNotice p else t1) (List.range 8)
    (ite (c := hello && ((List.range 8).foldl State.facePort t).transit) hfaced.derive hfaced) fun u p hu => 
      ite ((hu.modPort p).neighbourNotice p) (hu.modPort p)
  exact ite hstates.topology hstates

theorem presenceChanged (h : s.Refaced t) (before : State) : s.Refaced (before.presenceChanged t) := h.settlePorts before false

theorem refreshRing (h : s.Refaced t) : s.Refaced t.refreshRing := ite h.topology h

end State.Refaced

end Sys2Proof.Machine
end

section
/-! The pair state machine (R244, R245, R248). -/
namespace Sys2Proof.Machine

/-- A pair is written, and the upkeep of ports follows: the pair is what was written, and every other pair what it was, but for the mark. -/
theorem State.Refaced.pair_modPair {s u : State} {d p : Nat} {f : Pair → Pair} (h : (s.modPair d p f).Refaced u) :
    u.pair d p = { f (s.pair d p) with mismatch := (u.pair d p).mismatch } ∧
      ∀ e q, (e, q) ≠ (d, p) → u.pair e q = { s.pair e q with mismatch := (u.pair e q).mismatch } := by
  refine ⟨?_, fun e q he => ?_⟩
  · rw [← State.pair_modPair_self s d p f]
    exact h.pair_eq d p
  · rw [← State.pair_modPair_ne s f he]
    exact h.pair_eq e q

/-! ### Events 1 to 5 -/

theorem exec_pairGoDark (s : State) {d p : Nat} (hdark : s.darkens d p = true) (hstate : (s.pair d p).state ≠ .dark) :
    ∃ u : State, exec (.pairGoDark d p) s = .next u ∧
      (s.modPair d p (fun k => { k.unlink with state := .dark, emission := .none, answered := false })).Refaced u :=
  ⟨_, congrArg Host.Outcome.next (if_neg (by simp [hdark, hstate])), (State.Refaced.refl _).presenceChanged s⟩

theorem exec_pairEnterSafe (s : State) {d p : Nat} (ph : Nat) (hdark : s.darkens d p = false) (hstate : (s.pair d p).state = .dark) :
    exec (.pairEnterSafe d p ph) s =
      .next (s.modPair d p (fun k => { k with state := .safe, emission := .none, answered := false, callPhase := ph })) :=
  congrArg Host.Outcome.next (if_neg (by simp [hdark, hstate]))

theorem exec_call (s : State) {d p : Nat} (hdark : s.darkens d p = false) (hstate : (s.pair d p).state = .safe)
    (hquiet : (s.pair d p).emission = .none) : exec (.call d p) s = .next (s.modPair d p (fun k => { k with emission := .call })) :=
  congrArg Host.Outcome.next (if_neg (by simp [hdark, hstate, hquiet]))

theorem exec_callEnd (s : State) {d p : Nat} (hcall : (s.pair d p).emission = .call) :
    exec (.callEnd d p) s = .next (s.modPair d p (fun k => { k with emission := .none })) :=
  congrArg Host.Outcome.next (if_neg (by simp [hcall]))

theorem exec_lightPresent (s : State) {d p : Nat} (hdark : s.darkens d p = false) (hstate : (s.pair d p).state = .safe) :
    exec (.lightPresent d p) s = .next (s.modPair d p (fun k => { k with light := true, emission := .answer, answered := true })) :=
  congrArg Host.Outcome.next (s.modPair_congr d p (if_pos (by simp [hdark, hstate])))

theorem exec_answerHeard (s : State) {d p : Nat} (full : Bool) (hdark : s.darkens d p = false) (hstate : (s.pair d p).state = .safe)
    (hheard : if full then (s.pair d p).answered = true else (s.pair d p).emission ≠ .none) :
    exec (.answerHeard d p full) s =
      .next (s.modPair d p (fun k => { k with state := .light, emission := .none, answered := false, light := true })) := by
  refine congrArg Host.Outcome.next (if_neg ?_)
  cases full with
  | false => simpa [hdark, hstate] using hheard
  | true => simpa [hdark, hstate] using hheard

/-! ### Training -/

theorem exec_trainingComplete (s : State) {d p tx rx : Nat} (hdark : s.darkens d p = false) (hstate : (s.pair d p).state = .light)
    (htx : tx < 65536) (hrx : rx < 65536) (htx0 : tx ≠ 0) (hrx0 : rx ≠ 0) (hret : tx &&& (s.port (portOf d p)).retired = 0)
    (hasked : (s.pair d p).asked = some tx) (htrained : (s.pair d p).trained = some rx) (hwant : rx &&& (s.pair d p).rxWant.getD 0 = rx) :
    ∃ u : State, exec (.trainingComplete d p tx rx) s = .next u ∧ (s.modPair d p (fun k => { k.fresh with
      state := .run, txLanes := tx, rxLanes := rx, trainFails := 0, trainNoticed := false })).Refaced u := by
  have htxm := Nat.mod_eq_of_lt htx
  have hrxm := Nat.mod_eq_of_lt hrx
  refine ⟨_, congrArg Host.Outcome.next (if_neg (by simp [*])), ?_⟩
  rw [htxm, hrxm]
  exact (State.Refaced.refl _).settlePorts s _

/-- A failed training counts, and the third in a row raises LINK_TRAIN_FAIL once (R245). -/
theorem exec_trainingTimeout (s : State) {d p : Nat} (hdark : s.darkens d p = false) (hstate : (s.pair d p).state = .light) :
    ∃ u : State, exec (.trainingTimeout d p) s = .next u ∧ (u.pair d p).state = .safe ∧
      (u.pair d p).trainFails = (s.pair d p).trainFails + 1 ∧
      (u.pair d p).trainFailCount = satAdd 16 (s.pair d p).trainFailCount 1 ∧
      (if 3 ≤ (s.pair d p).trainFails + 1 ∧ (s.pair d p).trainNoticed = false then u.panel.logged = s.panel.logged + 1
        else u.panel = s.panel) := by
  refine ⟨_, congrArg Host.Outcome.next (if_neg (by simp [hdark, hstate])), ?_⟩
  by_cases hsay : 3 ≤ (s.pair d p).trainFails + 1 ∧ (s.pair d p).trainNoticed = false
  · rw [if_pos (by simpa using hsay), if_pos hsay]
    simp [State.fallSafe, Pair.unlink]
  · rw [if_neg (by simpa using hsay), if_neg hsay]
    simp [State.fallSafe, Pair.unlink]

/-! ### Losses -/

theorem exec_lossOfLight (s : State) {d p : Nat} (hdark : s.darkens d p = false)
    (hstate : (s.pair d p).state = .light ∨ (s.pair d p).lit = true) :
    ∃ u : State, exec (.lossOfLight d p) s = .next u ∧
      (u.pair d p).state = .safe ∧ (u.pair d p).light = false ∧ (u.pair d p).emission = .none ∧
      (u.pair d p).safetyTrips = satAdd 16 (s.pair d p).safetyTrips 1 ∧ (u.pair d p).kept = [] ∧
      (u.pair d p).linkLosts = (if (s.pair d p).lit then satAdd 16 (s.pair d p).linkLosts 1 else (s.pair d p).linkLosts) := by
  have hnot : (s.pair d p).state ≠ .dark ∧ (s.pair d p).state ≠ .safe := by
    rcases hstate with h | h
    · simp [h]
    · constructor <;> intro hk <;> simp [Pair.lit, hk] at h
  refine ⟨_, congrArg Host.Outcome.next ((if_neg (by simp [hdark, hnot])).trans (if_neg hnot.2)), ?_⟩
  have hsettled := fun t : State => ((State.Refaced.refl t).presenceChanged s).pair_eq d p
  rw [hsettled]
  by_cases hlit : (s.pair d p).lit = true
  · simp [hlit, State.fallSafe, Pair.unlink]
  · simp [hlit, State.fallSafe, Pair.unlink]

/-- Event 9: the pair trains again with nothing kept, and the loss counts. -/
theorem State.linkExhausted_pair (s : State) (d p : Nat) : ((s.linkExhausted d p).pair d p).state = .light ∧
    ((s.linkExhausted d p).pair d p).kept = [] ∧
    ((s.linkExhausted d p).pair d p).linkLosts = satAdd 16 (s.pair d p).linkLosts 1 := by
  unfold State.linkExhausted
  rw [((State.Refaced.refl _).presenceChanged s).pair_eq d p]
  simp [Pair.unlink]

theorem exec_linkReplayExhausted (s : State) {d p : Nat} (hdark : s.darkens d p = false) (hstate : (s.pair d p).state = .run)
    (hreplays : 8 ≤ (s.pair d p).replays) : exec (.linkReplayExhausted d p) s = .next (s.linkExhausted d p) :=
  congrArg Host.Outcome.next (if_neg (by simp [hdark, hstate]; omega))

/-- Settles O16, by one lemma per event. Where presence may change, the upkeep of ports follows: it touches no more of a pair than its mark. -/
theorem pairTransitions : Obligations.PairTransitions := by
  intro s d p
  refine ⟨fun hdark hstate => ?_, fun ph hdark hstate => exec_pairEnterSafe s ph hdark hstate, exec_call s, exec_callEnd s,
    exec_lightPresent s, exec_answerHeard s, ?_, exec_trainingTimeout s, exec_lossOfLight s, fun hdark hstate hreplays =>
      ⟨_, exec_linkReplayExhausted s hdark hstate hreplays, s.linkExhausted_pair d p⟩⟩
  · obtain ⟨u, hu, hfaced⟩ := exec_pairGoDark s hdark hstate
    exact ⟨u, hu, hfaced.pair_modPair⟩
  · intro tx rx hdark hstate htx hrx htx0 hrx0 hret hasked htrained hwant
    obtain ⟨u, hu, hfaced⟩ := exec_trainingComplete s hdark hstate htx hrx htx0 hrx0 hret hasked htrained hwant
    exact ⟨u, hu, hfaced.pair_modPair⟩

end Sys2Proof.Machine
end

section
/-! Quiet windows, and the lane maps of a pair (R246, R247, R252, R255). -/
namespace Sys2Proof.Machine

theorem exec_pauseStart (s : State) {d p : Nat} (hdark : s.darkens d p = false) (hstate : (s.pair d p).state = .run)
    (hquiet : (s.pair d p).quiet s.turn = true) : exec (.pauseStart d p) s = .next (s.modPair d p (fun k =>
      { k with state := .paused, unlocked := k.windows.any (fun w => w.2.2 && quietNow w s.turn) })) :=
  congrArg Host.Outcome.next (if_pos (by simp [hdark, hstate, hquiet]))

/-- Past its windows a pair that has its lock runs on: announced maps whose turn has come take effect, in both directions. -/
theorem exec_pauseEnd_locked (s : State) {d p : Nat} (hdark : s.darkens d p = false) (hstate : (s.pair d p).state = .paused)
    (hquiet : (s.pair d p).quiet s.turn = false) (hlock : (s.pair d p).unlocked = false) :
    ∃ u : State, exec (.pauseEnd d p) s = .next u ∧ (u.pair d p).state = .run ∧
      (u.pair d p).pause = (if (s.pair d p).pause.any (fun w => turnCome w.1 s.turn) then none else (s.pair d p).pause) ∧
      (u.pair d p).kept = (s.pair d p).kept ∧
      (u.pair d p).txLanes = lastMap ((s.pair d p).txSet.filter (fun m => turnCome m.2 s.turn)) (s.pair d p).txLanes := by
  refine ⟨_, congrArg Host.Outcome.next ((if_neg (by simp [hdark, hstate, hquiet])).trans (if_neg (by simp [hlock]))), ?_⟩
  rw [State.pair_modPair_self]
  exact ⟨rfl, rfl, rfl, rfl⟩

theorem exec_pauseEnd_unlocked (s : State) {d p : Nat} (hdark : s.darkens d p = false) (hstate : (s.pair d p).state = .paused)
    (hquiet : (s.pair d p).quiet s.turn = false) (hlock : (s.pair d p).unlocked = true) :
    exec (.pauseEnd d p) s = .next (s.linkExhausted d p) :=
  congrArg Host.Outcome.next ((if_neg (by simp [hdark, hstate, hquiet])).trans (if_pos hlock))

theorem exec_relockComplete_inWindow (s : State) {d p : Nat} (hdark : s.darkens d p = false) (hlit : (s.pair d p).lit = true) :
    exec (.relockComplete d p true) s = .next ((s.modPair d p (fun k => { k with unlocked := false })).sendIdle d p (fun f => f)) :=
  congrArg Host.Outcome.next ((if_neg (by simp [hdark, hlit])).trans (if_pos rfl))

theorem exec_relockComplete_late (s : State) {d p : Nat} (hdark : s.darkens d p = false) (hlit : (s.pair d p).lit = true) :
    exec (.relockComplete d p false) s = .next (s.linkExhausted d p) :=
  congrArg Host.Outcome.next ((if_neg (by simp [hdark, hlit])).trans (if_neg Bool.false_ne_true))

theorem exec_laneMapChange (s : State) {d p : Nat} (rx : Bool) (hstate : (s.pair d p).state = .run) :
    exec (.laneMapChange d p rx) s = .next (s.modPair d p (fun k => if rx then k.applyRx s.turn else k.applyTx s.turn)) :=
  congrArg Host.Outcome.next (if_neg (by simp [hstate]))

theorem exec_laneDrop (s : State) {d p lane m : Nat} (hlit : (s.pair d p).lit = true) (hlane : (s.pair d p).rxLanes.testBit lane = true)
    (hm : m = setBit ((s.pair d p).rxWant.getD (lastMap (s.pair d p).rxSet (s.pair d p).rxLanes)) lane false) (hm0 : m ≠ 0) :
    exec (.laneDrop d p lane) s = .next ((s.modPair d p (fun k => { k with rxWant := some m })).sendIdle d p
      (fun f => { f with laneReq := true, laneSet := false, laneNext := m })) := by
  subst hm
  exact congrArg Host.Outcome.next (if_neg (by simp [hlit, hlane, hm0]))

/-- Settles O17, by one lemma per event: a receiver that comes back too late takes event 9 (R246), as an exhausted link does. -/
theorem quietWindowsAndLanes : Obligations.QuietWindowsAndLanes := by
  intro s d p hdark
  obtain ⟨hlight, hkept, hlost⟩ := s.linkExhausted_pair d p
  refine ⟨exec_pauseStart s hdark, exec_pauseEnd_locked s hdark, fun hstate hquiet hlock =>
    ⟨_, exec_pauseEnd_unlocked s hdark hstate hquiet hlock, hlight, hkept, hlost⟩, fun hlit => ⟨?_, ?_⟩,
    fun hstate => ⟨exec_laneMapChange s true hstate, exec_laneMapChange s false hstate⟩, fun lane m hlit hlane hm hm0 => ?_⟩
  · exact ⟨_, _, exec_relockComplete_inWindow s hdark hlit, rfl, by simp, by simp⟩
  · exact ⟨_, exec_relockComplete_late s hdark hlit, hlight, hkept⟩
  · exact ⟨_, _, exec_laneDrop s hlit hlane hm hm0, by simp, rfl, rfl, rfl⟩

end Sys2Proof.Machine
end

section
/-! FLIT_SEND: idle frames, replays, packets and credits (R240, R241, R245, R278, R281, R292, R293, R311). -/
namespace Sys2Proof.Machine

/-! ### A freed slot, and a numbered flit -/

/-- A freed slot gives its credit back to the pair that the packet came over, and changes nothing else of a die. -/
theorem Die.freeSlot_frame (x : Die) (a : Arrival) : ({ x.freeSlot a with pairs := x.pairs } : Die) = x := by
  cases a <;> rfl

theorem Die.freeSlot_field (x : Die) (a : Arrival) {α : Type} (f : Die → α) : f { x.freeSlot a with pairs := x.pairs } = f x :=
  congrArg f (x.freeSlot_frame a)

@[simp] theorem Die.freeSlot_fab (x : Die) (a : Arrival) : (x.freeSlot a).fab = x.fab := x.freeSlot_field a Die.fab
@[simp] theorem Die.freeSlot_rem (x : Die) (a : Arrival) : (x.freeSlot a).rem = x.rem := x.freeSlot_field a Die.rem

/-- A pair without the credits that it owes. -/
def Pair.paid (k : Pair) : Pair := { k with owe := [], oweShared := 0 }

theorem Die.freeSlot_pair (x : Die) (a : Arrival) (p : Nat) : ((x.freeSlot a).pair p).paid = (x.pair p).paid := by
  cases a with
  | pair q v sh =>
    by_cases hp : p = q
    · subst hp
      cases sh <;> exact (congrArg Pair.paid (Die.pair_modPair_self ..) :)
    · exact congrArg Pair.paid (Die.pair_modPair_ne _ _ hp)
  | inject => rfl
  | mesh => rfl

theorem Die.freeSlot_pair_field (x : Die) (a : Arrival) (p : Nat) {α : Type} (f : Pair → α) :
    f ((x.freeSlot a).pair p).paid = f (x.pair p).paid := congrArg f (x.freeSlot_pair a p)

/-- What credits return takes from what a pair owes, and nothing else. -/
theorem Pair.returns_paid (k : Pair) : k.returns.2.paid = k.paid := by
  unfold Pair.returns
  split <;> rfl

@[simp] theorem Pair.returns_kept (k : Pair) : k.returns.2.kept = k.kept := (congrArg Pair.kept k.returns_paid :)
@[simp] theorem Pair.returns_txNext (k : Pair) : k.returns.2.txNext = k.txNext := (congrArg Pair.txNext k.returns_paid :)

theorem Pair.returns_shared (k : Pair) : k.returns.1.sharedN = min k.oweShared 63 ∧ k.returns.1.isNull = false ∧
    k.returns.2.oweShared = k.oweShared - min k.oweShared 63 := by
  unfold Pair.returns
  split <;> exact ⟨rfl, rfl, rfl⟩

/-- A packet that leaves counts with its bytes (R480). -/
def State.countSent (s : State) (d p : Nat) (q : Packet) : State :=
  s.modDie d (fun x => x.countPort p (fun c => { c with txFlits := c.txFlits + 1, txBytes := c.txBytes + q.payload.length }))

/-- A flit goes onto the fibre. -/
def State.emitFlit (s : State) (d p : Nat) (f : KeptFlit) : State :=
  let t := match f.body with
    | some q => s.countSent d p q
    | none => s
  { t with outbox := t.outbox ++ [.flit d p f.seq f.link f.body] }

/-- The first sending of a flit: it is numbered, kept, and goes onto the fibre. -/
theorem State.putFlit_eq (s : State) (d p : Nat) (l : LinkWord) (b : Option Packet) : s.putFlit d p l b =
    (s.modPair d p (fun k => { k with
      txNext := ((s.pair d p).txNext + 1) % 65536
      kept := k.kept ++ [{ seq := (s.pair d p).txNext, link := l, body := b }]
      sinceIdle := k.sinceIdle + 1 })).emitFlit d p { seq := (s.pair d p).txNext, link := l, body := b } := by
  cases b <;> rfl

@[simp] theorem State.emitFlit_outbox (s : State) (d p : Nat) (f : KeptFlit) :
    (s.emitFlit d p f).outbox = s.outbox ++ [.flit d p f.seq f.link f.body] := by
  obtain ⟨seq, link, body⟩ := f
  cases body <;> rfl

theorem State.countSent_die (s : State) (d p : Nat) (q : Packet) (e : Nat) :
    ({ (s.countSent d p q).die e with obs := (s.die e).obs } : Die) = s.die e := by
  rw [State.countSent, State.die_modDie]
  split <;> rfl

/-- A flit that goes out changes no pair and no fabric interface. -/
theorem State.emitFlit_die (s : State) (d p : Nat) (f : KeptFlit) (e : Nat) :
    ({ (s.emitFlit d p f).die e with obs := (s.die e).obs } : Die) = s.die e := by
  obtain ⟨seq, link, body⟩ := f
  cases body with
  | none => rfl
  | some q => exact s.countSent_die d p q e

@[simp] theorem State.emitFlit_pair (s : State) (d p : Nat) (f : KeptFlit) (e q : Nat) : (s.emitFlit d p f).pair e q = s.pair e q :=
  (congrArg (fun x : Die => x.pair q) (s.emitFlit_die d p f e) :)
@[simp] theorem State.emitFlit_fab (s : State) (d p : Nat) (f : KeptFlit) (e : Nat) : ((s.emitFlit d p f).die e).fab = (s.die e).fab :=
  (congrArg Die.fab (s.emitFlit_die d p f e) :)
@[simp] theorem State.modPair_fab (s : State) (d p : Nat) (f : Pair → Pair) (e : Nat) : ((s.modPair d p f).die e).fab = (s.die e).fab := by
  rw [State.modPair, State.die_modDie]
  split <;> rfl

@[simp] theorem State.sendIdle_fab (s : State) (d p : Nat) (f : IdleFrame → IdleFrame) (e : Nat) :
    ((s.sendIdle d p f).die e).fab = (s.die e).fab := State.modPair_fab ..

/-- The pair after a packet of channel `v`: what it owes returns, and a credit is spent, reserved before shared (R278, R292). -/
def Pair.spend (k : Pair) (v : Nat) : Pair :=
  if (k.credit v).getD false then { k.returns.2 with sharedSpent := k.returns.2.sharedSpent + 1 }
  else { k.returns.2 with spent := k.returns.2.spent.put v (k.returns.2.spent.getD v 0 + 1) }

theorem Pair.spend_numbers (k : Pair) (v : Nat) : (k.spend v).kept = k.kept ∧ (k.spend v).txNext = k.txNext := by
  unfold Pair.spend
  split <;> exact ⟨k.returns_kept, k.returns_txNext⟩

/-- The die after its packet `h`, at place `i` of its buffers, has left over pair `p`; the arbitration stands at class `c`. -/
def Die.release (x : Die) (p c left i : Nat) (h : Held) : Die :=
  let y := (x.modPair p (fun _ => (x.pair p).spend h.outV)).freeSlot h.from_
  let z : Die := { y with fab := { y.fab with
    held := y.fab.held.eraseIdx i, arb := y.fab.arb.put p (c, left), exitRr := y.fab.exitRr.put (100 + 4 * p + c) h.from_.number } }
  if ((x.pair p).credit h.outV).getD false then z.bumpBoth evShared 1 else z

theorem Die.release_held (x : Die) (p c left i : Nat) (h : Held) : (x.release p c left i h).fab.held = x.fab.held.eraseIdx i := by
  have hfab := (x.modPair p (fun _ => (x.pair p).spend h.outV)).freeSlot_fab h.from_
  unfold Die.release
  split <;> exact (congrArg (fun f : Fabric => f.held.eraseIdx i) hfab :)

/-- What is left in the pair but for its credits. -/
theorem Die.release_pair (x : Die) (p c left i : Nat) (h : Held) : ((x.release p c left i h).pair p).paid = ((x.pair p).spend h.outV).paid := by
  have hslot := (x.modPair p (fun _ => (x.pair p).spend h.outV)).freeSlot_pair h.from_ p
  rw [Die.pair_modPair_self] at hslot
  unfold Die.release
  split <;> exact hslot

theorem Die.release_kept (x : Die) (p c left i : Nat) (h : Held) : ((x.release p c left i h).pair p).kept = (x.pair p).kept :=
  (congrArg Pair.kept (x.release_pair p c left i h) :).trans ((x.pair p).spend_numbers h.outV).1

theorem Die.release_txNext (x : Die) (p c left i : Nat) (h : Held) : ((x.release p c left i h).pair p).txNext = (x.pair p).txNext :=
  (congrArg Pair.txNext (x.release_pair p c left i h) :).trans ((x.pair p).spend_numbers h.outV).2

/-! ### Idle frames -/

theorem State.measureLanes_outbox (s : State) (d p : Nat) : (s.measureLanes d p).outbox = s.outbox :=
  iteInduction (motive := fun u : State => u.outbox = s.outbox) (fun _ => rfl) (fun _ => rfl)

theorem exec_flitSend_training (s : State) {d p : Nat} (hstate : (s.pair d p).state = .light ∨ (s.pair d p).state = .paused)
    (hgap : (s.port (portOf d p)).gap = false) :
    exec (.flitSend d p) s = .next ((s.measureLanes d p).sendIdle d p (fun f => f)) :=
  congrArg Host.Outcome.next ((if_pos (by rw [← State.pair]; simpa using hstate)).trans (if_neg (by simp [hgap])))

theorem arbClass_none (w : Nat → Nat) (n c left : Nat) : arbClass w (fun _ => false) n c left = none := by
  induction n generalizing c left with
  | zero => rfl
  | succ n ih => simp [arbClass, ih]

section
variable (s : State) {d p : Nat} (hstate : (s.pair d p).state = .run)
include hstate

/-- The guards that a pair in RUN passes before it sends data. -/
theorem flitSend_guards : ¬ (decide (((s.die d).pair p).state = .light) || decide (((s.die d).pair p).state = .paused)) = true ∧
    ¬ ((s.die d).pair p).state ≠ .run := by
  rw [State.pair] at hstate
  simp [hstate]

theorem exec_flitSend_overdue (hsince : 1024 ≤ (s.pair d p).sinceIdle) :
    exec (.flitSend d p) s = .next (s.sendIdle d p (fun f => f)) := by
  obtain ⟨hdata, hrun⟩ := flitSend_guards s hstate
  exact congrArg Host.Outcome.next ((if_neg hdata).trans ((if_neg hrun).trans (if_pos hsince)))

variable (hsince : (s.pair d p).sinceIdle < 1024)
include hsince

theorem exec_flitSend_replay {i : Nat} {f : KeptFlit} (h : (s.pair d p).resend = some i)
    (hf : (s.pair d p).kept[i]? = some f) : exec (.flitSend d p) s = .next ((s.modPair d p (fun k => { k with
      resend := if i + 1 < k.kept.length then some (i + 1) else none, sinceIdle := k.sinceIdle + 1 })).emitFlit d p f) := by
  obtain ⟨hdata, hrun⟩ := flitSend_guards s hstate
  refine congrArg Host.Outcome.next ((if_neg hdata).trans ((if_neg hrun).trans ((if_neg (Nat.not_le.mpr hsince)).trans ?_)))
  rw [State.pair] at h hf
  rw [h]
  dsimp only
  rw [hf]
  obtain ⟨seq, link, body⟩ := f
  cases body <;> rfl

variable (hresend : (s.pair d p).resend = none)
include hresend

theorem exec_flitSend_full (hfull : 8192 ≤ (s.pair d p).kept.length) :
    exec (.flitSend d p) s = .next (s.sendIdle d p (fun f => f)) := by
  obtain ⟨hdata, hrun⟩ := flitSend_guards s hstate
  refine congrArg Host.Outcome.next ((if_neg hdata).trans ((if_neg hrun).trans ((if_neg (Nat.not_le.mpr hsince)).trans ?_)))
  rw [State.pair] at hresend
  rw [hresend]
  exact if_pos hfull

variable (hroom : (s.pair d p).kept.length < 8192)
include hroom

/-- Nothing may leave, and no credit waits to return. -/
theorem exec_flitSend_idle 
    (hnone : (s.die d).eligible d p = [] ∨ s.carries d = false ∨ (s.port (portOf d p)).faces = false)
    (hsh : (s.pair d p).oweShared = 0) (howe : (s.pair d p).owe.any (fun e => e.2 ≠ 0) = false) :
    exec (.flitSend d p) s = .next (s.sendIdle d p (fun f => f)) := by
  have hoffers : (if s.carries d && (s.port (portOf d p)).faces then (s.die d).eligible d p else []) = [] := by
    rcases hnone with h | h | h <;> simp [h]
  obtain ⟨hdata, hrun⟩ := flitSend_guards s hstate
  refine congrArg Host.Outcome.next ((if_neg hdata).trans ((if_neg hrun).trans ((if_neg (Nat.not_le.mpr hsince)).trans ?_)))
  rw [State.pair] at hresend hsh howe
  rw [hresend]
  refine (if_neg (Nat.not_le.mpr hroom)).trans ?_
  simp only [hoffers, List.any_nil, arbClass_none, hsh, howe]
  rfl

theorem exec_flitSend_null (hnone : (s.die d).eligible d p = []) (hsh : (s.pair d p).oweShared ≠ 0) :
    exec (.flitSend d p) s = .next ((s.modPair d p (fun _ => (s.pair d p).returns.2)).putFlit d p
      { (s.pair d p).returns.1 with isNull := true } none) := by
  obtain ⟨hdata, hrun⟩ := flitSend_guards s hstate
  refine congrArg Host.Outcome.next ((if_neg hdata).trans ((if_neg hrun).trans ((if_neg (Nat.not_le.mpr hsince)).trans ?_)))
  rw [State.pair] at hresend hsh
  rw [hresend]
  refine (if_neg (Nat.not_le.mpr hroom)).trans ?_
  simp only [hnone, ite_self, List.any_nil, arbClass_none]
  exact if_pos (by simp [hsh])

section
variable {c left i : Nat} {h : Held} (hcar : s.carries d = true) (hface : (s.port (portOf d p)).faces = true)
  (harb : arbClass (s.die d).fab.weight (fun c => ((s.die d).eligible d p).any (fun h => h.2.pkt.cls = c)) 5
      ((s.die d).fab.arb.getD p (0, (s.die d).fab.weight 0)).1 ((s.die d).fab.arb.getD p (0, (s.die d).fab.weight 0)).2 = some (c, left))
  (hpick : pickWithin (fun h => h.outV % 8) ((s.die d).fab.exitRr.getD (100 + 4 * p + c) 0)
      (((s.die d).eligible d p).filter (fun h => h.2.pkt.cls = c)) = some (i, h))
include hcar hface harb hpick

theorem exec_flitSend_aged (hold : tooOld s.turn h.pkt = true) (hfrom : h.from_ ≠ .inject) :
    exec (.flitSend d p) s = .next (s.setDie d ((({ s.die d with
      fab := { (s.die d).fab with held := (s.die d).fab.held.eraseIdx i } } : Die).freeSlot h.from_).countDrop 4)) := by
  obtain ⟨hdata, hrun⟩ := flitSend_guards s hstate
  refine congrArg Host.Outcome.next ((if_neg hdata).trans ((if_neg hrun).trans ((if_neg (Nat.not_le.mpr hsince)).trans ?_)))
  rw [State.pair] at hresend
  rw [hresend]
  refine (if_neg (Nat.not_le.mpr hroom)).trans ?_
  simp only [hcar, hface, Bool.and_self, if_true, harb, hpick]
  exact if_pos (by simp [hold, hfrom])

/-- The packet that the arbitration picks: its credit is spent, it leaves the die's buffers, and a flit carries it. -/
theorem exec_flitSend_packet (hyoung : tooOld s.turn h.pkt = false ∨ h.from_ = .inject) : exec (.flitSend d p) s =
    .next ((s.setDie d ((s.die d).release p c left i h)).putFlit d p
      { (s.pair d p).returns.1 with usedShared := ((s.pair d p).credit h.outV).getD false }
      (some { h.pkt with phase := h.outV % 8, ttl := h.pkt.ttl - 1 })) := by
  obtain ⟨hdata, hrun⟩ := flitSend_guards s hstate
  refine congrArg Host.Outcome.next ((if_neg hdata).trans ((if_neg hrun).trans ((if_neg (Nat.not_le.mpr hsince)).trans ?_)))
  rw [State.pair] at hresend
  rw [hresend]
  refine (if_neg (Nat.not_le.mpr hroom)).trans ?_
  simp only [hcar, hface, Bool.and_self, if_true, harb, hpick]
  exact if_neg (by rcases hyoung with hy | hy <;> simp [hy])

end
end

/-- Settles O18, by one lemma per kind of what leaves: an idle frame, a kept flit, a packet or a NULL flit; or a packet too old is dropped. -/
theorem flitSendNumbersAndKeeps : Obligations.FlitSendNumbersAndKeeps := by
  intro s d p
  refine ⟨fun hstate hgap => ?_, fun hstate hidle => ?_, fun i f hstate hsince hresend hf => ?_,
    fun c left i h hcar hface hstate hsince hresend hroom harb hpick => ⟨fun hyoung => ?_, fun hold hfrom => ?_⟩,
    fun hstate hsince hresend hroom hnone hsh => ?_⟩
  · exact ⟨_, _, exec_flitSend_training s hstate hgap, by rw [State.sendIdle_outbox, State.measureLanes_outbox]⟩
  · have hsend : exec (.flitSend d p) s = .next (s.sendIdle d p (fun f => f)) := by
      rcases Nat.lt_or_ge (s.pair d p).sinceIdle 1024 with hsince | hsince
      · rcases hidle with h | ⟨hresend, hfull⟩ | ⟨hresend, hnone, hsh, howe⟩
        · omega
        · exact exec_flitSend_full s hstate hsince hresend hfull
        · rcases Nat.lt_or_ge (s.pair d p).kept.length 8192 with hroom | hfull
          · exact exec_flitSend_idle s hstate hsince hresend hroom hnone hsh howe
          · exact exec_flitSend_full s hstate hsince hresend hfull
      · exact exec_flitSend_overdue s hstate hsince
    exact ⟨_, _, hsend, State.sendIdle_outbox .., by simp⟩
  · exact ⟨_, exec_flitSend_replay s hstate hsince hresend hf, by simp, by simp, by simp, by simp⟩
  · have hkept := (s.die d).release_kept p c left i h
    have hnext := (s.die d).release_txNext p c left i h
    rw [← State.pair] at hkept hnext
    exact ⟨_, { (s.pair d p).returns.1 with usedShared := ((s.pair d p).credit h.outV).getD false },
      exec_flitSend_packet s hstate hsince hresend hroom hcar hface harb hpick hyoung, (s.pair d p).returns_shared.2.1,
      by simp [State.putFlit_eq, hnext], by simp [State.putFlit_eq, hkept, hnext], by simp [State.putFlit_eq, hnext],
      by simp [State.putFlit_eq, Die.release_held]⟩
  · refine ⟨_, exec_flitSend_aged s hstate hsince hresend hroom hcar hface harb hpick hold hfrom, rfl, ?_⟩
    rw [State.die_setDie_self]
    simp [Die.countDrop]
  · obtain ⟨hshared, -, howe⟩ := (s.pair d p).returns_shared
    exact ⟨_, { (s.pair d p).returns.1 with isNull := true }, exec_flitSend_null s hstate hsince hresend hroom hnone hsh, rfl, hshared,
      by simp [State.putFlit_eq], by simp [State.putFlit_eq, howe], by simp [State.putFlit_eq]⟩

end Sys2Proof.Machine
end

section
/-! Flits and idle frames that arrive, and replays (R239 to R242, R277, R278, R280). -/
namespace Sys2Proof.Machine

/-! ### The body of a flit at the fabric interface -/

/-- The first bytes of a string are those of the longer part of it from its start. -/
theorem leNat_take {n m : Nat} (h : n ≤ m) (bs : Bytes) : leNat n (bs.take m) = leNat n bs := by
  induction n generalizing m bs with
  | zero => rfl
  | succ n ih =>
    obtain ⟨m, rfl⟩ : ∃ k, m = k + 1 := ⟨m - 1, by omega⟩
    cases bs with
    | nil => rfl
    | cons b bs => simp only [List.take_succ_cons, leNat, ih (Nat.le_of_succ_le_succ h)]

/-- A pair without its credits and those that it owes. -/
def Pair.uncredited (k : Pair) : Pair := { k with spent := [], sharedSpent := 0, owe := [], oweShared := 0 }

theorem Die.enqueue_pair (x : Die) (a : Arrival) (port : Nat) (q : Packet) (p : Nat) : (x.enqueue a port q).pair p = x.pair p := by
  unfold Die.enqueue
  dsimp only
  split <;> rfl

theorem Die.enqueue_held (x : Die) (a : Arrival) (port : Nat) (q : Packet) : (x.enqueue a port q).fab.held =
    x.fab.held ++ [{ pkt := { q with mark := q.mark || x.marked a q }, from_ := a, port := port }] := by
  unfold Die.enqueue
  dsimp only
  split <;> rfl

/-- The credits that a link word returns (R278, R292). -/
def Die.takeCredits (x : Die) (p : Nat) (l : LinkWord) : Die :=
  x.modPair p (fun k => { k with
    spent := if l.creditN = 0 then k.spent else k.spent.put l.creditQ (k.spent.getD l.creditQ 0 - l.creditN)
    sharedSpent := k.sharedSpent - l.sharedN })

theorem Die.takeCredits_pair (x : Die) (p : Nat) (l : LinkWord) : ((x.takeCredits p l).pair p).uncredited = (x.pair p).uncredited := by
  rw [Die.takeCredits, Die.pair_modPair_self]
  rfl

/-- A flit body changes no more of its pair than credits. -/
theorem Die.takeBody_pair (x : Die) (d p : Nat) (carries : Bool) (bs : Bytes) :
    ((x.takeBody d p carries bs).pair p).uncredited = (x.pair p).uncredited := by
  have hslot : ∀ (y : Die) a, ((y.freeSlot a).pair p).uncredited = (y.pair p).uncredited := fun y a =>
    y.freeSlot_pair_field a p Pair.uncredited
  have hcredit := x.takeCredits_pair p (LinkWord.decode (leAt bs 0 4))
  unfold Die.takeBody
  dsimp only
  split
  · exact hcredit
  · split
    · exact (hslot ..).trans hcredit
    · split
      · exact (hslot ..).trans hcredit
      · rw [Die.enqueue_pair]
        exact hcredit

/-- A die that carries no packets takes none (R48, R436). -/
theorem Die.takeBody_uncarried (x : Die) (d p : Nat) (bs : Bytes) (hnull : (LinkWord.decode (leAt bs 0 4)).isNull = false) :
    (x.takeBody d p false bs).fab = x.fab := by
  unfold Die.takeBody
  simp only [hnull, Bool.false_eq_true, if_false, Bool.not_false, if_true, Die.freeSlot_fab]
  rfl

theorem Die.takeBody_carried (x : Die) (d p : Nat) (bs : Bytes) (hnull : (LinkWord.decode (leAt bs 0 4)).isNull = false)
    (hodd : (Packet.decode (bs.drop 4)).odd = false) : ∃ h : Held, (x.takeBody d p true bs).fab.held = x.fab.held ++ [h] ∧
      h.port = portOf d p ∧ h.route = none ∧ ∃ m, h.pkt = { Packet.decode (bs.drop 4) with mark := m } := by
  unfold Die.takeBody
  simp only [hnull, hodd, Bool.false_eq_true, if_false, Bool.not_true, Die.enqueue_held]
  exact ⟨_, rfl, rfl, rfl, _, rfl⟩

/-! ### FLIT_RECEIVE -/

/-- The codewords of a flit count (R239). -/
def State.countCodewords (s : State) (d p corrected uncorrectable : Nat) : State :=
  s.modPair d p (fun k => { k with
    fecCorrected := satAdd 32 k.fecCorrected corrected, fecUncorrectable := satAdd 16 k.fecUncorrectable uncorrectable })

section
variable (s : State) {d p corrected uncorrectable : Nat} {flit : Bytes} (hlit : (s.pair d p).lit = true) (hlen : flit.length = 256)
  (hdisc : (s.pair d p).discarding = false) (hskip : (s.pair d p).skip = 0) (hexp : (s.pair d p).expected < 65536)
include hlit hlen hdisc hskip hexp

theorem exec_flitReceive_good (hfec : uncorrectable = 0) (hcrc : leAt flit 252 4 = flitCrc (s.pair d p).expected (flit.take 252)) :
    exec (.flitReceive d p flit corrected uncorrectable) s = .next (((s.countCodewords d p corrected uncorrectable).modDie d
      (fun x => x.takeBody d p (s.carries d) (flit.take 252))).modPair d p (fun k => { k with expected := (k.expected + 1) % 65536 })) := by
  have hseq : ((s.pair d p).expected + 65536 - (s.pair d p).skip) % 65536 = (s.pair d p).expected := by rw [hskip]; omega
  refine congrArg Host.Outcome.next ((if_neg (by simp [hlit, hlen])).trans ((if_neg (by simp [hdisc])).trans
    ((if_neg ?_).trans (if_neg (by simp [hskip])))))
  simp [hseq, hfec, hcrc]

theorem exec_flitReceive_bad (hbad : uncorrectable ≠ 0 ∨ leAt flit 252 4 ≠ flitCrc (s.pair d p).expected (flit.take 252)) :
    exec (.flitReceive d p flit corrected uncorrectable) s = .next (((s.countCodewords d p corrected uncorrectable).modPair d p
      (fun k => { k with discarding := true })).sendIdle d p (fun f => { f with nak := true, nakSeq := (s.pair d p).expected })) := by
  have hseq : ((s.pair d p).expected + 65536 - (s.pair d p).skip) % 65536 = (s.pair d p).expected := by rw [hskip]; omega
  refine congrArg Host.Outcome.next ((if_neg (by simp [hlit, hlen])).trans ((if_neg (by simp [hdisc])).trans (if_pos ?_)))
  simpa [hseq] using hbad

end

/-- After the body of a good flit, the pair is what the counts of its codewords make it, but for credits and the next number. -/
theorem State.flitTaken_pair (s : State) (d p corrected uncorrectable : Nat) (carries : Bool) (bs : Bytes) {u : State}
    (hu : u = ((s.countCodewords d p corrected uncorrectable).modDie d (fun x => x.takeBody d p carries bs)).modPair d p
      (fun k => { k with expected := (k.expected + 1) % 65536 })) :
    (u.pair d p).expected = ((s.pair d p).expected + 1) % 65536 ∧
      (u.pair d p).fecCorrected = satAdd 32 (s.pair d p).fecCorrected corrected := by
  have hbody := ((s.countCodewords d p corrected uncorrectable).die d).takeBody_pair d p carries bs
  have hcount : ((s.countCodewords d p corrected uncorrectable).die d).pair p = { s.pair d p with
      fecCorrected := satAdd 32 (s.pair d p).fecCorrected corrected
      fecUncorrectable := satAdd 16 (s.pair d p).fecUncorrectable uncorrectable } := s.pair_modPair_self d p _
  rw [hcount] at hbody
  rw [hu, State.pair_modPair_self, State.modDie_pair_self]
  exact ⟨(congrArg (fun k : Pair => (k.expected + 1) % 65536) hbody :), (congrArg Pair.fecCorrected hbody :)⟩

@[simp] theorem State.countCodewords_fab (s : State) (d p corrected uncorrectable e : Nat) :
    ((s.countCodewords d p corrected uncorrectable).die e).fab = (s.die e).fab := s.modPair_fab ..

/-! ### Acknowledgements and replays (R241) -/

/-- What an acknowledgement changes is the kept flits, their replay and the count of replays without progress. -/
theorem Pair.acked_frame (k : Pair) (ack : Nat) :
    ({ k.acked ack with kept := k.kept, resend := k.resend, replays := k.replays } : Pair) = k := by
  unfold Pair.acked
  split
  · rfl
  · dsimp only
    split <;> rfl

@[simp] theorem Pair.acked_expected (k : Pair) (ack : Nat) : (k.acked ack).expected = k.expected :=
  (congrArg Pair.expected (k.acked_frame ack) :)
@[simp] theorem Pair.acked_replayCount (k : Pair) (ack : Nat) : (k.acked ack).replayCount = k.replayCount :=
  (congrArg Pair.replayCount (k.acked_frame ack) :)

/-- Which flits an acknowledgement frees depends on the kept flits alone. -/
theorem Pair.acked_kept_congr {k m : Pair} (h : k.kept = m.kept) (ack : Nat) : (k.acked ack).kept = (m.acked ack).kept := by
  unfold Pair.acked
  rw [h]
  split
  · exact h
  · dsimp only
    split
    · exact h
    · rfl

theorem State.replayFrom_pair (s : State) (d p first : Nat) : (s.replayFrom d p first).pair d p = { s.pair d p with
    resend := (s.pair d p).kept.findIdx? (fun f => f.seq = first), replays := (s.pair d p).replays + 1
    replayCount := satAdd 16 (s.pair d p).replayCount 1, sinceIdle := 0 } := by
  rw [State.replayFrom, State.sendIdle_pair_self, State.pair_modPair_self]

/-- A replay is announced with the number that it starts from. -/
theorem State.replayFrom_outbox (s : State) (d p first : Nat) : ∃ g : IdleFrame,
    (s.replayFrom d p first).outbox = s.outbox ++ [.idle d p g] ∧ g.replay = true ∧ g.txNext = first := ⟨_, rfl, rfl, rfl⟩

theorem exec_replayTimeout (s : State) {d p : Nat} {f : KeptFlit} {rest : List KeptFlit} (hstate : (s.pair d p).state = .run)
    (hkept : (s.pair d p).kept = f :: rest) : exec (.replayTimeout d p) s = .next (s.replayFrom d p f.seq) := by
  show execReplayTimeout d p s = _
  simp [execReplayTimeout, hstate, hkept]

theorem exec_nakResend (s : State) {d p : Nat} (hlit : (s.pair d p).lit = true) (hdisc : (s.pair d p).discarding = true) :
    exec (.nakResend d p) s = .next (s.sendIdle d p (fun f => { f with nak := true, nakSeq := (s.pair d p).expected })) :=
  congrArg Host.Outcome.next (if_neg (by simp [hlit, hdisc]))

/-! ### What quiet windows, lane maps and hellos leave alone -/

/-- The part of a pair that the link layer numbers and keeps flits by. -/
def Pair.flow (k : Pair) : List KeptFlit × Nat × Bool × Nat × Nat := (k.kept, k.expected, k.discarding, k.skip, k.replayCount)

/-- The flits of pair `p` of die `d` and the time base stand, and what was sent stays sent. -/
structure State.SameFlow (d p : Nat) (s t : State) : Prop where
  flow : (t.pair d p).flow = (s.pair d p).flow
  time : t.panel.time = s.panel.time
  outbox : s.outbox <+: t.outbox

namespace State.SameFlow
variable {d p : Nat} {s t : State}

theorem refl (d p : Nat) (s : State) : State.SameFlow d p s s := ⟨rfl, rfl, List.prefix_refl _⟩

theorem modPair (h : State.SameFlow d p s t) {f : Pair → Pair} (hf : ∀ k, (f k).flow = k.flow := by exact fun _ => rfl) :
    State.SameFlow d p s (t.modPair d p f) := ⟨by rw [State.pair_modPair_self, hf, h.flow], h.time, h.outbox⟩

theorem sendIdle (h : State.SameFlow d p s t) (f : IdleFrame → IdleFrame) : State.SameFlow d p s (t.sendIdle d p f) :=
  modPair (t := { t with outbox := t.outbox ++ [.idle d p (f (t.idleOf d p))] })
    ⟨h.flow, h.time, h.outbox.trans (List.prefix_append _ _)⟩

theorem refaced {u : State} (h : State.SameFlow d p s t) (k : t.Refaced u) : State.SameFlow d p s u where
  flow := (k.pairField d p Pair.flow).trans h.flow
  time := (k.panelField Panel.time).trans h.time
  outbox := h.outbox.trans k.outbox

theorem ite {c : Prop} [Decidable c] {a b : State} (h : State.SameFlow d p s a) (k : State.SameFlow d p s b) :
    State.SameFlow d p s (if c then a else b) := iteInduction (motive := State.SameFlow d p s) (fun _ => h) (fun _ => k)

theorem takePause (h : State.SameFlow d p s t) (f : IdleFrame) : State.SameFlow d p s (t.takePause d p f) :=
  ite (h.modPair.sendIdle _) (ite h.modPair h)

theorem takeLanes (h : State.SameFlow d p s t) (f : IdleFrame) : State.SameFlow d p s (t.takeLanes d p f) := by
  refine ite (modPair ?_) (ite ?_ (ite (modPair ?_) (ite ?_ (modPair ?_))))
  all_goals exact ite h (ite h.modPair (ite h (h.modPair.sendIdle _)))

theorem hear (h : State.SameFlow d p s t) (a : Bytes) : State.SameFlow d p s (t.hear d p a) :=
  ite h (ite h.modPair (ite (h.modPair.refaced ((State.Refaced.refl _).refreshRing))
    (h.modPair.modPair.refaced ((State.Refaced.refl _).settlePorts t true))))

end State.SameFlow

/-! ### IDLE_FRAME_RECEIVE -/

/-- A good frame frees the flits that it acknowledges; what its own codewords corrected counts (R239, R241, log 200). -/
def State.acknowledge (s : State) (d p : Nat) (f : IdleFrame) : State :=
  (s.fresh.2.modPair d p (fun k => { k with
    fecCorrected := satAdd 32 k.fecCorrected (Config.freeFec s.fresh.1 0)
    fecUncorrectable := satAdd 16 k.fecUncorrectable (Config.freeFec s.fresh.1 1) })).modPair d p (fun k => k.acked f.ackSeq)

/-- A frame with REPLAY ends discarding (R241). -/
def State.endDiscard (s : State) (d p : Nat) (f : IdleFrame) : State :=
  if f.replay then s.modPair d p (fun k => { k with skip := (k.expected + 65536 - f.txNext) % 65536, discarding := false }) else s

/-- The beacon of a frame is recorded, with its stamps (R60). -/
def State.noteBeacon (s : State) (d p : Nat) (f : IdleFrame) (turn stamp far : Nat) : State :=
  if f.hasBeacon then { s with panel := { s.panel with time := { s.panel.time with
      beacons := s.panel.time.beacons.put (portOf d p)
        (Beacon.of f d p turn stamp (s.panel.time.sent.find (8 * d + p)) far) } } }
  else s

theorem State.acknowledge_pair (s : State) (d p : Nat) (f : IdleFrame) :
    ((s.acknowledge d p f).pair d p).kept = ((s.pair d p).acked f.ackSeq).kept ∧
      ((s.acknowledge d p f).pair d p).expected = (s.pair d p).expected ∧
      ((s.acknowledge d p f).pair d p).replayCount = (s.pair d p).replayCount := by
  simp only [State.acknowledge, State.pair_modPair_self, State.fresh_pair, Pair.acked_expected, Pair.acked_replayCount, and_self, and_true]
  refine Pair.acked_kept_congr ?_ _
  rfl

theorem State.endDiscard_pair (s : State) (d p : Nat) (f : IdleFrame) :
    ((s.endDiscard d p f).pair d p).kept = (s.pair d p).kept ∧
      ((s.endDiscard d p f).pair d p).replayCount = (s.pair d p).replayCount ∧
      (f.replay = true → ((s.endDiscard d p f).pair d p).discarding = false ∧
        ((s.endDiscard d p f).pair d p).skip = ((s.pair d p).expected + 65536 - f.txNext) % 65536) := by
  unfold State.endDiscard
  split
  · simp [State.pair_modPair_self]
  · next hno => exact ⟨rfl, rfl, fun hyes => absurd hyes hno⟩

theorem State.endDiscard_rest (s : State) (d p : Nat) (f : IdleFrame) :
    (s.endDiscard d p f).panel = s.panel ∧ (s.endDiscard d p f).outbox = s.outbox := by
  unfold State.endDiscard
  split <;> exact ⟨rfl, rfl⟩

theorem State.noteBeacon_rest (s : State) (d p : Nat) (f : IdleFrame) (turn stamp far : Nat) :
    (s.noteBeacon d p f turn stamp far).pair d p = s.pair d p ∧ (s.noteBeacon d p f turn stamp far).outbox = s.outbox := by
  unfold State.noteBeacon
  split <;> exact ⟨rfl, rfl⟩

theorem State.noteBeacon_beacons (s : State) (d p : Nat) (f : IdleFrame) (turn stamp far : Nat) :
    (s.noteBeacon d p f turn stamp far).panel.time.beacons.find (portOf d p) = (if f.hasBeacon then
      some (Beacon.of f d p turn stamp (s.panel.time.sent.find (8 * d + p)) far) else s.panel.time.beacons.find (portOf d p)) := by
  unfold State.noteBeacon
  split
  · exact Tab.find_put_self ..
  · rfl

/-- A good frame over a lit pair: the link layer takes it, and then quiet windows, lane maps and the hello. -/
theorem exec_idleFrameReceive_good (s : State) {d p : Nat} {frame : Bytes} (stamp : Nat) {f : IdleFrame} (hlit : (s.pair d p).lit = true)
    (hdec : IdleFrame.decode frame = some f) : ∃ u : State, exec (.idleFrameReceive d p frame stamp) s = .next u ∧
      State.SameFlow d p (((if f.nak then (s.acknowledge d p f).replayFrom d p f.nakSeq else s.acknowledge d p f).endDiscard d p f).noteBeacon
        d p f s.turn stamp s.fresh.1) u := by
  refine ⟨_, congrArg Host.Outcome.next (if_neg (by simp [hlit])), ?_⟩
  rw [hdec]
  simp only [hlit, Bool.and_true, Bool.not_true, Bool.or_false, if_true]
  have hnote : ∀ t : State, (if ! f.hasBeacon then t else { t with panel := { t.panel with time := { t.panel.time with
      beacons := t.panel.time.beacons.put (portOf d p)
        (Beacon.of f d p s.turn stamp (t.panel.time.sent.find (8 * d + p)) s.fresh.1) } } }) = t.noteBeacon d p f s.turn stamp s.fresh.1 := by
    intro t
    unfold State.noteBeacon
    cases f.hasBeacon <;> rfl
  simp only [hnote]
  exact (((State.SameFlow.refl d p _).takePause f).takeLanes f).hear f.fab

theorem exec_idleFrameReceive_bad (s : State) {d p : Nat} {frame : Bytes} (stamp : Nat) (hlit : (s.pair d p).lit = true)
    (hdec : IdleFrame.decode frame = none) : exec (.idleFrameReceive d p frame stamp) s = .next ((s.fresh.2.modPair d p (fun k => { k with
      fecCorrected := satAdd 32 k.fecCorrected (Config.freeFec s.fresh.1 0)
      fecUncorrectable := satAdd 16 k.fecUncorrectable (Config.freeFec s.fresh.1 1) })).sendIdle d p (fun f => f)) := by
  refine congrArg Host.Outcome.next ((if_neg (by simp [hlit])).trans ?_)
  rw [hdec]
  exact if_pos hlit

/-- What a good frame without NAK leaves of the pair and of the beacons of its port. -/
theorem exec_idleFrameReceive_ack (s : State) {d p : Nat} {frame : Bytes} (stamp : Nat) {f : IdleFrame} (hlit : (s.pair d p).lit = true)
    (hdec : IdleFrame.decode frame = some f) (hnak : f.nak = false) : ∃ u : State, exec (.idleFrameReceive d p frame stamp) s = .next u ∧
      (u.pair d p).kept = ((s.pair d p).acked f.ackSeq).kept ∧
      (f.replay = true → (u.pair d p).discarding = false ∧ (u.pair d p).skip = ((s.pair d p).expected + 65536 - f.txNext) % 65536) ∧
      u.panel.time.beacons.find (portOf d p) = (if f.hasBeacon then
        some (Beacon.of f d p s.turn stamp (s.panel.time.sent.find (8 * d + p)) s.fresh.1)
        else s.panel.time.beacons.find (portOf d p)) := by
  obtain ⟨u, hu, hflow, htime, -⟩ := exec_idleFrameReceive_good s stamp hlit hdec
  rw [hnak, if_neg Bool.false_ne_true] at hflow htime
  obtain ⟨hacked, hexp, -⟩ := s.acknowledge_pair d p f
  obtain ⟨hkept, -, hreplay⟩ := (s.acknowledge d p f).endDiscard_pair d p f
  obtain ⟨hpanel, -⟩ := (s.acknowledge d p f).endDiscard_rest d p f
  rw [(State.noteBeacon_rest ..).1] at hflow
  simp only [Pair.flow, Prod.mk.injEq] at hflow
  obtain ⟨hk, -, hd, hs, -⟩ := hflow
  refine ⟨u, hu, by rw [hk, hkept, hacked], fun hr => ?_, ?_⟩
  · rw [hd, hs, ← hexp]
    exact hreplay hr
  · rw [htime, State.noteBeacon_beacons, hpanel]
    rfl

/-- A good frame with NAK starts a replay, which counts and is announced. -/
theorem exec_idleFrameReceive_nak (s : State) {d p : Nat} {frame : Bytes} (stamp : Nat) {f : IdleFrame} (hlit : (s.pair d p).lit = true)
    (hdec : IdleFrame.decode frame = some f) (hnak : f.nak = true) :
    ∃ (u : State) (g : IdleFrame), exec (.idleFrameReceive d p frame stamp) s = .next u ∧
      (u.pair d p).replayCount = satAdd 16 (s.pair d p).replayCount 1 ∧ Output.idle d p g ∈ u.outbox ∧ g.replay = true ∧
      g.txNext = f.nakSeq := by
  obtain ⟨u, hu, hflow, -, hout⟩ := exec_idleFrameReceive_good s stamp hlit hdec
  rw [hnak, if_pos rfl] at hflow hout
  obtain ⟨-, -, hcount⟩ := s.acknowledge_pair d p f
  obtain ⟨g, hg, hrep, hnext⟩ := (s.acknowledge d p f).replayFrom_outbox d p f.nakSeq
  obtain ⟨-, hc, -⟩ := ((s.acknowledge d p f).replayFrom d p f.nakSeq).endDiscard_pair d p f
  rw [(State.noteBeacon_rest ..).1] at hflow
  rw [(State.noteBeacon_rest ..).2, (State.endDiscard_rest ..).2, hg] at hout
  simp only [Pair.flow, Prod.mk.injEq] at hflow
  obtain ⟨-, -, -, -, hr⟩ := hflow
  refine ⟨u, g, hu, ?_, hout.subset (List.mem_append_right _ (List.mem_singleton_self _)), hrep, hnext⟩
  rw [hr, hc, State.replayFrom_pair, hcount]

/-- Settles O19, by one lemma per kind of flit or frame: what a frame does after the link layer has taken it leaves the flits as they are. -/
theorem linkDeliversOnce : Obligations.LinkDeliversOnce := by
  refine ⟨fun s d p corrected uncorrectable flit hlit hlen hdisc hskip hexp => ⟨fun hfec hcrc hnull hodd => ⟨fun hcar => ?_, fun hcar => ?_⟩,
    fun hbad => ?_⟩, fun s d p => ⟨fun frame stamp f hlit hdec hnak => exec_idleFrameReceive_ack s stamp hlit hdec hnak,
    fun frame stamp f hstate hdec hnak => exec_idleFrameReceive_nak s stamp (by simp [Pair.lit, hstate]) hdec hnak,
    fun frame stamp hlit hdec => ?_, fun f rest hstate hkept => ?_, fun hlit hdisc => ?_⟩⟩
  · have hnull' : (LinkWord.decode (leAt (flit.take 252) 0 4)).isNull = false := by
      rw [leAt, List.drop_zero, leNat_take (by decide)]
      exact hnull
    refine ⟨_, exec_flitReceive_good s hlit hlen hdisc hskip hexp hfec hcrc, ?_, (s.flitTaken_pair d p corrected uncorrectable _ _ rfl).1⟩
    rw [State.modPair_fab, State.die_modDie_self, hcar, Die.takeBody_uncarried _ _ _ _ hnull', State.countCodewords_fab]
  · have hnull' : (LinkWord.decode (leAt (flit.take 252) 0 4)).isNull = false := by
      rw [leAt, List.drop_zero, leNat_take (by decide)]
      exact hnull
    obtain ⟨h, hheld, hport, hroute, hpkt⟩ :=
      Die.takeBody_carried ((s.countCodewords d p corrected uncorrectable).die d) d p (flit.take 252) hnull' hodd
    obtain ⟨hnext, hcount⟩ := s.flitTaken_pair d p corrected uncorrectable (s.carries d) (flit.take 252) rfl
    refine ⟨_, h, exec_flitReceive_good s hlit hlen hdisc hskip hexp hfec hcrc, ?_, hport, hroute, hpkt, hnext, hcount, fun e he => ?_⟩
    · rw [State.modPair_fab, State.die_modDie_self, hcar, hheld, State.countCodewords_fab]
    · simp [State.modPair, State.countCodewords, he]
  · refine ⟨_, _, exec_flitReceive_bad s hlit hlen hdisc hskip hexp hbad, ?_, rfl, rfl, rfl, ?_, ?_, ?_⟩
    · simp
    · simp [State.countCodewords]
    · simp
    · simp [State.countCodewords]
  · exact ⟨_, _, exec_idleFrameReceive_bad s stamp hlit hdec, rfl, by simp, by simp⟩
  · obtain ⟨g, hg, hrep, hnext⟩ := s.replayFrom_outbox d p f.seq
    refine ⟨_, g, exec_replayTimeout s hstate hkept, ?_, ?_, ?_, hg, hrep, hnext⟩ <;> simp [State.replayFrom_pair, hkept, List.findIdx?_cons]
  · exact ⟨_, _, exec_nakResend s hlit hdisc, rfl, rfl, rfl, by simp⟩

end Sys2Proof.Machine
end

section
/-! SUPPORT. What switchovers, service presses and the windows that they ask for leave alone (R252 to R255, R492), and what a port that goes
down leaves (R243, R440). -/
namespace Sys2Proof.Machine

/-- What a step of a fold sets for its own element and no step takes away holds of every element after the fold. -/
theorem foldl_establishes {σ α : Type} {f : σ → α → σ} {Q : α → σ → Prop} (hset : ∀ u a, Q a (f u a))
    (hkeep : ∀ u a b, Q b u → Q b (f u a)) (l : List α) (u : σ) : ∀ a ∈ l, Q a (l.foldl f u) := by
  induction l generalizing u with
  | nil => exact fun _ ha => (List.not_mem_nil ha).elim
  | cons b l ih =>
    intro a ha
    rcases List.mem_cons.mp ha with rfl | ha
    · exact List.foldlRecOn (motive := Q a) l f (hset u a) fun v hv c _ => hkeep v c a hv
    · exact ih _ a ha

/-! ### States of pairs and ports, and the power of dies, stand -/

/-- What opens and closes a port's gates, and HOST's link (R243, R257, R427). -/
def Port.gate (q : Port) : Nat × Bool × Bool := (q.state, q.held, q.up)

/-- A panel without its ports, its bays, its view of the fabric, and what notices write. -/
def Panel.undriven (p : Panel) : Panel := { p.unfaced with bays := [] }

/-- No pair has changed its state, no port its gate, no die its power, and the panel differs in ports, bays, fabric and notices only. -/
structure State.SameGates (s t : State) : Prop where
  pair : ∀ e q, (t.pair e q).state = (s.pair e q).state
  port : ∀ n, (t.port n).gate = (s.port n).gate
  panel : t.panel.undriven = s.panel.undriven
  power : ∀ e, (t.die e).power = (s.die e).power

theorem Pair.dropPause_state (k : Pair) : k.dropPause.state = k.state := by
  unfold Pair.dropPause
  split <;> rfl

namespace State.SameGates

theorem refl (s : State) : s.SameGates s := ⟨fun _ _ => rfl, fun _ => rfl, rfl, fun _ => rfl⟩

theorem trans {s t u : State} (h : s.SameGates t) (k : t.SameGates u) : s.SameGates u where
  pair e q := (k.pair e q).trans (h.pair e q)
  port n := (k.port n).trans (h.port n)
  panel := k.panel.trans h.panel
  power e := (k.power e).trans (h.power e)

variable {s t : State}

theorem panelField (h : s.SameGates t) {α : Type} (f : Panel → α) : f t.panel.undriven = f s.panel.undriven := congrArg f h.panel

theorem modPair (h : s.SameGates t) (d p : Nat) {f : Pair → Pair} (hf : ∀ k, (f k).state = k.state := by exact fun _ => rfl) :
    s.SameGates (t.modPair d p f) := by
  refine h.trans ⟨fun e q => ?_, fun _ => rfl, rfl, ((State.SameButLinks.refl t).modPair d p f).power⟩
  by_cases he : (e, q) = (d, p)
  · obtain ⟨rfl, rfl⟩ := Prod.mk.inj he
    rw [State.pair_modPair_self, hf]
  · rw [State.pair_modPair_ne _ _ he]

theorem modPort (h : s.SameGates t) (n : Nat) {f : Port → Port} (hf : ∀ q, (f q).gate = q.gate := by exact fun _ => rfl) :
    s.SameGates (t.modPort n f) := by
  refine h.trans ⟨fun _ _ => rfl, fun m => ?_, rfl, fun _ => rfl⟩
  by_cases hm : m = n
  · rw [hm, State.port_modPort_self, hf]
  · rw [State.port_modPort_ne _ _ hm]

theorem modBay (h : s.SameGates t) (b : Nat) (f : Bay → Bay) : s.SameGates (t.modBay b f) :=
  h.trans ⟨fun _ _ => rfl, fun _ => rfl, rfl, fun _ => rfl⟩

theorem refaced {u : State} (h : s.SameGates t) (k : t.Refaced u) (l : t.SameButLinks u) : s.SameGates u :=
  h.trans ⟨fun e q => k.pairField e q Pair.state, fun n => k.portField n Port.gate,
    k.panelField (fun p => ({ p with bays := [] } : Panel)), l.power⟩

theorem notice (h : s.SameGates t) (code subject a1 a2 a3 : Nat) : s.SameGates (t.notice code subject a1 a2 a3) :=
  h.refaced ((State.Refaced.refl t).notice ..) ((State.SameButLinks.refl t).notice ..)

theorem presenceChanged (h : s.SameGates t) (before : State) : s.SameGates (before.presenceChanged t) :=
  h.refaced ((State.Refaced.refl t).presenceChanged before) ((State.SameButLinks.refl t).presenceChanged before)

theorem sendIdle (h : s.SameGates t) (d p : Nat) (f : IdleFrame → IdleFrame) : s.SameGates (t.sendIdle d p f) :=
  modPair (t := { t with outbox := t.outbox ++ [.idle d p (f (t.idleOf d p))] }) ⟨h.pair, h.port, h.panel, h.power⟩ d p

theorem ite {c : Prop} [Decidable c] {a b : State} (h : s.SameGates a) (k : s.SameGates b) : s.SameGates (if c then a else b) :=
  iteInduction (motive := s.SameGates) (fun _ => h) (fun _ => k)

theorem foldl {α : Type} {f : State → α → State} (l : List α) (h : s.SameGates t) (k : ∀ u a, s.SameGates u → s.SameGates (f u a)) :
    s.SameGates (l.foldl f t) := List.foldlRecOn l f h fun u hu a _ => k u a hu

/-! ### Switchovers -/

theorem setLanes (h : s.SameGates t) (d p m : Nat) : s.SameGates (t.setLanes d p m) := ite h ((h.modPair d p).sendIdle ..)

theorem feedFrom (h : s.SameGates t) (port b old : Nat) : s.SameGates (t.feedFrom port b old) := by
  unfold State.feedFrom
  refine notice (ite (modPort (modBay ?_ ..) port) (foldl _ (modPort (modBay ?_ ..) port) fun _ q hu => hu.setLanes ..)) ..
  all_goals
    split
    · exact h.modBay ..
    · exact h

theorem askPause (h : s.SameGates t) (port turn : Nat) : s.SameGates (t.askPause port turn) :=
  foldl _ h fun _ _ hu => ite hu ((hu.modPair ..).sendIdle ..)

theorem beginSwitch (h : s.SameGates t) (port b : Nat) (keepOld service : Bool) : s.SameGates (t.beginSwitch port b keepOld service) :=
  ite (h.feedFrom ..) ((h.modPort port).askPause ..)

theorem endSwitch (h : s.SameGates t) (port : Nat) : s.SameGates (t.endSwitch port) :=
  foldl _ (h.modPort port) fun _ _ hu => hu.modPair _ _ Pair.dropPause_state

theorem moveBack (h : s.SameGates t) (port : Nat) : s.SameGates (t.moveBack port) := by
  unfold State.moveBack
  refine ite h ?_
  split
  · exact h.feedFrom ..
  · exact ite h (h.beginSwitch ..)

theorem press (h : s.SameGates t) (b : Nat) : s.SameGates (t.press b) := by
  unfold State.press
  refine ite h (ite (h.modBay ..) (ite h ?_))
  split
  · exact h
  · split
    · exact (h.modBay ..).notice ..
    · exact h.beginSwitch ..

theorem afterSwitch (h : s.SameGates t) (port : Nat) : s.SameGates (t.afterSwitch port) :=
  moveBack (foldl _ h fun _ b hu => ite ((hu.modBay b _).press b) hu) port

end State.SameGates

/-! ### A port goes down -/

/-- The port as it leaves RUN: its gate is written, and its pairs are DARK with nothing kept (R243, R440). -/
def State.shut (s : State) (port state : Nat) (held : Bool) : State :=
  (pairsOf port).foldl (fun s q => s.modPair q.1 q.2 (fun k => { k.unlink with
    state := .dark, emission := .none, answered := false, spent := [], sharedSpent := 0, owe := [], oweShared := 0 }))
    (s.modPort port (fun p => { p with state := state, held := held }))

theorem State.portDown_eq (s : State) (port state : Nat) (held : Bool) :
    s.portDown port state held = s.presenceChanged (((s.shut port state held).endSwitch port).afterSwitch port) := rfl

theorem State.portDown_sameGates (s : State) (port state : Nat) (held : Bool) :
    (s.shut port state held).SameGates (s.portDown port state held) :=
  (((State.SameGates.refl _).endSwitch port).afterSwitch port).presenceChanged s

/-- Writing pairs changes neither the panel nor the power of a die. -/
theorem State.shut_rest (s : State) (port state : Nat) (held : Bool) :
    (s.shut port state held).panel = (s.modPort port (fun p => { p with state := state, held := held })).panel ∧
      ∀ e, ((s.shut port state held).die e).power = (s.die e).power := by
  refine List.foldlRecOn (motive := fun u : State =>
    u.panel = (s.modPort port (fun p => { p with state := state, held := held })).panel ∧ ∀ e, (u.die e).power = (s.die e).power)
    _ _ ⟨rfl, fun _ => rfl⟩ fun u hu q _ => ⟨hu.1, fun e => ?_⟩
  rw [((State.SameButLinks.refl u).modPair q.1 q.2 _).power, hu.2]

theorem State.modPair_dark {s : State} {d p e q : Nat} {f : Pair → Pair} (hf : ∀ k, (f k).state = .dark) (h : (s.pair e q).state = .dark) :
    ((s.modPair d p f).pair e q).state = .dark := by
  by_cases he : (e, q) = (d, p)
  · obtain ⟨rfl, rfl⟩ := Prod.mk.inj he
    rw [State.pair_modPair_self, hf]
  · rw [State.pair_modPair_ne _ _ he, h]

/-- The pairs of a port that goes down are DARK. -/
theorem State.portDown_dark (s : State) (port state : Nat) (held : Bool) :
    ∀ q ∈ pairsOf port, ((s.portDown port state held).pair q.1 q.2).state = .dark := by
  intro q hq
  rw [(s.portDown_sameGates port state held).pair]
  exact foldl_establishes (Q := fun (q : Nat × Nat) (u : State) => (u.pair q.1 q.2).state = .dark)
    (fun u a => by rw [State.pair_modPair_self]) (fun u a b hb => State.modPair_dark (fun _ => rfl) hb) _ _ q hq

/-- A pair that is DARK stays so. -/
theorem State.portDown_keeps_dark {s : State} {d p : Nat} (port state : Nat) (held : Bool) (h : (s.pair d p).state = .dark) :
    ((s.portDown port state held).pair d p).state = .dark := by
  rw [(s.portDown_sameGates port state held).pair]
  exact List.foldlRecOn (motive := fun u : State => (u.pair d p).state = .dark) _ _ h fun u hu q _ => State.modPair_dark (fun _ => rfl) hu

theorem State.portDown_port (s : State) (port state : Nat) (held : Bool) :
    ((s.portDown port state held).port port).state = state ∧ ((s.portDown port state held).port port).held = held := by
  have hgate : ((s.portDown port state held).port port).gate = (state, held, (s.port port).up) := by
    rw [(s.portDown_sameGates port state held).port, State.port, (s.shut_rest port state held).1, ← State.port, State.port_modPort_self]
    rfl
  simp only [Port.gate, Prod.mk.injEq] at hgate
  exact ⟨hgate.1, hgate.2.1⟩

theorem State.portDown_panel (s : State) (port state : Nat) (held : Bool) :
    (s.portDown port state held).panel.undriven = s.panel.undriven := by
  rw [(s.portDown_sameGates port state held).panel, (s.shut_rest port state held).1]
  rfl

theorem State.portDown_power (s : State) (port state : Nat) (held : Bool) (e : Nat) :
    ((s.portDown port state held).die e).power = (s.die e).power := by
  rw [(s.portDown_sameGates port state held).power, (s.shut_rest port state held).2]

end Sys2Proof.Machine
end

section
/-! SUPPORT. Lasers off, dies off and the panel reset (R255, R427, R438): what the actions of the lifeline leave. -/
namespace Sys2Proof.Machine

/-! ### Laser bays while every output is off -/

theorem State.setLanes_panel (s : State) (d p m : Nat) : (s.setLanes d p m).panel = s.panel :=
  iteInduction (motive := fun u : State => u.panel = s.panel) (fun _ => rfl) (fun _ => rfl)

theorem State.askPause_panel (s : State) (port turn : Nat) : (s.askPause port turn).panel = s.panel :=
  List.foldlRecOn (motive := fun u : State => u.panel = s.panel) _ _ rfl fun _ hu _ _ =>
    iteInduction (motive := fun u : State => u.panel = s.panel) (fun _ => hu) (fun _ => hu)

theorem State.endSwitch_bay (s : State) (port b : Nat) : (s.endSwitch port).bay b = s.bay b :=
  List.foldlRecOn (motive := fun u : State => u.bay b = s.bay b) _ _ rfl fun _ hu _ _ => hu

/-- A port without a source takes one: no other bay changes. -/
theorem State.feedFrom_bay_ne {s : State} {port b c old : Nat} (hfeed : (s.port port).feed = none) (h : c ≠ b) :
    (s.feedFrom port b old).bay c = s.bay c := by
  unfold State.feedFrom
  rw [hfeed, State.notice_bay]
  have hbay : ∀ f g, ((s.modBay b f).modPort port g).bay c = s.bay c := fun f g => s.bay_modBay_ne f h
  split
  · exact hbay ..
  · exact List.foldlRecOn (motive := fun u : State => u.bay c = s.bay c) _ _ (hbay ..) fun u hu q _ =>
      (congrArg (fun p : Panel => p.bays.getD c {}) (u.setLanes_panel q.1 q.2 0xFFFF) :).trans hu

/-- A fabric port that moves back changes no bay but its own, which is STANDBY. -/
theorem State.moveBack_bay {s : State} {port b : Nat} (hport : port ≠ 8) (h : (s.bay b).state ≠ 2) :
    (s.moveBack port).bay b = s.bay b := by
  unfold State.moveBack
  simp only [hport, if_false]
  refine iteInduction (motive := fun u : State => u.bay b = s.bay b) (fun _ => rfl) (fun hown => ?_)
  have hne : b ≠ port := by
    rintro rfl
    simp [h] at hown
  split
  · next hfeed => exact State.feedFrom_bay_ne hfeed hne
  · refine iteInduction (motive := fun u : State => u.bay b = s.bay b) (fun _ => rfl) (fun _ => ?_)
    rw [State.beginSwitch, if_neg hport]
    exact (congrArg (fun p : Panel => p.bays.getD b {}) (State.askPause_panel ..) :)

/-- While every output is off, a press does nothing (R255). -/
theorem State.press_of_laserOff {s : State} (h : s.panel.laserOff = true) (b : Nat) : s.press b = s := if_pos h

/-- A bay that is OFF stays so through the end of a switchover of a fabric port. -/
theorem State.afterSwitch_bay {s : State} {port b : Nat} (hport : port ≠ 8) (hoff : s.panel.laserOff = true) (h : (s.bay b).state = 5) :
    ((s.afterSwitch port).bay b).state = 5 := by
  have hpressed : ∀ l : List Nat, ((l.foldl (fun s b =>
      if (s.bay b).pressed && ! s.baySwitching b then (s.modBay b (fun y => { y with pressed := false })).press b else s) s).bay b).state = 5 :=
    fun l => by
      refine And.right (List.foldlRecOn (motive := fun u : State => u.panel.laserOff = true ∧ (u.bay b).state = 5) l _ ⟨hoff, h⟩
        fun u hu c _ => ?_)
      refine iteInduction (motive := fun u : State => u.panel.laserOff = true ∧ (u.bay b).state = 5) (fun _ => ?_) (fun _ => hu)
      rw [State.press_of_laserOff (show (u.modBay c _).panel.laserOff = true from hu.1)]
      refine ⟨hu.1, ?_⟩
      by_cases hc : b = c
      · rw [← hc, State.bay_modBay_self]
        exact hu.2
      · rw [State.bay_modBay_ne _ _ hc]
        exact hu.2
  have hstate := hpressed (List.range 12)
  unfold State.afterSwitch
  rw [State.moveBack_bay hport (by rw [hstate]; decide), hstate]

theorem State.presenceChanged_bay (s t : State) (b : Nat) : (s.presenceChanged t).bay b = t.bay b :=
  ((State.Refaced.refl t).presenceChanged s).panelField (fun p => p.bays.getD b {})

theorem State.portDown_bay {s : State} {port b : Nat} (state : Nat) (held : Bool) (hport : port ≠ 8) (hoff : s.panel.laserOff = true)
    (h : (s.bay b).state = 5) : ((s.portDown port state held).bay b).state = 5 := by
  have hpanel := (s.shut_rest port state held).1
  have hshut : ((s.shut port state held).bay b).state = 5 := by
    rw [State.bay, hpanel]
    exact h
  have hended : (((s.shut port state held).endSwitch port).bay b).state = 5 := by rw [State.endSwitch_bay, hshut]
  have hoff' : ((s.shut port state held).endSwitch port).panel.laserOff = true :=
    (((State.SameGates.refl _).endSwitch port).panelField Panel.laserOff).trans ((congrArg Panel.laserOff hpanel).trans hoff)
  rw [State.portDown_eq, State.presenceChanged_bay]
  exact State.afterSwitch_bay hport hoff' hended

/-- The same write to each of the first bays. -/
theorem State.bay_foldl_modBay (s : State) (f : Bay → Bay) (n b : Nat) :
    ((List.range n).foldl (fun s b => s.modBay b f) s).bay b = if b < n then f (s.bay b) else s.bay b := by
  induction n with
  | zero => rfl
  | succ n ih =>
    rw [List.range_succ, List.foldl_append, List.foldl_cons, List.foldl_nil]
    by_cases hb : b = n
    · subst hb
      rw [State.bay_modBay_self, ih, if_neg (Nat.lt_irrefl b), if_pos (Nat.lt_succ_self b)]
    · simp only [State.bay_modBay_ne _ _ hb, ih, Nat.lt_succ_iff_lt_or_eq, hb, or_false]

theorem State.modPort_laserOff (s : State) (n : Nat) (f : Port → Port) : (s.modPort n f).panel.laserOff = s.panel.laserOff := rfl

theorem State.laserOff_foldl_modBay (s : State) (f : Bay → Bay) (l : List Nat) :
    (l.foldl (fun s b => s.modBay b f) s).panel.laserOff = s.panel.laserOff :=
  List.foldlRecOn (motive := fun u : State => u.panel.laserOff = s.panel.laserOff) _ _ rfl fun _ hu _ _ => hu

/-! ### Every fabric port goes down -/

/-- The fabric ports go down one after another, each to the state that `g` gives it. -/
def State.portsDown (g : State → Nat → Nat) (s : State) : State :=
  (List.range 8).foldl (fun s n => s.portDown n (g s n) (s.port n).held) s

theorem State.portsDown_panel (g : State → Nat → Nat) (s : State) : (s.portsDown g).panel.undriven = s.panel.undriven :=
  List.foldlRecOn (motive := fun u : State => u.panel.undriven = s.panel.undriven) _ _ rfl fun u hu _ _ => (u.portDown_panel ..).trans hu

theorem Panel.held_of_undriven {p q : Panel} (h : p.undriven = q.undriven) :
    p.laserOff = q.laserOff ∧ p.powerDown = q.powerDown ∧ p.out = q.out :=
  ⟨(congrArg Panel.laserOff h :), (congrArg Panel.powerDown h :), (congrArg Panel.out h :)⟩

theorem State.portsDown_held (g : State → Nat → Nat) (s : State) : (s.portsDown g).panel.laserOff = s.panel.laserOff ∧
    (s.portsDown g).panel.powerDown = s.panel.powerDown ∧ (s.portsDown g).panel.out = s.panel.out :=
  Panel.held_of_undriven (s.portsDown_panel g)

theorem State.portsDown_power (g : State → Nat → Nat) (s : State) (e : Nat) : ((s.portsDown g).die e).power = (s.die e).power :=
  List.foldlRecOn (motive := fun u : State => (u.die e).power = (s.die e).power) _ _ rfl fun u hu _ _ => (u.portDown_power ..).trans hu

theorem State.portsDown_dark (g : State → Nat → Nat) (s : State) {m : Nat} (hm : m < 8) :
    ∀ q ∈ pairsOf m, ((s.portsDown g).pair q.1 q.2).state = .dark :=
  foldl_establishes (Q := fun m (u : State) => ∀ q ∈ pairsOf m, (u.pair q.1 q.2).state = .dark)
    (fun u n => u.portDown_dark n _ _) (fun _ n _ h q hq => State.portDown_keeps_dark n _ _ (h q hq)) _ _ m (List.mem_range.mpr hm)

theorem State.portsDown_bay (g : State → Nat → Nat) {s : State} {b : Nat} (hoff : s.panel.laserOff = true) (h : (s.bay b).state = 5) :
    ((s.portsDown g).bay b).state = 5 := by
  refine And.right (List.foldlRecOn (motive := fun u : State => u.panel.laserOff = true ∧ (u.bay b).state = 5) _ _ ⟨hoff, h⟩ fun u hu n hn => ?_)
  have hport : n ≠ 8 := fun hn8 => by simp [hn8] at hn
  exact ⟨(congrArg Panel.laserOff (u.portDown_panel ..) :).trans hu.1, State.portDown_bay _ _ hport hu.1 hu.2⟩

/-- Every output goes off (R255). -/
def State.dim (s : State) : State :=
  (List.range 12).foldl (fun s b => s.modBay b (fun y => if y.seated then { y with state := 5 } else y))
    (s.modPanel (fun p => { p with laserOff := true }))

theorem State.lasersOff_eq (s : State) :
    s.lasersOff = (s.dim.portsDown (fun s n => (s.port n).state)).modPort 8 (fun p => { p with up := false }) := rfl

theorem State.dim_laserOff (s : State) : s.dim.panel.laserOff = true := by
  rw [State.dim, State.laserOff_foldl_modBay]
  rfl

theorem State.dim_bay (s : State) {b : Nat} (hb : b < 12) (hseated : (s.bay b).seated = true) : (s.dim.bay b).state = 5 := by
  rw [State.dim, State.bay_foldl_modBay, if_pos hb, if_pos (by exact hseated)]

/-- LASER_OFF: every output is off, every pair DARK and HOST down. -/
theorem State.lasersOff_off (s : State) : s.lasersOff.panel.laserOff = true ∧ (s.lasersOff.port 8).up = false ∧
    (∀ m, m < 8 → ∀ q ∈ pairsOf m, (s.lasersOff.pair q.1 q.2).state = .dark) ∧
    ∀ b, b < 12 → (s.bay b).seated = true → (s.lasersOff.bay b).state = 5 := by
  rw [State.lasersOff_eq]
  refine ⟨?_, ?_, fun m hm q hq => ?_, fun b hb hseated => ?_⟩
  · rw [State.modPort_laserOff, (State.portsDown_held _ s.dim).1, State.dim_laserOff]
  · rw [State.port_modPort_self]
  · rw [State.modPort_pair, State.portsDown_dark _ _ hm q hq]
  · rw [State.modPort_bay, State.portsDown_bay _ s.dim_laserOff (s.dim_bay hb hseated)]

/-! ### Dies that go off -/

theorem State.keepImage_die (s : State) (d e : Nat) : (s.keepImage d).die e = s.die e :=
  iteInduction (motive := fun u : State => u.die e = s.die e) (fun _ => rfl) (fun _ => rfl)

theorem State.meshRoutes_die (s : State) (e : Nat) : s.meshRoutes.die e = s.die e :=
  List.foldlRecOn (motive := fun u : State => u.die e = s.die e) _ _ rfl fun _ hu _ _ => hu

/-- A die that goes off has ALWAYS_ON alone, and the power of the others stands. -/
theorem State.powerOff_power (s : State) (d e : Nat) :
    ((s.powerOff d).die e).power = if e = d then { (s.die d).power with on := alwaysOn, good := alwaysOn } else (s.die e).power := by
  rw [State.powerOff, State.meshRoutes_die, ((State.SameButLinks.refl _).presenceChanged s).power, State.die_modDie, State.keepImage_die]
  split
  · next he =>
    rw [he]
    simp only [Die.off, Die.foldl_domainOff_power]
  · rfl

theorem State.finishEntry_rest (s : State) (h seq code : Nat) (answer : Bytes) :
    (s.finishEntry h seq code answer).dies = s.dies ∧ (s.finishEntry h seq code answer).panel.out = s.panel.out := by
  unfold State.finishEntry
  split <;> exact ⟨rfl, rfl⟩

/-- A die that leaves the known-answer tests changes no die and puts none out of service. -/
theorem State.katLost_rest (s : State) (d : Nat) : (s.katLost d).dies = s.dies ∧ (s.katLost d).panel.out = s.panel.out := by
  unfold State.katLost State.katAdvance
  split
  · exact ⟨rfl, rfl⟩
  · split
    · exact ⟨rfl, rfl⟩
    · dsimp only
      split
      · split
        · exact ⟨rfl, rfl⟩
        · exact State.finishEntry_rest ..
      · exact ⟨rfl, rfl⟩

theorem State.katLost_die (s : State) (d e : Nat) : (s.katLost d).die e = s.die e :=
  congrArg (fun t : Tab Die => t.getD e {}) (s.katLost_rest d).1

theorem mem_insertNat (k : Nat) (l : List Nat) : k ∈ insertNat k l := by
  induction l with
  | nil => exact List.mem_singleton_self k
  | cons i l ih =>
    unfold insertNat
    split
    · exact List.mem_cons_self
    · split
      · next h => rw [h]; exact List.mem_cons_self
      · exact List.mem_cons_of_mem _ ih

/-- DIE_POWER_OFF of an ACTIVE die above ALWAYS_ON. -/
theorem State.diePowerDown_off (s : State) {d : Nat} (hact : s.activeSite d = true) (hon : (s.die d).power.on ≠ alwaysOn) :
    ((s.diePowerDown d).die d).power.on = alwaysOn ∧ d ∈ (s.diePowerDown d).panel.out := by
  rw [State.diePowerDown, if_neg (by simp [hact, hon])]
  dsimp only
  rw [State.katLost_die, (State.katLost_rest ..).2]
  refine ⟨?_, mem_insertNat ..⟩
  rw [State.modPanel_die, State.powerOff_power, if_pos rfl]

/-- Every die goes off, one after another. -/
def State.diesDown (s : State) : State := (List.range 52).foldl (fun s d => (s.powerOff d).katLost d) s

theorem State.diesDown_power (s : State) {d : Nat} (hd : d < 52) : (s.diesDown.die d).power.on = alwaysOn := by
  unfold State.diesDown
  refine foldl_establishes (Q := fun d (u : State) => (u.die d).power.on = alwaysOn) (fun u d => ?_) (fun u d e he => ?_) _ _ d
    (List.mem_range.mpr hd)
  · rw [State.katLost_die, State.powerOff_power, if_pos rfl]
  · rw [State.katLost_die, State.powerOff_power]
    split
    · rfl
    · exact he

theorem State.panelDown_eq (s : State) : s.panelDown =
    ((s.abortMenus (fun _ => true) (panelErr Code.diePoweredOff 0xFF)).diesDown.modPanel (fun p =>
      { p with out := List.range 52, restarts := [], powerDown := true })).portsDown (fun _ _ => 0) := rfl

/-- POWER_DOWN: every die is at ALWAYS_ON and out of service. -/
theorem State.panelDown_off (s : State) : s.panelDown.panel.powerDown = true ∧
    (∀ d, d < 52 → (s.panelDown.die d).power.on = alwaysOn) ∧ ∀ d, d < 52 → d ∈ s.panelDown.panel.out := by
  have hdies : ∀ d, d < 52 → (((s.abortMenus (fun _ => true) (panelErr Code.diePoweredOff 0xFF)).diesDown).die d).power.on = alwaysOn :=
    fun d hd => State.diesDown_power _ hd
  rw [State.panelDown_eq]
  generalize (s.abortMenus (fun _ => true) (panelErr Code.diePoweredOff 0xFF)).diesDown = t at hdies ⊢
  obtain ⟨-, hdown, hout⟩ := State.portsDown_held (fun _ _ => 0) (t.modPanel (fun p =>
    { p with out := List.range 52, restarts := [], powerDown := true }))
  refine ⟨hdown, fun d hd => ?_, fun d hd => ?_⟩
  · rw [State.portsDown_power, State.modPanel_die]
    exact hdies d hd
  · rw [hout, State.modPanel_panel]
    exact List.mem_range.mpr hd

end Sys2Proof.Machine
end

section
/-! SUPPORT. What the end of menus at a panel reset leaves of the panel and of what has been sent (R438). -/
namespace Sys2Proof.Machine

/-- The panel and what has been sent stand. -/
structure State.SameDesk (s t : State) : Prop where
  panel : t.panel = s.panel
  outbox : t.outbox = s.outbox

namespace State.SameDesk

theorem refl (s : State) : s.SameDesk s := ⟨rfl, rfl⟩

variable {s t : State}

theorem modDie (h : s.SameDesk t) (d : Nat) (f : Die → Die) : s.SameDesk (t.modDie d f) := ⟨h.panel, h.outbox⟩
theorem modInst (h : s.SameDesk t) (d b : Nat) (f : Inst → Inst) : s.SameDesk (t.modInst d b f) := ⟨h.panel, h.outbox⟩

theorem ite {c : Prop} [Decidable c] {a b : State} (h : s.SameDesk a) (k : s.SameDesk b) : s.SameDesk (if c then a else b) :=
  iteInduction (motive := s.SameDesk) (fun _ => h) (fun _ => k)

theorem foldl {α : Type} {f : State → α → State} (l : List α) (h : s.SameDesk t) (k : ∀ u a, s.SameDesk u → s.SameDesk (f u a)) :
    s.SameDesk (l.foldl f t) := List.foldlRecOn l f h fun u hu a _ => k u a hu

theorem raise (h : s.SameDesk t) (d : Nat) (o : Origin) (code : Nat) : s.SameDesk (t.raise d o code) := by
  have hrec : ∀ {u : State} id f, s.SameDesk u → s.SameDesk (u.modMenu id f) := fun _ _ hu => ⟨hu.panel, hu.outbox⟩
  have hfresh : ∀ {u : State}, s.SameDesk u → s.SameDesk u.fresh.2 := fun hu => ⟨hu.panel, hu.outbox⟩
  unfold State.raise State.raiseAt
  split
  · exact h
  · dsimp only
    split
    · exact h.modDie ..
    · refine ite (h.modDie ..) ?_
      split
      · exact hrec _ _ (h.modDie ..)
      · exact ite (h.modDie ..) (ite (hrec _ _ (hfresh (h.modDie ..))) (hfresh (h.modDie ..)))

theorem leaveContext (h : s.SameDesk t) (d b : Nat) : s.SameDesk (t.leaveContext d b) := by
  unfold State.leaveContext
  dsimp only
  refine ite (h.modInst ..) ?_
  split
  · exact ite ((h.modInst ..).modDie ..) (h.modInst ..)
  · exact h.modInst ..

theorem abortTell (h : s.SameDesk t) (d b code : Nat) (except : Option Nat) : s.SameDesk (t.abortTell d b code except) :=
  foldl _ h fun _ _ hu => ite ((hu.raise ..).modInst ..) (hu.modDie ..)

theorem abortCause (h : s.SameDesk t) (d b code : Nat) (from_ : Option Nat) : s.SameDesk (t.abortCause d b code from_) :=
  ite h (ite (ite h ((h.modInst ..).abortTell ..)) ((((h.modInst ..).modDie ..).leaveContext ..).abortTell ..))

theorem whiskStopped (h : s.SameDesk t) (d : Nat) : s.SameDesk (t.whiskStopped d) := by
  unfold State.whiskStopped
  exact modDie (foldl _ h fun _ _ hu => hu.abortCause ..) ..

theorem endAtDie (h : s.SameDesk t) (m : Menu) (n d code : Nat) : s.SameDesk (t.endAtDie m n d code) := by
  unfold State.endAtDie
  exact modDie (foldl _ (whiskStopped (ite h (h.modDie ..)) d) fun _ _ hu => hu.modDie ..) ..

end State.SameDesk

/-- A menu that a panel reset interrupts writes its entry and the log; the job context and what has been sent stand. -/
theorem State.interruptMenu_desk (s : State) (id : Nat) :
    (s.interruptMenu id).panel.job = s.panel.job ∧ (s.interruptMenu id).outbox = s.outbox := by
  unfold State.interruptMenu
  split
  · exact ⟨rfl, rfl⟩
  · next m _ =>
    have hdies : s.SameDesk (m.dies.foldl (fun s n => match s.siteOf n with
        | some d => s.endAtDie m n d Code.interrupted
        | none => s) s) := State.SameDesk.foldl _ (State.SameDesk.refl s) fun u n hu => by
      split
      · exact hu.endAtDie ..
      · exact hu
    refine iteInduction (motive := fun u : State => u.panel.job = s.panel.job ∧ u.outbox = s.outbox) (fun _ => ⟨rfl, rfl⟩) (fun _ => ?_)
    dsimp only
    split <;> exact ⟨(congrArg Panel.job hdies.panel :), hdies.outbox⟩

theorem State.interruptMenus_desk (s : State) : s.interruptMenus.panel.job = s.panel.job ∧ s.interruptMenus.outbox = s.outbox :=
  List.foldlRecOn (motive := fun u : State => u.panel.job = s.panel.job ∧ u.outbox = s.outbox) _ _ ⟨rfl, rfl⟩ fun u hu id _ =>
    ⟨(u.interruptMenu_desk id).1.trans hu.1, (u.interruptMenu_desk id).2.trans hu.2⟩

/-- The images that the state store keeps change neither the panel nor what has been sent. -/
theorem State.foldl_keepImage_desk (s : State) (l : List Nat) : s.SameDesk (l.foldl State.keepImage s) :=
  State.SameDesk.foldl l (State.SameDesk.refl s) fun _ _ hu => State.SameDesk.ite ⟨hu.panel, hu.outbox⟩ hu

/-- A panel reset starts: the job context stands, and what has been sent. -/
theorem State.panelWarm_desk (s : State) : s.panelWarm.panel.job = s.panel.job ∧ s.panelWarm.outbox = s.outbox := by
  unfold State.panelWarm
  generalize List.range 52 = sites
  obtain ⟨hjob, hout⟩ := (s.logEvent 1 3 0 noSubject).interruptMenus_desk
  obtain ⟨hpanel, hsent⟩ := (s.logEvent 1 3 0 noSubject).interruptMenus.foldl_keepImage_desk sites
  exact ⟨(congrArg Panel.job hpanel :).trans hjob, hsent.trans hout⟩

/-- A panel reset starts the warm bring-up, and the module is in service again. -/
theorem State.panelWarm_bring (s : State) :
    s.panelWarm.panel.bring.step = 0 ∧ s.panelWarm.panel.bring.cold = false ∧ s.panelWarm.panel.powerDown = false := by
  unfold State.panelWarm
  generalize List.range 52 = sites
  exact ⟨rfl, rfl, rfl⟩

end Sys2Proof.Machine
end

section
/-! Lifeline commands (R255, R426 to R428). -/
namespace Sys2Proof.Machine

/-! ### The record of a lifeline command (R426) -/

@[simp] theorem Panel.hatch_modHatch_self (p : Panel) (h : Nat) (f : Hatch → Hatch) : (p.modHatch h f).hatch h = f (p.hatch h) :=
  Tab.getD_put_self ..

/-- The record and the new NEXT_SEQ of hatch 0 are written before the command acts. -/
def State.openRecord (s : State) (op : Nat) (pl : Bytes) : State :=
  s.modPanel (fun p => p.modHatch 0 (fun x => { x with
    nextSeq := ((s.panel.hatch 0).nextSeq + 1) % 2 ^ 48
    record := some { seq := (s.panel.hatch 0).nextSeq, opcode := op, done := false, request := pl } }))

/-- The record takes the code and the answer. -/
def State.fillRecord (s : State) (r : Recorded) : State := s.setRecord 0 (fun x => { x with code := r.code, answer := r.answer })

/-- The record is marked done, and the hatch notes the FINISH. -/
def State.closeRecord (s : State) (seq code : Nat) : State :=
  (s.setRecord 0 (fun x => { x with done := true })).modPanel (fun p => p.modHatch 0 (fun x => x.noteFinish seq code x.finIndex))

theorem State.lifelineNow_eq {s : State} {n : Nat} (hlisten : s.listens = true) (hkey : (s.panel.hatch 0).key.isSome = true)
    (hn : (s.panel.hatch 0).nextSeq = n) (op : Nat) (pl : Bytes) :
    s.lifelineNow op pl = (s.openRecord op pl).finishRecord 0 n op (State.lifeline op pl (s.openRecord op pl)) := by
  subst hn
  exact if_pos (by simp [hlisten, hkey])

theorem State.finishRecord_late (s : State) (seq op : Nat) {r : Recorded} (h : r.early = false) : s.finishRecord 0 seq op r =
    ((r.act (s.fillRecord r)).reply 0 seq op .finish r.code false r.answer).closeRecord seq r.code :=
  if_neg (by simp [h])

theorem State.finishRecord_early (s : State) {seq op : Nat} {r : Recorded} (h : r.early = true) (hreset : op ≠ 0x0F06) (hload : op ≠ 0x010C) :
    s.finishRecord 0 seq op r = (r.act ((s.fillRecord r).reply 0 seq op .finish r.code false r.answer)).closeRecord seq r.code :=
  (if_pos h).trans ((if_neg hreset).trans (if_neg hload))

theorem State.finishRecord_reset (s : State) (seq : Nat) {r : Recorded} (h : r.early = true) :
    s.finishRecord 0 seq 0x0F06 r = r.act ((s.fillRecord r).reply 0 seq 0x0F06 .finish r.code false r.answer) :=
  (if_pos h).trans (if_pos rfl)

/-! ### Answers -/

/-- A command that only answers: no die changes, nor the journal; the hatch's record is complete and one FINISH leaves. -/
theorem lifelineNow_answers {s : State} {n : Nat} (hlisten : s.listens = true) (hkey : (s.panel.hatch 0).key.isSome = true)
    (hn : (s.panel.hatch 0).nextSeq = n) {op code : Nat} {pl answer : Bytes}
    (hr : State.lifeline op pl (s.openRecord op pl) = { code := code, answer := answer }) :
    SameDies s (s.lifelineNow op pl) ∧ (s.lifelineNow op pl).panel.journal = s.panel.journal ∧
      (s.lifelineNow op pl).outbox = s.outbox ++ [.reply 0 n op ((n + 1) % 2 ^ 48) .finish code false answer] ∧
      ((s.lifelineNow op pl).panel.hatch 0).nextSeq = (n + 1) % 2 ^ 48 ∧
      ((s.lifelineNow op pl).panel.hatch 0).record =
        some { seq := n, opcode := op, code := code, done := true, request := pl, answer := answer } := by
  have hnote : ∀ (x : Hatch) i, (x.noteFinish n code i).nextSeq = x.nextSeq ∧ (x.noteFinish n code i).record = x.record := fun x i => by
    unfold Hatch.noteFinish
    split <;> exact ⟨rfl, rfl⟩
  rw [State.lifelineNow_eq hlisten hkey hn, hr, State.finishRecord_late _ _ _ rfl]
  refine ⟨fun _ => rfl, rfl, ?_, ?_, ?_⟩
  · simp [State.closeRecord, State.fillRecord, State.setRecord, State.openRecord, State.reply, hn]
  · simp [State.closeRecord, State.fillRecord, State.setRecord, State.openRecord, hnote, hn]
  · simp [State.closeRecord, State.fillRecord, State.setRecord, State.openRecord, hnote, hn]

end Sys2Proof.Machine
end

section
/-! SETTLES O53 (R255, R426 to R428, R440). -/
namespace Sys2Proof.Machine

/-! ### What each lifeline command records (R426 to R428) -/

/-- A command that takes no payload, given one. -/
theorem State.lifeline_bare_bad {op : Nat} {pl : Bytes} (hop : op = 0x0F00 ∨ op = 0x0F03 ∨ op = 0x0F06 ∨ op = 0x0F07) (hpl : pl ≠ []) (s : State) :
    State.lifeline op pl s = { code := Code.gwPayload, answer := [] } := by
  rcases hop with rfl | rfl | rfl | rfl <;> exact if_neg (by simpa using hpl)

/-- A command with a payload of 8 bytes, given another length. -/
theorem State.lifeline_length_bad {op : Nat} {pl : Bytes} (hop : op = 0x0F01 ∨ op = 0x0F02 ∨ op = 0x0F04 ∨ op = 0x0F05) (hpl : pl.length ≠ 8)
    (s : State) : State.lifeline op pl s = { code := Code.gwPayload, answer := [] } := by
  rcases hop with rfl | rfl | rfl | rfl <;> exact if_pos (by simp [hpl])

theorem State.lifeline_journalRead {pl : Bytes} (hlen : pl.length = 8) (hh : byteAt pl 0 < 16) (hlo : 1 ≤ byteAt pl 1) (hhi : byteAt pl 1 ≤ 15)
    (s : State) : State.lifeline 0x0F01 pl s = { answer := s.panel.journalBytes (byteAt pl 0) (leAt pl 2 6) (byteAt pl 1) } := by
  have hbits : bits (byteAt pl 0) 7 4 = 0 := by
    simp only [bits, Nat.shiftRight_eq_div_pow]
    omega
  exact if_neg (by simp [hlen, hbits]; omega)

theorem State.lifeline_logDump {pl : Bytes} (hlen : pl.length = 8) (hzero : allZero (sliceAt pl 4 4) = true) (s : State) :
    State.lifeline 0x0F02 pl s = { answer := s.panel.logBytes (leAt pl 0 4 % 2 ^ 20) } := if_neg (by simp [hlen, hzero])

theorem State.lifeline_portOff {pl : Bytes} (hlen : pl.length = 8) (hport : byteAt pl 0 ≤ 7) (hzero : allZero (sliceAt pl 1 7) = true) (s : State) :
    State.lifeline 0x0F04 pl s = { act := fun s => s.portDown (byteAt pl 0) 0 true } := if_neg (by simp [hlen, hport, hzero])

theorem State.lifeline_diePowerOff {pl : Bytes} (hlen : pl.length = 8) (hsite : byteAt pl 0 ≤ 51) (hzero : allZero (sliceAt pl 1 7) = true)
    (s : State) : State.lifeline 0x0F05 pl s = { act := fun s => s.diePowerDown (byteAt pl 0) } := if_neg (by simp [hlen, hsite, hzero])

/-! ### What the record leaves around an act -/

section
variable (s : State) (op seq code : Nat) (pl : Bytes) (r : Recorded) (i j : Nat)

@[simp] theorem State.closeRecord_port : (s.closeRecord seq code).port i = s.port i := rfl
@[simp] theorem State.closeRecord_pair : (s.closeRecord seq code).pair i j = s.pair i j := rfl
@[simp] theorem State.closeRecord_bay : (s.closeRecord seq code).bay i = s.bay i := rfl
@[simp] theorem State.closeRecord_die : (s.closeRecord seq code).die i = s.die i := rfl
@[simp] theorem State.closeRecord_laserOff : (s.closeRecord seq code).panel.laserOff = s.panel.laserOff := rfl
@[simp] theorem State.closeRecord_powerDown : (s.closeRecord seq code).panel.powerDown = s.panel.powerDown := rfl
@[simp] theorem State.closeRecord_out : (s.closeRecord seq code).panel.out = s.panel.out := rfl

@[simp] theorem State.fillRecord_openRecord_activeSite : ((s.openRecord op pl).fillRecord r).activeSite i = s.activeSite i := rfl
@[simp] theorem State.fillRecord_openRecord_die : ((s.openRecord op pl).fillRecord r).die i = s.die i := rfl
@[simp] theorem State.fillRecord_openRecord_bay : ((s.openRecord op pl).fillRecord r).bay i = s.bay i := rfl

variable (stage : Stage) (fresh : Bool) (body : Bytes)

@[simp] theorem State.reply_port : (s.reply 0 seq op stage code fresh body).port i = s.port i := rfl
@[simp] theorem State.reply_pair : (s.reply 0 seq op stage code fresh body).pair i j = s.pair i j := rfl
@[simp] theorem State.reply_bay : (s.reply 0 seq op stage code fresh body).bay i = s.bay i := rfl
end

section
variable {s : State} {n : Nat} (hlisten : s.listens = true) (hkey : (s.panel.hatch 0).key.isSome = true)
  (hn : (s.panel.hatch 0).nextSeq = n)
include hlisten hkey hn

/-! ### The acts -/

theorem lifelineNow_laserOff : (s.lifelineNow 0x0F03 []).panel.laserOff = true ∧ ((s.lifelineNow 0x0F03 []).port 8).up = false ∧
    (∀ m, m < 8 → ∀ q ∈ pairsOf m, ((s.lifelineNow 0x0F03 []).pair q.1 q.2).state = .dark) ∧
    ∀ b, b < 12 → (s.bay b).seated = true → ((s.lifelineNow 0x0F03 []).bay b).state = 5 := by
  have hr : State.lifeline 0x0F03 [] (s.openRecord 0x0F03 []) = { early := true, act := State.lasersOff } := rfl
  rw [State.lifelineNow_eq hlisten hkey hn, hr, State.finishRecord_early _ rfl (by decide) (by decide)]
  obtain ⟨hlaser, hhost, hdark, hoff⟩ := State.lasersOff_off (((s.openRecord 0x0F03 []).fillRecord
    { early := true, act := State.lasersOff }).reply 0 n 0x0F03 .finish 0 false [])
  simp only [State.reply_bay, State.fillRecord_openRecord_bay] at hoff
  simp only [State.closeRecord_laserOff, State.closeRecord_port, State.closeRecord_pair, State.closeRecord_bay]
  exact ⟨hlaser, hhost, hdark, hoff⟩

theorem lifelineNow_portOff {pl : Bytes} (hlen : pl.length = 8) (hlast : byteAt pl 0 ≤ 7) (hzero : allZero (sliceAt pl 1 7) = true) :
    ((s.lifelineNow 0x0F04 pl).port (byteAt pl 0)).state = 0 ∧ ((s.lifelineNow 0x0F04 pl).port (byteAt pl 0)).held = true ∧
      ∀ q ∈ pairsOf (byteAt pl 0), ((s.lifelineNow 0x0F04 pl).pair q.1 q.2).state = .dark := by
  rw [State.lifelineNow_eq hlisten hkey hn, State.lifeline_portOff hlen hlast hzero, State.finishRecord_late _ _ _ rfl]
  simp only [State.closeRecord_port, State.closeRecord_pair, State.reply_port, State.reply_pair]
  obtain ⟨hstate, hheld⟩ := State.portDown_port ((s.openRecord 0x0F04 pl).fillRecord
    { act := fun s => s.portDown (byteAt pl 0) 0 true }) (byteAt pl 0) 0 true
  exact ⟨hstate, hheld, State.portDown_dark _ _ 0 true⟩

theorem lifelineNow_diePowerOff {pl : Bytes} (hlen : pl.length = 8) (hlast : byteAt pl 0 ≤ 51) (hzero : allZero (sliceAt pl 1 7) = true)
    (hact : s.activeSite (byteAt pl 0) = true) (hon : (s.die (byteAt pl 0)).power.on ≠ alwaysOn) :
    ((s.lifelineNow 0x0F05 pl).die (byteAt pl 0)).power.on = alwaysOn ∧ byteAt pl 0 ∈ (s.lifelineNow 0x0F05 pl).panel.out := by
  rw [State.lifelineNow_eq hlisten hkey hn, State.lifeline_diePowerOff hlen hlast hzero, State.finishRecord_late _ _ _ rfl]
  simp only [State.closeRecord_die, State.closeRecord_out, State.reply_die, State.reply_panel]
  exact State.diePowerDown_off _ (by rw [State.fillRecord_openRecord_activeSite, hact]) (by rw [State.fillRecord_openRecord_die]; exact hon)

theorem lifelineNow_powerDown : (s.lifelineNow 0x0F07 []).panel.powerDown = true ∧
    (∀ d, d < 52 → ((s.lifelineNow 0x0F07 []).die d).power.on = alwaysOn) ∧ ∀ d, d < 52 → d ∈ (s.lifelineNow 0x0F07 []).panel.out := by
  have hr : State.lifeline 0x0F07 [] (s.openRecord 0x0F07 []) = { act := State.panelDown } := rfl
  rw [State.lifelineNow_eq hlisten hkey hn, hr, State.finishRecord_late _ _ _ rfl]
  simp only [State.closeRecord_die, State.closeRecord_powerDown, State.closeRecord_out, State.reply_die, State.reply_panel]
  exact State.panelDown_off _

theorem lifelineNow_panelReset : (s.lifelineNow 0x0F06 []).panel.bring.step = 0 ∧ (s.lifelineNow 0x0F06 []).panel.bring.cold = false ∧
    (s.lifelineNow 0x0F06 []).panel.job = s.panel.job ∧ (s.lifelineNow 0x0F06 []).panel.powerDown = false ∧
    Output.reply 0 n 0x0F06 ((n + 1) % 2 ^ 48) .finish 0 false [] ∈ (s.lifelineNow 0x0F06 []).outbox := by
  have hr : State.lifeline 0x0F06 [] (s.openRecord 0x0F06 []) = { early := true, act := State.panelWarm } := rfl
  rw [State.lifelineNow_eq hlisten hkey hn, hr, State.finishRecord_reset _ _ rfl]
  obtain ⟨hstep, hcold, hdown⟩ := State.panelWarm_bring (((s.openRecord 0x0F06 []).fillRecord
    { early := true, act := State.panelWarm }).reply 0 n 0x0F06 .finish 0 false [])
  obtain ⟨hjob, hout⟩ := State.panelWarm_desk (((s.openRecord 0x0F06 []).fillRecord
    { early := true, act := State.panelWarm }).reply 0 n 0x0F06 .finish 0 false [])
  dsimp only
  refine ⟨hstep, hcold, hjob, hdown, ?_⟩
  rw [hout]
  simp [State.fillRecord, State.setRecord, State.openRecord, State.reply, hn]

end

/-- Settles O53: a command that only answers leaves the dies; an act runs on a state that differs by its record. -/
theorem lifelineCommandsAct : Obligations.LifelineCommandsAct := by
  unfold Obligations.LifelineCommandsAct
  intro s pl n hlisten hkey hn
  refine ⟨⟨_, rfl, ?_⟩, fun hlen hh hlo hhi => ⟨_, rfl, ?_⟩, fun hlen hzero => ⟨_, rfl, ?_⟩,
    ⟨_, rfl, lifelineNow_laserOff hlisten hkey hn⟩,
    fun hlen hlast hzero => ⟨_, rfl, lifelineNow_portOff hlisten hkey hn hlen hlast hzero⟩,
    fun hlen hlast hzero hact hon => ⟨_, rfl, lifelineNow_diePowerOff hlisten hkey hn hlen hlast hzero hact hon⟩,
    ⟨_, rfl, lifelineNow_panelReset hlisten hkey hn⟩, ⟨_, rfl, lifelineNow_powerDown hlisten hkey hn⟩,
    fun i op hi hpl => ?_, fun i op hi hlen => ?_⟩
  case refine_1 => exact lifelineNow_answers hlisten hkey hn rfl
  case refine_2 =>
    obtain ⟨hdies, hjournal, hout, -, -⟩ := lifelineNow_answers hlisten hkey hn (State.lifeline_journalRead hlen hh hlo hhi _)
    exact ⟨hdies, hjournal, hout⟩
  case refine_3 =>
    obtain ⟨hdies, -, hout, -, -⟩ := lifelineNow_answers hlisten hkey hn (State.lifeline_logDump hlen hzero _)
    exact ⟨hdies, hout⟩
  case refine_4 =>
    obtain ⟨hexec, hop⟩ : exec i s = .next (s.lifelineNow op pl) ∧ (op = 0x0F00 ∨ op = 0x0F03 ∨ op = 0x0F06 ∨ op = 0x0F07) := by
      simp only [List.mem_cons, Prod.mk.injEq, List.not_mem_nil, or_false] at hi
      rcases hi with ⟨rfl, rfl⟩ | ⟨rfl, rfl⟩ | ⟨rfl, rfl⟩ | ⟨rfl, rfl⟩ <;> exact ⟨rfl, by decide⟩
    obtain ⟨hdies, -, hout, -, -⟩ := lifelineNow_answers hlisten hkey hn (State.lifeline_bare_bad hop hpl _)
    exact ⟨_, hexec, hdies, hout⟩
  case refine_5 =>
    obtain ⟨hexec, hop⟩ : exec i s = .next (s.lifelineNow op pl) ∧ (op = 0x0F01 ∨ op = 0x0F02 ∨ op = 0x0F04 ∨ op = 0x0F05) := by
      simp only [List.mem_cons, Prod.mk.injEq, List.not_mem_nil, or_false] at hi
      rcases hi with ⟨rfl, rfl⟩ | ⟨rfl, rfl⟩ | ⟨rfl, rfl⟩ | ⟨rfl, rfl⟩ <;> exact ⟨rfl, by decide⟩
    obtain ⟨hdies, -, hout, -, -⟩ := lifelineNow_answers hlisten hkey hn (State.lifeline_length_bad hop hlen _)
    exact ⟨_, hexec, hdies, hout⟩

end Sys2Proof.Machine
end

section
/-! REFUTES O20 (R252 to R254, R258). -/
namespace Sys2Proof.Machine

/-- A switchover of fabric port 0 names bay 10 as its spare, so that the free spare of HOST is bay 11; but bay 10 is HOST's own bay and
STANDBY, and HOST moves back to it at once (R258). -/
def ownBayPassedOver : State := { panel := {
  ports := [(0, { switching := some { spare := 10 } }), (8, { feed := some 0 })]
  bays := [(0, { seated := true, state := 3 }), (10, { seated := true, state := 2 }), (11, { seated := true, state := 2 })] } }

theorem ownBayPassedOver_feed : ∀ n < 9, (ownBayPassedOver.port n).feed = some 0 → n = 8 := by decide

theorem ownBayPassedOver_switching (n : Nat) (w : Switchover) (hn : n < 8) :
    (ownBayPassedOver.port n).switching = some w → w.spare ≠ 0 := by
  have hspare : ∀ n < 8, ((ownBayPassedOver.port n).switching.map Switchover.spare) ≠ some 0 := by decide
  rintro hw h0
  exact hspare n hn (by rw [hw, Option.map_some, h0])

theorem ownBayPassedOver_pressed (b : Nat) : (ownBayPassedOver.bay b).pressed = false := by
  by_cases hb : b < 12
  · have hlow : ∀ b < 12, (ownBayPassedOver.bay b).pressed = false := by decide
    exact hlow b hb
  · have h0 : (0 : Nat) ≠ b := by omega
    have h10 : (10 : Nat) ≠ b := by omega
    have h11 : (11 : Nat) ≠ b := by omega
    simp [ownBayPassedOver, State.bay, Tab.getD, Tab.find, h0, h10, h11]

theorem ownBayPassedOver_freeSpare : ownBayPassedOver.freeSpare 8 = some 11 := by decide

/-- What LSM_FAILED of bay 0 leaves: HOST is fed from bay 10. -/
theorem ownBayPassedOver_failed : ((ownBayPassedOver.sourceFailed 0 4).port 8).feed = some 10 := by decide +kernel

/-- An internal fault of the module that feeds a port. -/
theorem exec_lsmFailed_of_feeding {s : State} {bay : Nat} (hseated : (s.bay bay).seated = true) (hstate : (s.bay bay).state = 3) :
    exec (.lsmFailed bay false) s = .next (s.sourceFailed bay 4) := by
  show execLsmFailed bay false s = _
  simp [execLsmFailed, hseated, hstate]

/-- Refutes O20: of the failed source of HOST it says that HOST is then fed from its free spare. Where the free spare is bay 11 because a
fabric port's switchover names bay 10, HOST is fed from bay 11 and moves back to its own STANDBY bay 10 in the same step. -/
theorem not_laserSourcesComplete : ¬ Obligations.LaserSourcesComplete := by
  unfold Obligations.LaserSourcesComplete
  rintro ⟨-, hmodules⟩
  obtain ⟨-, -, -, -, -, -, hfailed, -⟩ := hmodules ownBayPassedOver 0
  obtain ⟨u, hu, hfeed, -⟩ := hfailed 8 11 rfl rfl (by decide) rfl ownBayPassedOver_feed ownBayPassedOver_switching
    ownBayPassedOver_pressed ownBayPassedOver_freeSpare (by decide)
  rw [exec_lsmFailed_of_feeding rfl rfl, Host.Outcome.next.injEq] at hu
  rw [← hu, ownBayPassedOver_failed] at hfeed
  exact absurd hfeed (by decide)

end Sys2Proof.Machine
end

section
/-! PACKET_INJECT and PACKET_EJECT (R275, R276, R305, R309, R311). -/
namespace Sys2Proof.Machine

/-! ### What a trace, a buffer and a window change of a die -/

/-- A FAB trace writes nothing of a die but its observation unit (R481). -/
theorem State.traceFab_die (s : State) (d dir port cls word : Nat) (trans : Bytes) (e : Nat) :
    ({ (s.traceFab d dir port cls word trans).die e with obs := (s.die e).obs } : Die) = s.die e := by
  unfold State.traceFab
  dsimp only
  split
  · rfl
  · rw [State.die_modDie]
    split <;> rfl

theorem State.traceFab_field (s : State) (d dir port cls word : Nat) (trans : Bytes) (e : Nat) {α : Type} (f : Die → α) :
    f { (s.traceFab d dir port cls word trans).die e with obs := (s.die e).obs } = f (s.die e) :=
  congrArg f (s.traceFab_die d dir port cls word trans e)

section
variable (s : State) (d dir port cls word : Nat) (trans : Bytes) (e : Nat)

@[simp] theorem State.traceFab_fab : ((s.traceFab d dir port cls word trans).die e).fab = (s.die e).fab := s.traceFab_field _ _ _ _ _ _ _ Die.fab
@[simp] theorem State.traceFab_rem : ((s.traceFab d dir port cls word trans).die e).rem = (s.die e).rem := s.traceFab_field _ _ _ _ _ _ _ Die.rem
@[simp] theorem State.traceFab_mem : ((s.traceFab d dir port cls word trans).die e).mem = (s.die e).mem := s.traceFab_field _ _ _ _ _ _ _ Die.mem

end

/-- A buffer that takes a packet leaves the rest of the fabric interface. -/
theorem Die.enqueue_fab (x : Die) (a : Arrival) (port : Nat) (q : Packet) : (x.enqueue a port q).fab =
    { x.fab with held := x.fab.held ++ [{ pkt := { q with mark := q.mark || x.marked a q }, from_ := a, port := port }] } := by
  unfold Die.enqueue
  dsimp only
  split <;> rfl

@[simp] theorem Die.enqueue_rem (x : Die) (a : Arrival) (port : Nat) (q : Packet) : (x.enqueue a port q).rem = x.rem := by
  unfold Die.enqueue
  dsimp only
  split <;> rfl

@[simp] theorem Die.freeSlot_mem (x : Die) (a : Arrival) : (x.freeSlot a).mem = x.mem := x.freeSlot_field a Die.mem

/-! ### PACKET_INJECT -/

/-- The packet as the injection queue holds it: with its VIA, and marked when it joins a long queue (R284, R295). -/
def Held.injected (q : Packet) (via : Nat) (m : Bool) : Held := { pkt := { q with via := via, mark := q.mark || m } }

/-- A packet for another die joins the injection queue (R275). -/
theorem State.launchPacket_away (s : State) (d : Nat) (q : Packet)
    (haway : q.dstRank ≠ (s.die d).fab.rank ∨ q.dstDie ≠ (s.die d).standsFor) : ∃ via ptr m,
    ((s.launchPacket d q).die d).fab = { (s.die d).fab with viaPtr := ptr, held := (s.die d).fab.held ++ [Held.injected q via m] } ∧
      ((s.launchPacket d q).die d).rem = (s.die d).rem := by
  have hself : ¬ (decide (q.dstRank = (s.die d).fab.rank) && decide (q.dstDie = (s.die d).standsFor)) = true := by
    rw [← Bool.decide_and, decide_eq_true_iff]
    exact fun hself => haway.elim (· hself.1) (· hself.2)
  unfold State.launchPacket
  dsimp only
  rw [if_neg hself, State.die_modDie_self, Die.enqueue_fab, Die.enqueue_rem]
  simp only [State.traceFab_fab, State.traceFab_rem]
  exact ⟨_, _, _, rfl, trivial⟩

/-- The die without what its interface has taken up for injection. -/
def State.takeHandoff (s : State) (d : Nat) (h : Handoff) : State :=
  s.modDie d (fun x => { x with fab := { x.fab with handoff := removeFirst (fun g => g = h) x.fab.handoff } })

@[simp] theorem State.takeHandoff_die (s : State) (d : Nat) (h : Handoff) : (s.takeHandoff d h).die d =
    { s.die d with fab := { (s.die d).fab with handoff := removeFirst (fun g => g = h) (s.die d).fab.handoff } } :=
  s.die_modDie_self d _

/-- The TRANSPORT bytes of a packet that a unit formed, with the time stamp of the turn (R311). -/
def timeStamped (tr : Bytes) (turn : Nat) : Bytes := if byteAt tr 0 % 16 = 0 then tr else tr.take 11 ++ leBytes 1 turn

/-- A packet that a unit formed for another die is stamped and joins the injection queue. -/
theorem State.injectPkt_taken (s : State) {d rank die : Nat} (c : Nat) (tr pl : Bytes) (h : Handoff)
    (haway : rank ≠ (s.die d).fab.rank ∨ die ≠ (s.die d).standsFor) : ∃ via ptr m,
    (((s.takeHandoff d h).injectPkt d rank die c tr pl).die d).fab = { (s.die d).fab with
      viaPtr := ptr, held := (s.die d).fab.held ++ [Held.injected ((s.die d).stamp rank die c (timeStamped tr s.turn) pl) via m]
      handoff := removeFirst (fun g => g = h) (s.die d).fab.handoff } := by
  obtain ⟨via, ptr, m, hfab, -⟩ := (s.takeHandoff d h).launchPacket_away d
    (((s.takeHandoff d h).die d).stamp rank die c (timeStamped tr s.turn) pl) (by rw [State.takeHandoff_die]; exact haway)
  refine ⟨via, ptr, m, hfab.trans ?_⟩
  rw [State.takeHandoff_die]
  rfl

section
variable (s : State) {d cls : Nat}

theorem exec_packetInject_pkt {rank die c : Nat} {tr pl : Bytes}
    (hfind : (s.die d).fab.handoff.find? (fun h => h.cls = cls && (s.die d).mayInject h) = some (.pkt rank die c tr pl))
    (hrank : (s.die d).fab.rankOk rank = true) :
    exec (.packetInject d cls) s = .next ((s.takeHandoff d (.pkt rank die c tr pl)).injectPkt d rank die c tr pl) := by
  show execPacketInject d cls s = _
  simp only [execPacketInject, hfind, hrank, if_true]
  rfl

theorem exec_packetInject_req {i : Nat} {r : Req}
    (hfind : (s.die d).fab.handoff.find? (fun h => h.cls = cls && (s.die d).mayInject h) = some (.req i))
    (hreq : (s.die d).rem.reqs.find? (fun r => r.id = i) = some r) : exec (.packetInject d cls) s = .next (s.injectReq d r) := by
  show execPacketInject d cls s = _
  simp only [execPacketInject, hfind, hreq]

end

/-- A request of one packet takes the next number of its session at its first injection (R309); its windows and the counts of the
interface differ, and no buffer (R296, R297). -/
theorem Die.numberReq_first (x : Die) {r : Req} (hsent : r.sent = false) (hnum : r.numbered = false) (hkind : r.kind ≠ .send) :
    (x.numberReq r).2.seq = (x.rem.src.getD r.key {}).next ∧
      ((x.numberReq r).1.rem.src.getD r.key {}).next = ((x.rem.src.getD r.key {}).next + 1) % 2 ^ 24 ∧
      (x.numberReq r).1.fab.held = x.fab.held ∧ (x.numberReq r).1.fab.rank = x.fab.rank ∧ (x.numberReq r).1.standsFor = x.standsFor := by
  unfold Die.numberReq
  simp [hsent, hnum, hkind, Die.putWin]

/-- The packet of request `r` as die `x` forms it, with its number and the OPEN mark of its session (R275, R305, R309). -/
def Die.reqPacket (x : Die) (r : Req) (bs : Bytes) (turn : Nat) : Packet :=
  x.stamp r.rank r.die clsReq (raTrans r.kind.code false r.flag (! (x.rem.src.getD r.key {}).zeroAcked) (x.numberReq r).2.seq r.addr
    (turn % 256)) ((x.numberReq r).2.payload bs)

/-- The injection of a request whose bytes are fixed. -/
theorem State.injectReq_fixed (s : State) (d : Nat) {r : Req} {bs : Bytes} (hrank : (s.die d).fab.rankOk r.rank = true)
    (hfixed : r.fixed = some bs) : s.injectReq d r =
      ((s.takeHandoff d (.req r.id)).modDie d (fun x => (x.numberReq r).1)).launchPacket d
        (((s.takeHandoff d (.req r.id)).die d).reqPacket r bs s.turn) := by
  have hbytes : (s.takeHandoff d (.req r.id)).reqBytes d r = (s.takeHandoff d (.req r.id), .inl bs) := by
    rw [State.reqBytes, hfixed]
  rw [State.takeHandoff] at hbytes
  unfold State.injectReq
  rw [if_neg (by simp [hrank])]
  simp only [hbytes]
  rfl

/-- A new request of one packet for another die joins the injection queue with the next number of its session. -/
theorem State.injectReq_first (s : State) {d : Nat} {r : Req} {bs : Bytes} (hrank : (s.die d).fab.rankOk r.rank = true)
    (hsent : r.sent = false) (hnum : r.numbered = false) (hkind : r.kind ≠ .send) (hfixed : r.fixed = some bs)
    (haway : r.rank ≠ (s.die d).fab.rank ∨ r.die ≠ (s.die d).standsFor) : ∃ via m,
    ((s.injectReq d r).die d).fab.held = (s.die d).fab.held ++
      [Held.injected (((s.takeHandoff d (.req r.id)).die d).reqPacket r bs s.turn) via m] ∧
    (((s.injectReq d r).die d).rem.src.getD r.key {}).next = (((s.die d).rem.src.getD r.key {}).next + 1) % 2 ^ 24 := by
  obtain ⟨-, hnext, hheld, hrk, hsf⟩ := ((s.takeHandoff d (.req r.id)).die d).numberReq_first hsent hnum hkind
  simp only [State.takeHandoff_die] at hnext hheld hrk hsf
  obtain ⟨via, ptr, m, hfab, hrem⟩ := ((s.takeHandoff d (.req r.id)).modDie d (fun x => (x.numberReq r).1)).launchPacket_away d
    (((s.takeHandoff d (.req r.id)).die d).reqPacket r bs s.turn)
    (by rw [State.die_modDie_self, State.takeHandoff_die, hrk, hsf]; exact haway)
  rw [s.injectReq_fixed d hrank hfixed, hfab, hrem, State.die_modDie_self]
  simp only [State.takeHandoff_die, hnext, hheld]
  exact ⟨via, m, rfl, trivial⟩

/-! ### PACKET_EJECT -/

theorem Die.ejectCheck_le (x : Die) (q : Packet) (turn : Nat) : x.ejectCheck q turn ≤ 4 := by
  unfold Die.ejectCheck
  repeat' split
  all_goals decide

/-- A packet that fails a check is counted once, by its reason, and nothing else changes (R276, R311). -/
theorem Die.countDrop_counts (x : Die) {why : Nat} (hpos : why ≠ 0) (hle : why ≤ 4) :
    (x.countDrop why).fab.held = x.fab.held ∧ (x.countDrop why).rem.rx = x.rem.rx ∧
    (x.countDrop why).fab.foreign = (if why = 1 then satAdd 16 x.fab.foreign 1 else x.fab.foreign) ∧
    (x.countDrop why).fab.stale = (if why = 2 then satAdd 16 x.fab.stale 1 else x.fab.stale) ∧
    (x.countDrop why).fab.evictedSrc = (if why = 3 then satAdd 16 x.fab.evictedSrc 1 else x.fab.evictedSrc) ∧
    (x.countDrop why).rem.aged = (if why = 4 then satAdd 16 x.rem.aged 1 else x.rem.aged) ∧
    (x.countDrop why).mem = x.mem := by
  match why, hpos, hle with
  | 1, _, _ | 2, _, _ | 3, _, _ | 4, _, _ => exact ⟨rfl, rfl, rfl, rfl, rfl, rfl, rfl⟩

/-- A packet that leaves its buffer takes its entry away, and nothing else of the interface, of remote memory or of memory. -/
theorem Die.unhold_parts (x : Die) (i : Nat) (a : Arrival) : (x.unhold i a).fab = { x.fab with held := x.fab.held.eraseIdx i } ∧
    (x.unhold i a).rem = x.rem ∧ (x.unhold i a).mem = x.mem := ⟨Die.freeSlot_fab .., Die.freeSlot_rem .., Die.freeSlot_mem ..⟩

/-- The packet has come to its die `d`, which carries packets (R276, R48, R436). -/
def State.arrived (s : State) (d : Nat) (e : Held × Nat) : Bool :=
  match e.1.route with
  | some r => r.exit = 8 && r.site = d && s.carries d
  | none => false

section
variable (s : State) {d i : Nat} {h : Held} (hfind : (s.die d).fab.held.zipIdx.find? (s.arrived d) = some (h, i))
include hfind

theorem exec_packetEject_delivered (hcheck : (s.die d).ejectCheck h.pkt s.turn = 0) : exec (.packetEject d) s =
    .next ((s.setDie d { (s.die d).unhold i h.from_ with
      rem := { ((s.die d).unhold i h.from_).rem with rx := ((s.die d).unhold i h.from_).rem.rx ++ [h.pkt] } }).traceFab d 1 h.port
        h.pkt.cls h.pkt.word0 h.pkt.trans) := by
  show execPacketEject d s = _
  unfold execPacketEject
  dsimp only
  generalize hf : List.find? _ _ = o
  obtain rfl : o = some (h, i) := hf.symm.trans hfind
  simp only [hcheck]

theorem exec_packetEject_dropped (hcheck : (s.die d).ejectCheck h.pkt s.turn ≠ 0) : exec (.packetEject d) s =
    .next (s.setDie d (((s.die d).unhold i h.from_).countDrop ((s.die d).ejectCheck h.pkt s.turn))) := by
  show execPacketEject d s = _
  unfold execPacketEject
  dsimp only
  generalize hf : List.find? _ _ = o
  obtain rfl : o = some (h, i) := hf.symm.trans hfind
  dsimp only
  split
  · next h0 => exact (hcheck h0).elim
  · rfl

end

/-- Settles O21: the packet formed for another die joins the injection queue, and the packet that has come is delivered or counted. -/
theorem injectionAndEjection : Obligations.InjectionAndEjection := by
  refine ⟨fun s d cls => ⟨fun rank die c tr pl hfind hrank haway => ?_,
    fun i r bs hfind hreq hrank hsent hnum hkind hfixed haway => ?_⟩, fun s d i h hfind => ?_⟩
  · obtain ⟨via, ptr, m, hfab⟩ := s.injectPkt_taken c tr pl (.pkt rank die c tr pl) haway
    exact ⟨_, _, exec_packetInject_pkt s hfind hrank, (congrArg Fabric.held hfab :), rfl, rfl, rfl, rfl, rfl, rfl, rfl, rfl, rfl, rfl, rfl,
      rfl, rfl, rfl, (congrArg Fabric.handoff hfab :)⟩
  · obtain ⟨via, m, hheld, hnext⟩ := s.injectReq_first hrank hsent hnum hkind hfixed haway
    obtain ⟨hseq, -⟩ := ((s.takeHandoff d (.req r.id)).die d).numberReq_first hsent hnum hkind
    refine ⟨_, _, exec_packetInject_req s hfind hreq, hheld, rfl, rfl, rfl, ?_, hnext⟩
    rw [Held.injected, Die.reqPacket, hseq, State.takeHandoff_die]
    rfl
  · have hfind' : (s.die d).fab.held.zipIdx.find? (s.arrived d) = some (h, i) := hfind
    obtain ⟨hfab, hrem, hmem⟩ := (s.die d).unhold_parts i h.from_
    by_cases hcheck : (s.die d).ejectCheck h.pkt s.turn = 0
    · refine ⟨_, exec_packetEject_delivered s hfind' hcheck, ?_⟩
      simp [hcheck, hfab, hrem, hmem]
    · obtain ⟨hheld, hrx, hforeign, hstale, hevicted, haged, hmem'⟩ :=
        ((s.die d).unhold i h.from_).countDrop_counts hcheck (Die.ejectCheck_le ..)
      refine ⟨_, exec_packetEject_dropped s hfind' hcheck, ?_⟩
      rw [State.die_setDie_self, hheld, hrx, hforeign, hstale, hevicted, haged, hmem', hfab, hrem, hmem, if_neg hcheck]
      exact ⟨rfl, rfl, rfl, rfl, rfl, rfl, rfl⟩

end Sys2Proof.Machine
end

section
/-! BOUNCE, the expiry of exclusions, the switch of rank tables and the injection rate (R273, R274, R285, R297). -/
namespace Sys2Proof.Machine

/-! ### BOUNCE -/

/-- The die without the bounce that it has taken up. -/
def Die.takeBounce (x : Die) : Die := { x with rem := { x.rem with rx := removeFirst (fun q => q.owner = 0) x.rem.rx } }

/-- An exclusion is written in the die's tables and raised as FAB_GATEWAY_EXCLUDED. -/
def State.excludes (s : State) (d : Nat) (f : Fabric → Fabric) : State :=
  (s.setDie d { (s.die d).takeBounce with fab := f (s.die d).fab }).notice Code.fabGatewayExcluded (dieSubject (s.die d).standsFor) 0 0 0

section
variable (s : State) {d : Nat} {q : Packet} (hfind : (s.die d).rem.rx.find? (fun q => q.owner = 0) = some q)
  (hkind : byteAt q.trans 1 = 1)
include hfind hkind

/-- A gateway of another group: that group is excluded as an intermediate. -/
theorem exec_bounce_far (hfar : cGroup (leAt q.trans 2 2 % 2 ^ 14) ≠ cGroup (s.die d).fab.coord)
    (hnew : (s.die d).fab.viaExcluded.find (cGroup (leAt q.trans 2 2 % 2 ^ 14)) = none) : exec (.bounce d) s =
    .next (s.excludes d (fun f => { f with viaExcluded := f.viaExcluded.put (cGroup (leAt q.trans 2 2 % 2 ^ 14)) 65536 })) := by
  show execBounce d s = _
  unfold execBounce
  simp only [hfind, hkind, hfar, hnew]
  rfl

/-- A gateway of the own group: the entry of the own gateway table that names it is excluded. -/
theorem exec_bounce_own {e : Nat} (hown : cGroup (leAt q.trans 2 2 % 2 ^ 14) = cGroup (s.die d).fab.coord)
    (hentry : ([0, 1, 2, 3] : List Nat).find? (fun e => bitAt (gwEntry ((s.die d).fab.gw.getD (byteAt q.trans 4) 0) e) 15 &&
      gwCoord (cGroup (leAt q.trans 2 2 % 2 ^ 14)) (gwEntry ((s.die d).fab.gw.getD (byteAt q.trans 4) 0) e) = leAt q.trans 2 2 % 2 ^ 14 &&
      gwEntry ((s.die d).fab.gw.getD (byteAt q.trans 4) 0) e % 2 = byteAt q.trans 5 % 2 &&
      ((s.die d).fab.gwExcluded.find (4 * byteAt q.trans 4 + e)).isNone) = some e) : exec (.bounce d) s =
    .next (s.excludes d (fun f => { f with gwExcluded := f.gwExcluded.put (4 * byteAt q.trans 4 + e) 65536 })) := by
  show execBounce d s = _
  unfold execBounce
  simp only [hfind, hkind]
  refine congrArg Host.Outcome.next ((if_neg (by simp)).trans ((if_pos hown).trans ?_))
  simp only [hentry]
  rfl

end

@[simp] theorem State.excludes_die (s : State) (d : Nat) (f : Fabric → Fabric) :
    (s.excludes d f).die d = { (s.die d).takeBounce with fab := f (s.die d).fab } := s.die_setDie_self d _

@[simp] theorem State.excludes_logged (s : State) (d : Nat) (f : Fabric → Fabric) :
    (s.excludes d f).panel.logged = s.panel.logged + 1 := State.notice_logged ..

/-! ### A change of every ACTIVE die -/

theorem State.onActive_panel (s : State) (f : Die → Die) : (s.onActive f).panel = s.panel :=
  List.foldlRecOn (motive := fun u : State => u.panel = s.panel) _ _ rfl fun _ hu _ _ => hu

/-- A die of no ACTIVE site stands. -/
theorem State.onActive_die_inactive (s : State) (f : Die → Die) {e : Nat} (hoff : s.activeSite e = false) :
    (s.onActive f).die e = s.die e := by
  refine List.foldlRecOn (motive := fun u : State => u.die e = s.die e) _ _ rfl fun u hu d hd => ?_
  have hne : e ≠ d := by
    rintro rfl
    simp [State.activeSites, hoff] at hd
  rw [State.die_modDie_ne _ _ hne, hu]

/-- The die of an ACTIVE site is one that the change has come to. -/
theorem State.onActive_die_active (s : State) (f : Die → Die) {e : Nat} (he : e < 52) (hon : s.activeSite e = true) :
    ∃ x, (s.onActive f).die e = f x := by
  refine foldl_establishes (Q := fun e (u : State) => ∃ x, u.die e = f x) (fun u d => ⟨_, State.die_modDie_self ..⟩)
    (fun u d b hb => ?_) s.activeSites s e (by simp [State.activeSites, he, hon])
  rw [State.die_modDie]
  split
  · exact ⟨_, rfl⟩
  · exact hb

theorem exec_rankTableSwitch (s : State) {t : RankTable} (hfind : s.panel.fabric.pendingTables.find? (fun t => turnCome t.turn s.turn) = some t)
    (hjob : s.panel.job.isSome = true) : exec .rankTableSwitch s =
    .next ((s.modPanel (fun p => { p with fabric := { p.fabric with
      pendingTables := p.fabric.pendingTables.filter (fun q => q ≠ t), inForce := some t } })).onActive (fun x => x.putRanks t)) := by
  have hnone : s.panel.job.isNone = false := by rw [← Option.not_isSome, hjob]; rfl
  show execRankTableSwitch s = _
  unfold execRankTableSwitch
  simp only [hfind, hnone]
  rfl

/-! ### RATE_STEP -/

section
variable (s : State) {d : Nat}

/-- Above T2_HI the limit engages with FAB_THROTTLED, or halves. -/
theorem exec_rateStep_high (hhigh : (s.die d).fab.t2Hi < (s.die d).injectDepth) : exec (.rateStep d) s =
    .next (let t := s.setDie d { s.die d with fab := { (s.die d).fab with
        rate := if (s.die d).fab.rate = 16 then 8 else max 1 ((s.die d).fab.rate / 2), relaxing := false } }
      if (s.die d).fab.rate = 16 then t.notice Code.fabThrottled (dieSubject (s.die d).standsFor) 0 0 0 else t) :=
  congrArg Host.Outcome.next (if_pos hhigh)

theorem exec_rateStep_relax (hlow : (s.die d).injectDepth ≤ (s.die d).fab.t2Hi) (hrate : (s.die d).fab.rate < 16)
    (hrelax : (s.die d).fab.relaxing = true ∨ (s.die d).injectDepth < (s.die d).fab.t2Lo) : exec (.rateStep d) s =
    .next (s.setDie d { s.die d with fab := { (s.die d).fab with
      rate := min 16 (2 * (s.die d).fab.rate), relaxing := decide (2 * (s.die d).fab.rate < 16) } }) :=
  congrArg Host.Outcome.next ((if_neg (Nat.not_lt.mpr hlow)).trans (if_pos (by simpa [hrate] using hrelax)))

end

theorem OnlyDie.setDie (s : State) (d : Nat) (x : Die) : OnlyDie d s (s.setDie d x) :=
  ⟨fun _ he => s.die_setDie_ne x he, rfl, rfl, rfl, rfl, rfl, rfl, rfl⟩

/-- Settles O23: each command by the state that it leaves. -/
theorem fabricControlComplete : Obligations.FabricControlComplete := by
  intro s d
  refine ⟨fun q hfind hkind hfar hnew => ?_, fun q g e hfind hkind hown hg hentry => ?_, fun _ => rfl, fun t hfind hjob => ?_,
    fun hhigh => ?_, fun hlow hrate hrelax => ?_⟩
  · exact ⟨_, exec_bounce_far s hfind hkind hfar hnew, by rw [State.excludes_die]; exact Tab.find_put_self .., s.excludes_logged ..,
      by rw [State.excludes_die]; rfl⟩
  · subst hg
    exact ⟨_, exec_bounce_own s hfind hkind hown hentry, by rw [State.excludes_die]; exact Tab.find_put_self .., by rw [State.excludes_die],
      by rw [State.excludes_die], s.excludes_logged .., by rw [State.excludes_die]; rfl⟩
  · refine ⟨_, exec_rankTableSwitch s hfind hjob, by rw [State.onActive_panel]; rfl, fun e he hon => ?_, fun e hoff => ?_⟩
    · obtain ⟨x, hx⟩ := State.onActive_die_active (s.modPanel _) (fun x => x.putRanks t) he hon
      rw [hx]
      exact ⟨rfl, rfl, rfl, rfl, rfl⟩
    · exact State.onActive_die_inactive (s.modPanel _) (fun x => x.putRanks t) hoff
  · refine ⟨_, exec_rateStep_high s hhigh, ?_, fun hfull => ?_⟩
    · dsimp only
      split <;> simp
    · dsimp only
      rw [if_pos hfull, State.notice_logged]
      rfl
  · refine ⟨_, exec_rateStep_relax s hlow hrate hrelax, ?_, OnlyDie.setDie ..⟩
    rw [State.die_setDie_self]

end Sys2Proof.Machine
end
